-- ==== Sys2Proof/Word.lean ====
section
/-! DEFINITION. The word types of the VG6144 and the sparse table by which the model holds a fixed number of like things. -/
namespace Sys2Proof

/-- A byte (R6). -/
abbrev Byte := BitVec 8
/-- A 16-bit field. -/
abbrev W16 := BitVec 16
/-- A 32-bit register word (R78). -/
abbrev W32 := BitVec 32
/-- A 64-bit register or instruction word (R80, R89). -/
abbrev W64 := BitVec 64
/-- A vector register, 1,024 bits (R78). -/
abbrev VReg := BitVec 1024

/-- A sparse table: entries by number, keys strictly rising; a number with no entry stands for the default its reader names. -/
abbrev Tbl (α : Type) := List (Nat × α)

/-- The fifteen number formats (R150); code 0xF is reserved (R14). -/
inductive Fmt where
  | fp64 | fp32 | bf16 | fp16 | e5m2 | e4m3 | e3m2 | e2m3 | e2m1 | int8 | int4 | e8m0 | int32 | idx32 | acc320
  deriving DecidableEq, Repr

end Sys2Proof
end

