-- ==== Sys2Proof/Machine/Bits.lean ====
section
/-! DEFINITION. Helpers over lists, sparse tables, bytes and bit fields that every meaning shares. -/
namespace Sys2Proof

/-- The entry of a sparse table at a number, or the default. -/
def Tbl.lk {α : Type} (d : α) : Tbl α → Nat → α
  | [], _ => d
  | (k, v) :: t, n => if k = n then v else Tbl.lk d t n

/-- The entry of a sparse table at a number, if it has one. -/
def Tbl.lk? {α : Type} : Tbl α → Nat → Option α
  | [], _ => none
  | (k, v) :: t, n => if k = n then some v else Tbl.lk? t n

/-- Sets one entry, keeping the keys strictly rising. -/
def Tbl.up {α : Type} : Tbl α → Nat → α → Tbl α
  | [], n, v => [(n, v)]
  | (k, w) :: t, n, v =>
    if n < k then (n, v) :: (k, w) :: t
    else if n = k then (n, v) :: t
    else (k, w) :: Tbl.up t n v

/-- Removes one entry. -/
def Tbl.del {α : Type} : Tbl α → Nat → Tbl α
  | [], _ => []
  | (k, w) :: t, n => if k = n then t else (k, w) :: Tbl.del t n

/-- Applies a function to the entry at a number (to the default where there is none). -/
def Tbl.mod {α : Type} (d : α) (t : Tbl α) (n : Nat) (f : α → α) : Tbl α := Tbl.up t n (f (Tbl.lk d t n))

/-- Is a Sedge message TYPE one of the table of R367? -/
def listedType (t : Nat) : Bool := (decide (1 ≤ t) && decide (t ≤ 9)) || (decide (0x10 ≤ t) && decide (t ≤ 0x14))

/-- Bits hi down to lo of a number. -/
def bits (n hi lo : Nat) : Nat := (n >>> lo) % 2 ^ (hi + 1 - lo)

/-- Bit i of a number. -/
def bit (n i : Nat) : Bool := n.testBit i

/-- One as a number for true. -/
def b2n (b : Bool) : Nat := if b then 1 else 0

/-- The number of bits of a number: 0 for 0, otherwise one more than the floor of its binary logarithm. -/
def bitLen (n : Nat) : Nat := if n = 0 then 0 else Nat.log2 n + 1

/-- A little-endian number from bytes (R7). -/
def leNat : List Byte → Nat
  | [] => 0
  | b :: t => b.toNat + 256 * leNat t

/-- The n low bytes of a number, least significant first (R7). -/
def leBytes : Nat → Nat → List Byte
  | 0, _ => []
  | n + 1, x => BitVec.ofNat 8 x :: leBytes n (x / 256)

/-- A list of a given length with one value. -/
def rep {α : Type} (n : Nat) (a : α) : List α := List.replicate n a

/-- The numbers from lo, n of them. -/
def upto (lo n : Nat) : List Nat := (List.range n).map (lo + ·)

/-- Replaces element i of a list (nothing where the list is too short). -/
def setAt {α : Type} : List α → Nat → α → List α
  | [], _, _ => []
  | _ :: t, 0, v => v :: t
  | a :: t, n + 1, v => a :: setAt t n v

/-- Removes element i of a list. -/
def dropAt {α : Type} : List α → Nat → List α
  | [], _ => []
  | _ :: t, 0 => t
  | a :: t, n + 1 => a :: dropAt t n

/-- The largest of a list of numbers (0 for none). -/
def maxOf (l : List Nat) : Nat := l.foldl Nat.max 0

/-- The sum of a list of numbers. -/
def sumOf (l : List Nat) : Nat := l.foldl (· + ·) 0

/-- The smallest of a list of numbers, if it has one. -/
def minOf? : List Nat → Option Nat
  | [] => none
  | a :: t => some (t.foldl Nat.min a)

/-- The quotient rounded up. -/
def ceilDiv (a b : Nat) : Nat := if b = 0 then 0 else (a + b - 1) / b

/-- A count that saturates at the top of its width (R44, R163). -/
def satAdd (width a b : Nat) : Nat := Nat.min (a + b) (2 ^ width - 1)

/-- A list with one value added at its end where it is not yet in it. -/
def addOnce {α : Type} [DecidableEq α] (l : List α) (a : α) : List α := if a ∈ l then l else l ++ [a]

/-- A list without one value. -/
def without {α : Type} [DecidableEq α] (l : List α) (a : α) : List α := l.filter (fun x => x ≠ a)

/-- The square root of a number rounded down, one bit of the root at a time from bit n - 1. -/
def isqrtFrom : Nat → Nat → Nat → Nat
  | 0, _, r => r
  | k + 1, n, r => isqrtFrom k n (if (r + 2 ^ k) * (r + 2 ^ k) ≤ n then r + 2 ^ k else r)

/-- The square root of a number rounded down. -/
def isqrt (n : Nat) : Nat := isqrtFrom ((bitLen n + 1) / 2) n 0

/-- Replaces bits of a wide number from bit lo, w of them. -/
def putBits (x lo w v : Nat) : Nat := x - (bits x (lo + w - 1) lo) * 2 ^ lo + (v % 2 ^ w) * 2 ^ lo

end Sys2Proof
end

