-- ==== Sys2Proof/Machine/ImageTypes.lean ====
section
/-! DEFINITION. What a section image, a job manifest and a placement hold, as the commands that carry them name it. The
manual gives no byte layout for an image's tables or for a manifest's head (entry 30), so they are structured here. -/
namespace Sys2Proof.Machine

/-- One MRES of a nest and the MMACs of its run (R207): the fold item, the column tile n, the K-block the chain starts at and its length, the
first unit m of the run and the number of units, and CLEAR, set on the first chain of an output tile; and the accumulator tile of
each unit. -/
structure NestRun where
  item : Nat
  n : Nat
  k : Nat
  kblk : Nat
  m : Nat
  units : Nat
  clear : Bool
  tiles : List Nat := []
  deriving DecidableEq, Repr

/-- A MATOP record (R202). -/
structure Matop where
  opId : Nat
  reed : Nat
  flags : Nat
  dimM : Nat
  dimN : Nat
  dimK : Nat
  fold : Nat
  fmt : Nat
  vecC : Nat
  accHeld : Nat
  spadFixed : Nat
  pinRes : Nat
  pinOrder : Nat
  pinG : Nat
  pinKblk : Nat
  aHandle : Nat
  bHandle : Nat
  outHandle : Nat
  rsvd : Nat := 0
  templatePc : Nat
  deriving DecidableEq, Repr

/-- One entry of a tensor list (R64, R162, R220). -/
structure TensorDecl where
  id : Nat
  rows : Nat
  cols : Nat
  /-- The format code of R150. -/
  fmt : Nat
  numerics : W64 := 0
  placement : W64 := 0
  recomputable : Bool := false
  /-- A kept activation, of which INFLIGHT instances are live (R59). -/
  kept : Bool := false
  /-- The fen of its producer reeds, or of its consumers for a section input, by logical column (R220). -/
  column : Nat := 0
  deriving DecidableEq, Repr

/-- The role of a reed's program (R56, R57). -/
inductive Role where
  | forward | backward | update | through
  deriving DecidableEq, Repr

/-- A handle template (R56, R322): its 128 bits; where it names a tensor, KIND, TARGET and BASE come from the tensor's
placement, CUR or NEXT for a ping-pong tensor. -/
inductive PPRole where
  | none | cur | next
  deriving DecidableEq, Repr

/-- A handle template of a reed. -/
structure HandleTmpl where
  h : Nat
  bits : BitVec 128
  tensor : Option Nat := none
  role : PPRole := .none
  deriving DecidableEq, Repr

/-- A slot's declared tag at COMMIT phase D (R72): 0 EMPTY, 1 FULL. -/
structure TagDecl where
  slot : Nat
  full : Bool
  deriving DecidableEq, Repr

/-- Where an output queue's tokens go, in the logical grid (R117, R122), or to a queue of another device (R271). -/
inductive LogDest where
  | none
  | queue (tus : Nat) (reed : Nat) (q : Nat)
  | sluice (tus : Nat) (path : Nat) (input : Nat)
  | lode (dev : Nat) (reed : Nat) (q : Nat)
  deriving DecidableEq, Repr

/-- An output queue of a program: destination and packet length (R118). -/
structure OutDecl where
  q : Nat
  dest : LogDest
  len : Nat
  deriving DecidableEq, Repr

/-- A MATOP record from its 32 bytes, byte 0 least significant (R202). -/
def Matop.ofRecord (r : BitVec 256) : Matop :=
  let f := fun (byte n : Nat) => bits r.toNat (8 * byte + 8 * n - 1) (8 * byte)
  { opId := f 0 2, reed := f 2 1, flags := f 3 1, dimM := f 4 1, dimN := f 5 1, dimK := f 6 1, fold := f 7 1, fmt := f 8 1, vecC := f 9 1,
    accHeld := f 10 1, spadFixed := f 11 1, pinRes := f 12 1, pinOrder := f 13 1, pinG := f 14 1, pinKblk := f 15 1, aHandle := f 16 1,
    bHandle := f 17 1, outHandle := f 18 1, rsvd := f 19 1 + f 24 8, templatePc := f 20 4 }

/-- The program template of one reed: role, words (entry 31), contexts of threaded mode (R100), handle templates, monitor bindings (slot,
tensor), output queues, MATOP records, declared tags, scratchpad use in bytes, update-enable slots (slot, master tensor) of R168; and what the
control core completes in the words: the LOOP words whose bound is a shape parameter (index, parameter), the FIRE words whose COUNT is a multiple
of M (index, multiple), and, unless the template holds its FIRE and FIRET words complete, their SLACK, NOM_BASE and NOM_PERIOD (R57, R60, R64,
R213). -/
structure ReedProg where
  tus : Nat
  reed : Nat
  role : Role
  words : List W64
  threads : Nat := 0
  handles : List HandleTmpl := []
  monitors : List (Nat × Nat) := []
  outs : List OutDecl := []
  records : List (BitVec 256) := []
  tags : List TagDecl := []
  spadBytes : Nat := 0
  enables : List (Nat × Nat) := []
  bounds : List (Nat × Nat) := []
  counts : List (Nat × Nat) := []
  fixed : Bool := false
  deriving DecidableEq, Repr

/-- The MATOP records of a template. -/
def ReedProg.matops (g : ReedProg) : List Matop := g.records.map Matop.ofRecord

/-- The part of one logical tussock (R64, R65): pool handles, sluice settings, endpoints, declared pool tags, the pool slots of its fixed
buffers, the completed part's length in bytes, and the pool handles that name a tensor resolved to the pools (handle, tensor) of R59. -/
structure TusPart where
  handles : List (Nat × W64) := []
  /-- Sluice path entries of R122, by path. -/
  paths : List (Nat × W64) := []
  /-- Sluice endpoint entries of R122, whose TUSSOCK is a logical tussock. -/
  eps : List (Nat × W32) := []
  tags : List TagDecl := []
  slots : Nat := 0
  bytes : Nat := 0
  kept : List (Nat × Nat) := []
  deriving DecidableEq, Repr

/-- The producer of a queue path: a logical reed 24 × tussock + reed of the section, or across a lode, with its firings per step. -/
inductive Producer where
  | reed (lr : Nat)
  | lode (dev : Nat) (firings : Nat)
  deriving DecidableEq, Repr

/-- A queue path of the rate table (R60, R62, R63, R118, R123): its producer, its consumer as a logical reed 24 × tussock + reed, the consumer's
input queue, the tokens each firing produces and consumes, the packet length, and the sluice path (logical tussock, path) it passes. -/
structure RatePath where
  producer : Producer
  consumer : Nat
  queue : Nat := 0
  outTokens : Nat
  inTokens : Nat
  len : Nat := 1
  via : Option (Nat × Nat) := none
  deriving DecidableEq, Repr

/-- A sluice of the rate table (R62): control tokens and data packets per step. -/
structure RateSluice where
  tus : Nat
  path : Nat
  control : Nat
  packets : Nat
  deriving DecidableEq, Repr

/-- What the rate table declares of a reed's MSUMPs (R291): the group, the tensor, the tiles in order, each by the
TILE_SEQ of its first quadrant (entry 54), and the landing handle. -/
structure SumpDecl where
  reed : Nat
  group : Nat
  tensor : Nat
  tiles : List Nat
  landing : Nat
  deriving DecidableEq, Repr

/-- A window that a section lists (R284): opened at COMMIT, closed after the last drain. -/
structure WinDecl where
  win : Nat
  hbm : Bool
  place : Nat
  first : Nat
  slots : Nat
  box : List Nat
  deriving DecidableEq, Repr

/-- A peer descriptor that a section names (R284): unicast to a device's window, or a multicast group. -/
structure PeerDecl where
  idx : Nat
  multicast : Option Nat := none
  dev : Nat := 0
  win : Nat := 0
  deriving DecidableEq, Repr

/-- A section image (R64): its bytes, and what its tables hold. -/
structure Image where
  bytes : List Byte
  tensors : List TensorDecl := []
  progs : List ReedProg := []
  parts : List TusPart := []
  paths : List RatePath := []
  sluices : List RateSluice := []
  sumps : List SumpDecl := []
  windows : List WinDecl := []
  /-- Peer descriptors, and target boxes of multicast groups, which COMMIT sets (entry 43). -/
  peers : List PeerDecl := []
  mgroups : List (Nat × List Nat) := []
  deriving DecidableEq, Repr

/-- A tensor of a reduction group (R290). -/
structure GroupTensor where
  id : Nat
  rows : Nat
  cols : Nat
  efId : Nat := 0
  refId : Nat := 0
  /-- 1 FP32 or 2 BF16. -/
  fmt : Nat
  rsvd : Nat := 0
  deriving DecidableEq, Repr

/-- A reduction-group entry of the manifest (R290). -/
structure GroupDecl where
  group : Nat
  /-- Byte 1 whole: THIN in [1:0], [7:2] RSVD. -/
  thin : Nat
  contrib : Nat
  x0 : Nat
  x1 : Nat
  y0 : Nat
  y1 : Nat
  z0 : Nat
  z1 : Nat
  root : Nat
  slots : Nat
  densePeriod : Nat
  tensors : List GroupTensor
  rsvd : Nat := 0
  deriving DecidableEq, Repr

/-- A ping-pong entry (R321). -/
structure PingPong where
  logical : Nat
  copy0 : Nat
  copy1 : Nat
  rsvd : Nat := 0
  deriving DecidableEq, Repr

/-- A job manifest (R290, R321): its bytes, and what they hold. -/
structure Manifest where
  bytes : List Byte
  digests : List (BitVec 256)
  startStep : W64
  groups : List GroupDecl := []
  pairs : List PingPong := []
  deriving DecidableEq, Repr

/-- A sealed tile outside the package (R225): the bytes of its slot. -/
structure Sealed where
  bytes : List Byte
  deriving DecidableEq, Repr

end Sys2Proof.Machine
end

