-- ==== Sys2Proof/Machine/LinkTypes.lean ====
section
/-! DEFINITION. What travels on queues, on the rill and on the lodes: tokens, messages, packets, flits, control blocks. -/
namespace Sys2Proof.Machine

/-- A queue token (R117): its tag word and 64 bytes of data. -/
structure Token where
  tag : W32
  data : BitVec 512
  deriving DecidableEq, Repr

/-- A rill message (R252): destination, port, type, epoch, payload words; on the rill extension the destination device and
the FINGERPRINT of its trailing words (R279). -/
structure RillMsg where
  destT : Nat
  port : Nat
  type : Nat
  epoch : BitVec 3
  words : List W32
  srcT : Nat
  dev : Nat := 0
  fp : W64 := 0
  /-- The input of the rill router where it waits (R254) and the age stamp it took when it entered the rill (R257). -/
  inp : Nat := 0
  age : BitVec 14 := 0
  /-- It entered at a crossbar half, from a control core, the reeve or a lode, so that no tussock is its source. -/
  edge : Bool := false
  /-- The outputs of the router where it waits that have sent it on already, for a broadcast (R253). -/
  served : List Nat := []
  deriving DecidableEq, Repr

/-- A tile record with the values that follow it (R296): residue, contributions, the exact sum of squared norms with its
special flags (bit 0 +∞, bit 1 NaN), the values in order as ACC320 integers, the special map by position. -/
structure SumpPart where
  residue : Nat
  contribs : Nat
  sq : Int
  sqFlags : Nat
  vals : List Int
  special : Tbl Nat
  deriving DecidableEq, Repr

/-- A RESULT payload (R298): residue, contributions, the norms of a tensor's last tile, the FP32 values. -/
structure SumpRes where
  residue : Nat
  contribs : Nat
  norms : Option (W32 × W32)
  vals : List W32
  deriving DecidableEq, Repr

/-- The payload of a lode packet (R270). -/
inductive LPay where
  | none
  | toks (ts : List Token)
  | slots (bytes : List Byte)
  | part (p : SumpPart)
  | res (r : SumpRes)
  | rill (m : RillMsg)
  deriving DecidableEq, Repr

/-- A packet of a lode (R266, R269). -/
structure LPkt where
  src : Nat
  dst : Nat
  ptype : Nat
  vc : Nat
  spart : Nat := 0
  dpart : Nat := 0
  target : W32 := 0
  arg : W64 := 0
  fp : W64 := 0
  wepoch : W16 := 0
  epoch : BitVec 3 := 0
  cls : Bool := false
  /-- The age stamp it took in its egress queue (R257). -/
  age : BitVec 14 := 0
  flits : Nat := 1
  pay : LPay := .none
  deriving DecidableEq, Repr

/-- A flit (R266): its sequence number, the packet it is of with its number among the packet's flits (none in an idle flit), the
rill-extension message its RILL word is of with the word's number. good is false where its CRC or its FEC codeword failed (R272). -/
structure Flit where
  lseq : W16
  part : Option (LPkt × Nat) := none
  rill : Option (RillMsg × Nat) := none
  good : Bool := true
  deriving DecidableEq, Repr

/-- IDLE (R266). -/
def Flit.idle (f : Flit) : Bool := f.part.isNone
/-- POS (R266): 0 middle, 1 first, 2 last, 3 the only flit of its packet. -/
def Flit.pos (f : Flit) : Nat :=
  match f.part with
  | some (p, i) => (if i = 0 then 1 else 0) + (if i + 1 = p.flits then 2 else 0)
  | none => 0
/-- The packet that is whole with this flit, its last. -/
def Flit.pkt (f : Flit) : Option LPkt := f.part.bind (fun e => if e.2 + 1 = e.1.flits then some e.1 else none)
/-- Words of a message on the rill extension: its header, its payload, its two trailing words (R252, R279). -/
def RillMsg.extWords (m : RillMsg) : Nat := m.words.length + 3
/-- The rill-extension message that is whole with this flit's RILL word, its last. -/
def Flit.msg (f : Flit) : Option RillMsg := f.rill.bind (fun e => if e.2 + 1 = e.1.extWords then some e.1 else none)

/-- A control block (R267). -/
structure CtlBlock where
  frameSeq : Nat
  ackLseq : W16
  nak : Bool
  throttle : Bool
  locked : Bool
  /-- Credits returned, by VC. -/
  credits : Tbl Nat
  tbMark : W64
  tbSync : Nat
  srcDev : Nat
  deriving DecidableEq, Repr

/-- Who asks the reeve's dictionary (R375, R376): a host through its port, or a Sedge session. -/
inductive Caller where
  | host (q : Fin 2)
  | session (id : W32)
  deriving DecidableEq, Repr

/-- One operation of a DICT command (R378): a read, or a write with its EXPECT, LEN and value. -/
inductive DictOp where
  | read (idx sub : Nat)
  | write (idx sub : Nat) (expect : W32) (len value : Nat)
  deriving DecidableEq, Repr

/-- One write of a WRITE_SET (R378). -/
structure DictWrite where
  idx : Nat
  sub : Nat
  expect : W32
  len : Nat
  value : Nat
  deriving DecidableEq, Repr

/-- The dictionary's answer for one entry (R378, R379): STATUS, then INDEX, SUBINDEX, TYPE, CHANGE_COUNT, LEN and the value. -/
structure DictAns where
  status : Nat
  idx : Nat
  sub : Nat
  ty : Nat := 0
  count : W32 := 0
  len : Nat := 0
  value : Nat := 0
  deriving DecidableEq, Repr

end Sys2Proof.Machine
end

