-- ==== Sys2Proof/Syntax.lean ====
section
/-! DEFINITION. The commands of the block: every row of the opcode table is one constructor of Instr, with its operands. -/
namespace Sys2Proof.Machine

/-- A reed (R17) and the context that issues (R100); context 0 of a reed that is not threaded. -/
structure RR where
  reed : Fin 6144
  ctx : Fin 4 := 0
  deriving DecidableEq, Repr

/-- A source among S0 to S15 and ZERO (R79, R440). -/
inductive SSrc where
  | s (i : Fin 16)
  | zero
  deriving DecidableEq, Repr

/-- The comparison that FMT selects for SCMP (R90). -/
inductive SPred where
  | eq | ne | ltS | ltU
  deriving DecidableEq, Repr

/-- The sources of SMOV: S, A, C, VL and FIRING (R90). -/
inductive MovSrc where
  | s (i : Fin 16)
  | a (i : Fin 16)
  | c (i : Fin 8)
  | vl
  | firing
  deriving DecidableEq, Repr

/-- The destinations of SMOV: S, A and VL (R78: LOOP alone sets C, FIRING is read-only). -/
inductive MovDst where
  | s (i : Fin 16)
  | a (i : Fin 16)
  | vl
  deriving DecidableEq, Repr

/-- The source of AADD: an A register or ZERO, which both engines hold. -/
inductive AddSrc where
  | a (i : Fin 16)
  | zero
  deriving DecidableEq, Repr

/-- The engine that issues an instruction marked B in R90. -/
inductive Engine where
  | exec
  | fetch
  deriving DecidableEq, Repr

/-- The rounding mode of the RND field (R89). -/
inductive RndMode where
  | near | stoch | toZero
  deriving DecidableEq, Repr

/-- The format-A fields of a vector instruction (R89, R183): format, rounding, sub-index, monitor binding. -/
structure VOpt where
  fmt : Fmt
  rnd : RndMode := .near
  sr : BitVec 6 := 0
  mon : Option (Fin 8) := none
  deriving DecidableEq, Repr

/-- An address in a handle's buffer: HANDLE and AREG (R89). -/
structure HA where
  h : Fin 64
  a : Fin 16
  deriving DecidableEq, Repr

/-- The MODE of a descriptor (R89, R111). -/
inductive DMode where
  | contiguous
  | strided (areg : Fin 16)
  | transposed
  deriving DecidableEq, Repr

/-- The fields of a D-format descriptor (R89). -/
structure Desc where
  src : HA
  dst : HA
  slots : Nat
  mode : DMode
  deriving DecidableEq, Repr

/-- The predicate of VCMP (R186). -/
inductive VPred where
  | eq | ne | lt | le
  deriving DecidableEq, Repr

/-- The kind of a VRED (R187). -/
inductive RedKind where
  | sum | max | sumsq
  deriving DecidableEq, Repr

/-- The kind of a VSTAT (R188). -/
inductive StatKind where
  | init | accum | finish
  deriving DecidableEq, Repr

/-- One step of the soft maximum with its group (R198). -/
inductive SmaxOp where
  | init (dst : Fin 32) (g : Fin 8)
  | accum (dst src : Fin 32) (g : Fin 8)
  | finish (dst : Fin 16) (state : Fin 32) (g : Fin 8)
  | emit (dst src state : Fin 32) (g : Fin 8)
  deriving DecidableEq, Repr

/-- The destination of VTILE: a V register takes a piece, an S register the extents (R197). -/
inductive TileDst where
  | v (i : Fin 32)
  | s (i : Fin 16)
  deriving DecidableEq, Repr

/-- A place where packets of the dyke mesh arrive (R242, R243): a tussock, the controller of an HBM4 stack, a crossbar half. -/
inductive Node where
  | tus (t : Fin 256)
  | hbm (i : Fin 8)
  | half (h : Fin 2)
  deriving DecidableEq, Repr

/-- What a read of one tile outside the package brings (R237): the tile the board tier stores, a tile the host answers
with, or a failed or poisoned read. -/
inductive HostData where
  | stored
  | tile (t : Sealed)
  | failed
  /-- The read fails, its retry fails, and so does the read of the tile's mirror. -/
  | lost
  /-- The read fails, and its retry brings this. -/
  | late (d : HostData)
  deriving DecidableEq, Repr

/-- The buffer whose pointers or credits are checked (R121). -/
inductive PtrUnit where
  | inQueue (reed : Fin 6144) (q : Fin 8)
  | outCredit (reed : Fin 6144) (q : Fin 8)
  /-- Data input 0 to 15 of a sluice path, or 16, its control buffer. -/
  | sluice (t : Fin 256) (path : Fin 16) (input : Fin 17)
  /-- The credit count that a sluice path keeps for one of its destinations. -/
  | pathCredit (t : Fin 256) (path : Fin 16) (dest : Fin 16)
  deriving DecidableEq, Repr

/-- A word of a checked memory (R114): 64-byte words of a scratchpad or a pool, an accumulator word. -/
inductive EccLoc where
  | spad (reed : Fin 6144) (word : Nat)
  | pool (t : Fin 256) (word : Nat)
  | acc (reed : Fin 6144) (word : Nat)
  deriving DecidableEq, Repr

/-- What the reeve tests before a later load (R115, R236). -/
inductive RetestLoc where
  | word (l : EccLoc)
  | hbmRegion (stack : Fin 8) (region : Nat)
  deriving DecidableEq, Repr

/-- What a scrub read found (R116). -/
inductive ScrubFound where
  | clean | corrected | uncorrectable
  deriving DecidableEq, Repr

/-- The unit that consumed a tile whose CRC failed (R132, R133). -/
inductive TileUnit where
  | matrix (reed : Fin 6144)
  | mover (xfer : Nat) (host : List HostData)
  | sump (half : Fin 2) (k : Nat)
  deriving DecidableEq, Repr

/-- A buffer of held fill writes (R104). -/
inductive HoldUnit where
  | pool (t : Fin 256)
  | reed (r : Fin 6144)
  deriving DecidableEq, Repr

/-- The response to a page request (R233). -/
inductive PageAnswer where
  | success | invalid | failure
  deriving DecidableEq, Repr

/-- A router's output (R241, R242): the local port, the four links, the outward grips. -/
inductive Port5 where
  | loc | north | east | south | west | gripN | gripS
  deriving DecidableEq, Repr

/-- An arbiter (R254): of a dyke-mesh router's output, of a rill router's output, of a tussock's injection hierarchy on a plane
(level 1 by reed, level 2 at 24, level 3 at 28; R259), of a column's outward grip (R242), of a lode's VCs (R275), of a bank of a scratchpad or a pool (R110). -/
inductive ArbId where
  | mesh (plane : Fin 2) (t : Fin 256) (o : Port5)
  | rill (t : Fin 256) (o : Port5)
  | inject (plane : Fin 2) (t : Fin 256) (k : Fin 29)
  | grip (plane : Fin 2) (x : Fin 16) (south : Bool)
  | lode (n : Fin 24)
  | bankSpad (reed : Fin 6144) (b : Fin 8)
  | bankPool (t : Fin 256) (b : Fin 32)
  deriving DecidableEq, Repr

/-- A command of a host's ring (R397): port, ring, the 64 bytes of its entry, and whether its argument and result buffers could be read and
written (R394). -/
structure HCmd where
  port : Fin 2
  ring : Fin 16
  entry : List Byte
  dmaOk : Bool := true
  deriving DecidableEq, Repr

/-- How an addition's residue check ends at the sump's adder (R300): passed, passed on the second attempt, failed twice. -/
inductive AddCheck where
  | good | transient | bad
  deriving DecidableEq, Repr

/-- Whose hold timer expires (R287, R298): a multicast of a group by its sequence, or a sump tile's delivery. -/
inductive HoldKind where
  | mcast (part : Fin 8) (group : Fin 32) (seq : Nat)
  | sump (part : Fin 8) (group : Fin 16) (tile : Nat)
  deriving DecidableEq, Repr

/-- How the training of a lode ends (R264): whether its lanes locked, the rate its peer answers at, the peer's address, the
channel's delay in ps. -/
structure Trained where
  locked : Bool
  rate : Nat
  peer : W16
  delay : W32
  deriving DecidableEq, Repr

/-- What a lode peer's HELLO shows (R355): its bytes, whether its chain is valid (R348), GENERATION, LIFECYCLE, REEVE_SVN. -/
structure PeerHello where
  bytes : List Byte
  chainOk : Bool
  generation : Nat
  lifecycle : Nat
  svn : Nat
  deriving DecidableEq, Repr

/-- A write of HEARTBEAT or of HEARTBEAT_LIMIT (R395, R403). -/
inductive HbWrite where
  | beat (v : W32)
  | limit (v : W32)
  deriving DecidableEq, Repr

/-- How a lost host returns (R403). -/
inductive ReturnKind where
  | perst | flr | busMaster
  deriving DecidableEq, Repr

/-- What comes of a ring's reads and writes (R394): they succeed, or one fails twice. -/
inductive RingIo where
  | ok | readFailed | writeFailed
  deriving DecidableEq, Repr

/-- A write of INT_MASK, of INT_STATUS, or of PART_NOTIFY (R395). -/
inductive IntWrite where
  | mask (v : W32)
  | ack (v : W32)
  | notify (part : Fin 8) (ring : Fin 16)
  deriving DecidableEq, Repr

/-- What the boot finds in flash (R382, R414, R415, R422): the 64 bytes of the board configuration record, whether the persistent
copies and those of the out-of-service record are read without error, the places in the flash log of records whose chain fails. -/
structure FlashRead where
  record : List Byte
  aOk : Bool
  bOk : Bool
  oosAOk : Bool := true
  oosBOk : Bool := true
  badLog : List Nat
  deriving DecidableEq, Repr

/-- Why a fen counts as hung (R417): unanswered heartbeats, or a section that has not stopped within 100 µs. -/
inductive HungWhy where
  | heartbeat | notStopped
  deriving DecidableEq, Repr

/-- What the east boot engine reads after a watchdog (R416): the management island's error registers and program counter. -/
structure CrashRead where
  errors : List Byte
  pc : W32
  deriving DecidableEq, Repr

/-- A write to a tile aperture (R401): of its register, or of a 64-byte unit at an offset of its window. -/
inductive ApertureW where
  | reg (v : W64)
  | unit (off : W32) (bytes : List Byte)
  deriving DecidableEq, Repr

/-- Where a datagram on the segment is addressed (R364): to the device's link-local address, to ff02::1, to another IPv6 address, or by
IPv4. -/
inductive SDest where
  | device | allNodes | other | ipv4
  deriving DecidableEq, Repr

/-- A Sedge datagram as it arrives (R364, R365): the sender's address, the destination, the UDP source and destination ports; TYPE, FLAGS,
SESSION_ID, COUNTER, REQ_ID, FRAG_INDEX; the TAG of a session's datagram. The payload stands beside it. -/
structure SHdr where
  source : Nat
  dest : SDest := .device
  ports : W16 × W16 := (47110, 47110)
  type : Byte
  flags : Byte := 0
  session : W32
  counter : W64 := 0
  req : W32
  frag : W16 := 0
  tag : BitVec 128 := 0
  deriving DecidableEq, Repr

/-- MORE: further fragments follow (R365). -/
def SHdr.more (h : SHdr) : Bool := h.flags.getLsbD 1
/-- SYNC (R365, R383). -/
def SHdr.sync (h : SHdr) : Bool := h.flags.getLsbD 2

/-- Which end closes a session (R374). -/
inductive CloseBy where
  | client (h : SHdr)
  | device (id : W32)
  deriving DecidableEq, Repr

/-- A unit that may stop its own clock (R327). -/
inductive GateUnit where
  | reed (r : Fin 6144)
  | matrix (r : Fin 6144)
  | bank (t : Fin 256) (b : Fin 32)
  | path (t : Fin 256) (p : Fin 16)
  deriving DecidableEq, Repr

end Sys2Proof.Machine

namespace Sys2Proof
open Machine

/-- The commands, in the order of the opcode table; each doc names its rule. -/
inductive Instr where
  /-- NOP (R90): The execute engine issues an instruction that does nothing. -/
  | nop (r : RR)
  /-- LOOP (R90): Runs the next LEN instructions BOUND times with the named counter counting from 0, or skips them when BOUND is 0. -/
  | loop (r : RR) (e : Engine) (ctr : Fin 8) (bound : BitVec 24) (len : Nat)
  /-- DMARK (R95): A dependence mark that stops the fetch engine until the execute engine has issued the same mark and every earlier write is acknowledged. -/
  | dmark (r : RR) (e : Engine)
  /-- FENCE (R90): Issues and then waits until every write the reed has issued is acknowledged, counting WAIT_OUTPUT. -/
  | fence (r : RR)
  /-- END (R83): Ends the program; both engines stop here, and the fetch engine waits here for the next step's start. -/
  | end_ (r : RR) (e : Engine)
  /-- SETVL (R181): Sets VL to an immediate from 1 to 128, governing instructions from the next cycle on. -/
  | setvl (r : RR) (imm : Byte)
  /-- NOTE (R90): Sends a firing notice carrying a 16-bit immediate to the fen's control core on the rill. -/
  | note (r : RR) (imm : W16)
  /-- CSR (R82): Reads 32 bits of a reed register into an S register; a read of CORE_SAMPLE_STAT at 0x02C also clears DROPPED. -/
  | csr (r : RR) (dst : Fin 16) (off : BitVec 12)
  /-- CSW (R82): Writes an S register to CORE_SAMPLE_CTL, taking precedence over a control-core write in the same cycle. -/
  | csw (r : RR) (src : SSrc) (off : BitVec 12)
  /-- SADD (R440): Integer addition of two S sources into an S register. -/
  | sadd (r : RR) (dst : Fin 16) (a b : SSrc)
  /-- SSUB (R440): Integer subtraction of two S sources into an S register. -/
  | ssub (r : RR) (dst : Fin 16) (a b : SSrc)
  /-- SMUL (R440): Writes the low 32 bits of the product of two S sources. -/
  | smul (r : RR) (dst : Fin 16) (a b : SSrc)
  /-- SAND (R440): Bitwise AND of two S sources. -/
  | sand (r : RR) (dst : Fin 16) (a b : SSrc)
  /-- SOR (R440): Bitwise OR of two S sources. -/
  | sor (r : RR) (dst : Fin 16) (a b : SSrc)
  /-- SXOR (R440): Bitwise exclusive OR of two S sources. -/
  | sxor (r : RR) (dst : Fin 16) (a b : SSrc)
  /-- SSHL (R440): Shifts an S source left by SRC2[4:0]. -/
  | sshl (r : RR) (dst : Fin 16) (a b : SSrc)
  /-- SSHR (R440): Logical shift right of an S source by SRC2[4:0]. -/
  | sshr (r : RR) (dst : Fin 16) (a b : SSrc)
  /-- SLI (R440): Loads a 32-bit immediate into an S register. -/
  | sli (r : RR) (dst : Fin 16) (imm : W32)
  /-- SSEL (R440): Selects SRC1 if SRC3 is nonzero, else SRC2, into an S register. -/
  | ssel (r : RR) (dst : Fin 16) (a b c : SSrc)
  /-- SCMP (R440): Writes 1 or 0 from a comparison of two S sources chosen by FMT. -/
  | scmp (r : RR) (dst : Fin 16) (a b : SSrc) (p : SPred)
  /-- SMOV (R90): Moves a value among S, A, C, VL and FIRING registers; into an A register from S, C or VL it acts as a dependence mark. -/
  | smov (r : RR) (e : Engine) (dst : MovDst) (src : MovSrc)
  /-- AADD (R90): Adds an immediate to an A register on whichever engine holds it. -/
  | aadd (r : RR) (e : Engine) (dst : Fin 16) (src : AddSrc) (imm : W32)
  /-- AMAD (R90): Advances an A register by a loop counter times a stride held in an A register. -/
  | amad (r : RR) (e : Engine) (dst : Fin 16) (ctr : Fin 8) (stride : Fin 16)
  /-- QPOP (R97): Blocking pop of one token into half of a V register, returning its credit. -/
  | qpop (r : RR) (reg : Fin 32) (hi : Bool) (q : Fin 8)
  /-- QPOPNB (R98): Non-blocking pop that writes the token and 1 to FLAG, or leaves REG unchanged and writes 0. -/
  | qpopnb (r : RR) (reg : Fin 32) (hi : Bool) (q : Fin 8) (flag : Fin 16)
  /-- QPUSH (R118): Pushes half of a V register as one token, spending a credit and stamping LAST and SEQ. -/
  | qpush (r : RR) (reg : Fin 32) (hi : Bool) (q : Fin 8)
  /-- QDROP (R119): Discards the remaining tokens of the current packet on a queue, including tokens still to arrive. -/
  | qdrop (r : RR) (q : Fin 8)
  /-- QPOPM (R97): Blocking pop of one token into the scratchpad as a plain write. -/
  | qpopm (r : RR) (ha : HA) (q : Fin 8)
  /-- QPUSHM (R97): Pushes 64 bytes from the scratchpad as one token. -/
  | qpushm (r : RR) (ha : HA) (q : Fin 8)
  /-- TWAITF (R103): Waits until every named slot is FULL. -/
  | twaitf (r : RR) (ha : HA) (n : Nat)
  /-- TSETE (R103): Sets the named FULL slots EMPTY after earlier accesses to them complete. -/
  | tsete (r : RR) (ha : HA) (n : Nat)
  /-- TSETF (R103): Sets the named EMPTY slots FULL after earlier accesses to them complete. -/
  | tsetf (r : RR) (ha : HA) (n : Nat)
  /-- CTOK (R99): Sends an S register value as a control token with the next sequence number to the tussock's sluice. -/
  | ctok (r : RR) (src : Fin 16)
  /-- FDLD (R94): The fetch engine issues a descriptor loading slots from a source handle into the scratchpad. -/
  | fdld (r : RR) (d : Desc)
  /-- FDST (R88): Stores slots from the scratchpad to a destination handle, completing when acknowledged. -/
  | fdst (r : RR) (d : Desc)
  /-- FDMV (R88): Moves slots between two handles outside the scratchpad. -/
  | fdmv (r : RR) (d : Desc)
  /-- MRES (R139): Loads the resident operand into the next resident bank after verifying its tiles. -/
  | mres (r : RR) (ha : HA) (f : Fmt) (kblk : Nat)
  /-- MMAC (R140): Streams an operand against the resident operand into an accumulator tile, one rounding per K-block. -/
  | mmac (r : RR) (ha : HA) (acc : Fin 4) (fa fb : Fmt) (kblk : Nat) (clear trans : Bool)
  /-- MOUT (R147): Zeroes padding and hands a finished accumulator tile to the vector engine's queue of finished tiles. -/
  | mout (r : RR) (acc : Fin 4)
  /-- MSUMP (R147): Sends a finished accumulator tile to the sump as four quadrant contributions with residues and squared norms. -/
  | msump (r : RR) (ha : HA) (acc : Fin 4) (group : Fin 16)
  /-- MCLR (R140): Zeroes an accumulator tile and resets its K-block count. -/
  | mclr (r : RR) (acc : Fin 4)
  /-- MCFG (R143): Sets a tile's long-sum threshold and loads its output descriptor. -/
  | mcfg (r : RR) (ha : HA) (acc : Fin 4) (thresh : BitVec 24)
  /-- VADD (R185): Elementwise addition, rounded once. -/
  | vadd (r : RR) (o : VOpt) (dst a b : Fin 32)
  /-- VSUB (R185): Elementwise subtraction, rounded once. -/
  | vsub (r : RR) (o : VOpt) (dst a b : Fin 32)
  /-- VMUL (R185): Elementwise multiplication, rounded once. -/
  | vmul (r : RR) (o : VOpt) (dst a b : Fin 32)
  /-- VFMA (R185): Elementwise fused multiply-add, rounded once. -/
  | vfma (r : RR) (o : VOpt) (dst a b c : Fin 32)
  /-- VDIV (R185): Elementwise division, correctly rounded. -/
  | vdiv (r : RR) (o : VOpt) (dst a b : Fin 32)
  /-- VSQRT (R185): Elementwise square root, correctly rounded. -/
  | vsqrt (r : RR) (o : VOpt) (dst a : Fin 32)
  /-- VMAX (R185): Elementwise maximum. -/
  | vmax (r : RR) (o : VOpt) (dst a b : Fin 32)
  /-- VMIN (R185): Elementwise minimum. -/
  | vmin (r : RR) (o : VOpt) (dst a b : Fin 32)
  /-- VCVT (R194): Converts elements between wide formats under the conversion rules, counting in a bound monitor slot. -/
  | vcvt (r : RR) (o : VOpt) (dst a : Fin 32) (src : Fmt)
  /-- VCMP (R186): Elementwise compare writing a mask. -/
  | vcmp (r : RR) (o : VOpt) (dst a b : Fin 32) (p : VPred)
  /-- VSEL (R186): Selects lanes of two sources by a mask. -/
  | vsel (r : RR) (o : VOpt) (dst a b m : Fin 32)
  /-- VBCAST (R186): Broadcasts an S register into every lane. -/
  | vbcast (r : RR) (o : VOpt) (dst : Fin 32) (src : Fin 16)
  /-- VRED (R187): Reduces lanes to one FP32 sum, maximum or sum of squares in an S register. -/
  | vred (r : RR) (o : VOpt) (dst : Fin 16) (a : Fin 32) (kind : RedKind)
  /-- VSTAT (R188): Initialises, accumulates or finishes FP64 statistics in a register. -/
  | vstat (r : RR) (o : VOpt) (dst a : Fin 32) (kind : StatKind)
  /-- VRAND (R195): Fills lanes with Philox output words for purpose 0x03. -/
  | vrand (r : RR) (dst : Fin 32) (draw base tensor : Fin 16)
  /-- VEXP (R196): Correctly rounded exponential. -/
  | vexp (r : RR) (dst a : Fin 32)
  /-- VLOG (R196): Correctly rounded natural logarithm. -/
  | vlog (r : RR) (dst a : Fin 32)
  /-- VRSQRT (R196): Correctly rounded reciprocal square root. -/
  | vrsqrt (r : RR) (dst a : Fin 32)
  /-- VSIGM (R196): Correctly rounded logistic sigmoid. -/
  | vsigm (r : RR) (dst a : Fin 32)
  /-- VTANH (R196): Correctly rounded hyperbolic tangent. -/
  | vtanh (r : RR) (dst a : Fin 32)
  /-- VSMAX (R198): One INIT, ACCUM, FINISH or EMIT step of the soft maximum over a row group. -/
  | vsmax (r : RR) (op : SmaxOp)
  /-- VPERM (R190): Permutes lanes by an index vector. -/
  | vperm (r : RR) (o : VOpt) (dst a b : Fin 32)
  /-- VSHUF (R191): Interleaves two sources by a group pattern. -/
  | vshuf (r : RR) (o : VOpt) (dst a b : Fin 32) (p : Fin 16)
  /-- VPACK (R192): Converts four FP32 registers to a narrow format with block scales and packs them. -/
  | vpack (r : RR) (o : VOpt) (dst a : Fin 32) (sc : Fin 16)
  /-- VUNPK (R193): Unpacks narrow elements with their scales into four FP32 registers. -/
  | vunpk (r : RR) (o : VOpt) (dst a : Fin 32) (sc : Fin 16)
  /-- VLD (R182): Loads a whole V register from the scratchpad, optionally consuming slots. -/
  | vld (r : RR) (reg : Fin 32) (ha : HA) (off : W32) (consume : Bool)
  /-- VST (R182): Stores a whole V register to the scratchpad as a plain write. -/
  | vst (r : RR) (reg : Fin 32) (ha : HA) (off : W32)
  /-- VTILE (R197): Takes the next piece of the oldest finished tile, or its extents into an S register. -/
  | vtile (r : RR) (dst : TileDst)
  /-- FIRING_START (R87): The sequencer starts a firing once the section has started, no throttle holds it, every guard holds and the previous firing may be followed. -/
  | firingStart (reed : Fin 6144)
  /-- OPERATION_COMPLETE (R88): A store, matrix or vector operation completes, possibly ending a firing or block. -/
  | operationComplete (reed : Fin 6144) (op : Nat)
  /-- FILL_WRITE_ARRIVE (R103): A fill write of a slot reaches its memory and turns the slot FULL, or is held while the slot is not EMPTY. -/
  | fillWriteArrive (n : Node) (k : Nat)
  /-- HELD_FILL_RELEASE (R104): A held fill write proceeds once its slot turns EMPTY. -/
  | heldFillRelease (u : HoldUnit) (k : Nat)
  /-- READ_REQUEST_ARRIVE (R113): A descriptor source read reaches a pool or HBM4 controller and opens or joins a merge group. -/
  | readRequestArrive (n : Node) (k : Nat) (host : List HostData)
  /-- MERGE_GROUP_CLOSE (R113): A merge group's window closes and the group reads or waits for fill. -/
  | mergeGroupClose (n : Node) (g : Nat)
  /-- READ_RESPONSE_ARRIVE (R103): A read response slot lands and its destination tag turns FULL. -/
  | readResponseArrive (t : Fin 256) (k : Nat)
  /-- MERGED_READ_RESPONSE_ARRIVE (R113): A merged read response lands at each member named by its mask. -/
  | mergedReadResponseArrive (t : Fin 256) (k : Nat)
  /-- WRITE_ACK_ARRIVE (R88): A write acknowledgement reaches the issuing reed, possibly completing a store, FENCE or DMARK. -/
  | writeAckArrive (n : Node) (k : Nat)
  /-- QUEUE_TOKEN_ARRIVE (R118): A queue token from another tussock is written into its input queue under the epoch rule. -/
  | queueTokenArrive (n : Node) (k : Nat)
  /-- NULL_PACKET_ARRIVE (R125): A null packet takes PACKET_TOKENS entries with NULL set at the receiving queue. -/
  | nullPacketArrive (t : Fin 256) (k : Nat)
  /-- TRICKLE_BATCH_ARRIVE (R229): A trickle batch reaches its destination tussock and its transfers are applied in order. -/
  | trickleBatchArrive (t : Fin 256) (k : Nat)
  /-- TRICKLE_BATCH_CLOSE (R229): A trickle batch closes at 16 transfers or 32 mesh cycles and is sent as one packet. -/
  | trickleBatchClose (t dest : Fin 256)
  /-- QUEUE_POINTER (R121): A pointer or credit check fails, resetting the queue, logging the event and faulting the section. -/
  | queuePointer (u : PtrUnit) (wr wr2 rd rd2 : BitVec 6)
  /-- SLUICE_PAIR (R124): A sluice path pairs a control token with its data packets by sequence number and forwards or discards them. -/
  | sluicePair (t : Fin 256) (p : Fin 16)
  /-- ECC_RETRY_READ (R115): The second read after an uncorrectable scratchpad, pool or accumulator word completes, transient or faulting the section. -/
  | eccRetryRead (l : EccLoc) (ok : Bool)
  /-- MEMORY_RETEST (R115): Before a later load the reeve pattern-tests a failed word or region and may take its unit out of service. -/
  | memoryRetest (l : RetestLoc) (passed : Bool)
  /-- SCRUB_WORD (R116): In an idle bank cycle the scrubber reads the next word and writes it back if corrected. -/
  | scrubWord (l : EccLoc) (f : ScrubFound)
  /-- TILE_REREAD_DONE (R133): The re-read of a tile whose CRC failed completes, logged as transient or faulting with TILE_CRC. -/
  | tileRereadDone (u : TileUnit)
  /-- HBM_REREAD (R236): The repeated read of an uncorrectable HBM4 word completes, transient, poisoning or faulting. -/
  | hbmReread (i : Fin 8) (g idx : Nat) (ok : Bool)
  /-- TIER_READ_RETRY (R237): The retry of a failed board-tier or host read completes, transient, mirrored, poisoned or faulting. -/
  | tierReadRetry (xfer : Nat) (ds : List HostData)
  /-- ATS_TRANSLATION_COMPLETION (R233): A translation completion returns; a miss halts the stream and sends a page request. -/
  | atsTranslationCompletion (q : Fin 2) (xfer base size : Nat) (granted write : Bool) (host : List HostData)
  /-- PAGE_RESPONSE (R233): A page request response arrives and the stream resumes or the section faults with HOST_PAGE. -/
  | pageResponse (q : Fin 2) (group : Nat) (a : PageAnswer)
  /-- PAGE_REQUEST_LIMIT (R233): No page response arrives within the limit and the section faults with HOST_PAGE. -/
  | pageRequestLimit (q : Fin 2) (group : Nat)
  /-- ATS_INVALIDATION (R232): An invalidation request arrives from the host and waits for transfers using the range. -/
  | atsInvalidation (q : Fin 2) (tag base size : Nat)
  /-- ATS_INVALIDATION_COMPLETE (R232): Once transfers on the range have completed or halted, the port sends the invalidation completion. -/
  | atsInvalidationComplete (q : Fin 2) (tag : Nat)
  /-- STREAM_SLOT_SEND (R227): A privileged channel's next slot is sent once its token bucket holds 256 bytes. -/
  | streamSlotSend (part : Fin 8) (chan unit : Fin 4) (d : HostData)
  /-- RESUPPLY_LIMIT (R239): A resupply entry's limit expires and the section faults with RESUPPLY_LIMIT. -/
  | resupplyLimit (part : Fin 8) (idx : Nat)
  /-- PLACEMENT_ZEROING_COMPLETE (R357): Background zeroing of a released HBM4 placement ends and the range becomes free. -/
  | placementZeroingComplete (i : Fin 8)
  /-- MESH_PACKET_ROUTE (R245): A router forwards a packet by its plane's dimension order under credits. -/
  | meshPacketRoute (plane : Fin 2) (t : Fin 256) (o : Port5)
  /-- FLIT_REPLAY (R244): A flit replayed after an uncorrectable link error arrives, counted as transient or taking the link out of service. -/
  | flitReplay (plane : Fin 2) (t : Fin 256) (o : Port5) (ok : Bool)
  /-- STAMP_ADVANCE (R257): An age stamp falling 4,096 units behind the time base is advanced and counted. -/
  | stampAdvance (a : ArbId) (i : Fin 76)
  /-- ARB_BACKOFF_END (R255): A requester's back-off count reaches zero and it becomes eligible for rank grants. -/
  | arbBackoffEnd (a : ArbId) (i : Fin 20)
  /-- RILL_ROUTE (R252): A rill router forwards a whole message column-first. -/
  | rillRoute (t : Fin 256) (o : Port5)
  /-- FAULT_NOTICE (R75): A fault notice arrives and the receiving member faults its section with PEER_SECTION_FAULT. -/
  | faultNotice (n : Fin 24) (k : Nat)
  /-- START_TOKEN (R87): The start token takes effect: registers reset and cycle 0 of the step begins. -/
  | startToken (part : Fin 8)
  /-- RILL_SNAPSHOT (R52): A snapshot broadcast latches, and optionally clears, every reed's counters in scope. -/
  | rillSnapshot
  /-- BROADCAST_APPLY (R253): Each tussock acts on a received broadcast in its first reed cycle at or after APPLY. -/
  | broadcastApply (t : Fin 256)
  /-- ARMED_NOTICE (R67): The mire master receives a member's armed notice and compares its values. -/
  | armedNotice (src : Option (Fin 24)) (k : Nat)
  /-- MIRE_VERDICT (R67): A member receives the master's verdict and posts its load completion, ACCEPTED or MIRE_MISMATCH. -/
  | mireVerdict (src : Option (Fin 24)) (k : Nat)
  /-- ARM_VERDICT_TIMEOUT (R67): One mire tick after the first armed notice the master broadcasts its verdict. -/
  | armVerdictTimeout
  /-- DRAIN_REPORT (R74): A drain or commit report reaches the mire master, which chooses the start tick once all have reported. -/
  | drainReport (src : Option (Fin 24)) (k : Nat)
  /-- MIRE_START_MESSAGE (R282): A member receives the start message with the chosen tick and common operating point. -/
  | mireStartMessage (src : Option (Fin 24)) (k : Nat)
  /-- OP_POINT_SETTLED (R331): The regulators report the higher voltage in regulation and the clocks are raised. -/
  | opPointSettled
  /-- MIRE_TICK (R282): A mire tick falls and members start the next step or section on the chosen tick. -/
  | mireTick
  /-- SECTION_LOAD_COMMAND (R23): A control core receives a section-load command over the rill and begins its share of PREPARE. -/
  | sectionLoadCommand (f : Fin 2) (k : Nat)
  /-- RILL_CONTROL_TOKEN (R279): A control token arrives over the rill extension. -/
  | rillControlToken (n : Fin 24) (k : Nat)
  /-- FIRING_NOTICE (R90): A control core receives a firing notice. -/
  | firingNotice (f : Fin 2) (k : Nat)
  /-- MONITOR_RECORD (R164): A control core receives a reed's monitor slots and merges them per tensor. -/
  | monitorRecord (r : Fin 6144)
  /-- LOAD (R66): Host command that starts staging a section image into the next-section areas of a partition. -/
  | load (c : HCmd) (img : Image) (seed : W64)
  /-- VERIFY (R351): After staging, the image's CRC, decryption, signature and signer are checked. -/
  | verify (part : Fin 8)
  /-- PREPARE (R200): The control cores place the grid, resolve hints, run the tile chooser, check refusals and complete programs. -/
  | prepare (part : Fin 8) (us : Nat)
  /-- COMMIT (R72): Once the running section has drained, the reeds are reconfigured from the next-section areas in phases A to E. -/
  | commit (part : Fin 8)
  /-- SECTION_DRAINED (R69): Every reed, queue, write and lode buffer of the section is empty, and the step's completion follows. -/
  | sectionDrained (part : Fin 8)
  /-- DRAIN_LIMIT (R70): The drain limit expires before the section has drained and the section faults. -/
  | drainLimit (part : Fin 8)
  /-- PROGRESS_LIMIT (R408): A running section makes no progress for PROGRESS_LIMIT and faults. -/
  | progressLimit (part : Fin 8)
  /-- SUMP_CONTRIBUTION (R294): A quadrant contribution reaches a crossbar half and is checked and added in ACC320. -/
  | sumpContribution (h : Fin 2) (k : Nat) (chk : AddCheck)
  /-- SUMP_EF_REF_READ (R303): A tile's error-feedback and reference tiles arrive from HBM4. -/
  | sumpEfRefRead (part : Fin 8) (group : Fin 16) (q : Nat)
  /-- SUMP_PARTIAL (R296): A PARTIAL packet from a child arrives, is checked and is added. -/
  | sumpPartial (n : Fin 24) (k : Nat) (chk : AddCheck)
  /-- SUMP_RESULT (R298): A RESULT arrives at a member, is staged, checked and answered with MC_LANDED. -/
  | sumpResult (n : Fin 24) (k : Nat)
  /-- RESEND_PARTIAL (R300): A child receives a request to resend a partial that failed its residue check. -/
  | resendPartial (n : Fin 24) (k : Nat)
  /-- RESEND_RESULT (R300): A parent receives a request to resend a result that failed its residue check. -/
  | resendResult (n : Fin 24) (k : Nat)
  /-- SUMP_LIMIT (R307): A sump slot held longer than SUMP_LIMIT fails the collective. -/
  | sumpLimit (part : Fin 8) (group : Fin 16) (q : Nat)
  /-- MC_RESERVE (R287): A multicast reservation arrives at a target or branch and is forwarded down. -/
  | mcReserve (n : Fin 24) (k : Nat)
  /-- MC_TARGET_RESERVE (R287): A target reserves its window slots once all are EMPTY and sends MC_GRANT up. -/
  | mcTargetReserve (part : Fin 8) (group : Fin 32) (root : W16) (seq : Nat)
  /-- MC_GRANT (R287): A grant arrives at a branch or the root; the root then sends the data. -/
  | mcGrant (n : Fin 24) (k : Nat)
  /-- MC_DATA (R287): Multicast data lands in reserved slots whose tags stay EMPTY. -/
  | mcData (n : Fin 24) (k : Nat)
  /-- MC_LANDED (R287): A landed report arrives; merged at branches, at the root it triggers MC_COMMIT. -/
  | mcLanded (n : Fin 24) (k : Nat)
  /-- MC_COMMIT (R287): A target sets every reserved slot FULL, or a sump member moves the result out and advances its window. -/
  | mcCommit (n : Fin 24) (k : Nat)
  /-- MC_ABORT (R307): An abort arrives; targets discard staged data and members fault with the carried cause. -/
  | mcAbort (n : Fin 24) (k : Nat)
  /-- HOLD_LIMIT (R287): A multicast's hold timer expires before commit and MC_ABORT is sent. -/
  | holdLimit (h : HoldKind)
  /-- WIN_PUT (R285): A window put arrives and is accepted with WIN_ACK or dropped with WIN_CLOSED. -/
  | winPut (n : Fin 24) (k : Nat)
  /-- WIN_ACK (R285): A put acknowledgement reaches the sender. -/
  | winAck (n : Fin 24) (k : Nat)
  /-- WIN_CLOSED (R286): A WIN_CLOSED reply halts the sender's stream at the put concerned. -/
  | winClosed (n : Fin 24) (k : Nat)
  /-- WIN_OPEN (R286): A window-open message updates the peer descriptor and resumes halted streams. -/
  | winOpen (n : Fin 24) (k : Nat)
  /-- WIN_CLOSE (R285): A window-close message closes a window after accepted puts are written. -/
  | winClose (n : Fin 24) (k : Nat)
  /-- WINDOW_LIMIT (R286): No WIN_OPEN arrives within WINDOW_LIMIT and the section faults. -/
  | windowLimit (xfer : Nat)
  /-- TOKEN (R271): A TOKEN packet arrives over a lode and is checked and delivered to its queue. -/
  | token (n : Fin 24) (k : Nat)
  /-- BULK_PUT (R270): A bulk put arrives and writes its slot or tile. -/
  | bulkPut (n : Fin 24) (k : Nat)
  /-- CTRL (R279): A rill message carried between mires arrives on VC0. -/
  | ctrl (n : Fin 24) (k : Nat)
  /-- THROTTLE (R283): A peer's THROTTLE packet updates the set of throttled peers. -/
  | throttle (n : Fin 24) (k : Nat)
  /-- LODE_FRAME_RECEIVE (R268): A lode frame completes; its tag is verified and its flits are released or NAKed. -/
  | lodeFrameReceive (n : Fin 24) (flits : List Flit) (tagOk : Bool) (corrected : List Nat) (uncorrectable : Nat)
  /-- LODE_CONTROL_BLOCK (R267): A control block arrives, returning credits, acknowledgements, NAKs, throttle and time-base marks. -/
  | lodeControlBlock (n : Fin 24) (cb : CtlBlock)
  /-- LANE_LOCK_LOSS (R273): A lane loses lock and its lode goes out of service. -/
  | laneLockLoss (n : Fin 24) (lane : Fin 4)
  /-- LODE_FEC_RATE_CHECK (R273): Each second a lane whose corrected symbols rose by more than 2^20 takes its lode out of service. -/
  | lodeFecRateCheck (n : Fin 24)
  /-- LODE_TRAINING (R264): Lane training of a lode ends and the neighbour address is checked. -/
  | lodeTraining (n : Fin 24) (r : Trained)
  /-- LODE_HELLO (R355): A lode peer's HELLO with its certificate chain arrives. -/
  | lodeHello (n : Fin 24) (m : PeerHello)
  /-- LODE_KEM_KEY (R355): The responder receives the initiator's signed ephemeral encapsulation key. -/
  | lodeKemKey (n : Fin 24) (msg : List Byte) (sigOk : Bool)
  /-- LODE_KEM_CIPHERTEXT (R355): The initiator receives the responder's signed ciphertext. -/
  | lodeKemCiphertext (n : Fin 24) (msg : List Byte) (sigOk : Bool)
  /-- LODE_DONE (R355): A DONE tag arrives, the keys are confirmed and the lode becomes UP or switches key. -/
  | lodeDone (n : Fin 24) (tag : BitVec 128) (switchSeq : Nat)
  /-- LODE_HANDSHAKE_RETRY (R355): 1 ms after a failed handshake it is retried, and a second failure logs LODE_AUTH. -/
  | lodeHandshakeRetry (n : Fin 24)
  /-- LODE_REKEY (R356): FRAME_SEQ reaches 2^46 and the initiator runs the key exchange again. -/
  | lodeRekey (n : Fin 24)
  /-- SYNC_IN_EDGE (R280): An accepted SYNC_IN edge aligns, acquires or slews the member's time base. -/
  | syncInEdge
  /-- SYNC_OUT_PULSE (R280): At each multiple of 2^SYNC_LOG2 the device drives SYNC_OUT high for 8 µs. -/
  | syncOutPulse
  /-- SYNC_LOST (R281): Eight expected edges without an accepted edge drop the member's lock. -/
  | syncLost
  /-- POWER_ESTIMATE (R332): Every 1 µs the activity estimate is formed and over-current is checked. -/
  | powerEstimate (mw amps : Nat)
  /-- POWER_WINDOW (R332): Every 100 µs power is measured, compared, enforced, calibrated and charged to partitions. -/
  | powerWindow (islands fixed : List Nat)
  /-- PMBUS_READ (R333): A regulator read completes or fails; failing twice raises PMBUS_FAULT. -/
  | pmbusRead (reg : Fin 16) (w : Option Nat)
  /-- PMB_ALERT_N (R336): The regulator alert is asserted with an over-current warning and the throttle engages. -/
  | pmbAlertN (warning : Bool)
  /-- DIPWELL_SAMPLE (R336): Every 10 µs the dipwells are sampled for over-temperature. -/
  | dipwellSample (hot : BitVec 16)
  /-- EMERGENCY_CLEAR (R336): A cause stays below its clearing level for 1 ms and clears. -/
  | emergencyClear (temp : Bool)
  /-- STAGE2_THROTTLE (R337): OVER_TEMP persists 1 ms after reaching P7 and firing starts are held half of every 10 µs. -/
  | stage2Throttle
  /-- BRAKE_N_ASSERT (R338): BRAKE_N is accepted as asserted and the device throttles to P7. -/
  | brakeNAssert
  /-- BRAKE_N_DEASSERT (R338): BRAKE_N is accepted as deasserted after 2 µs of stable high level. -/
  | brakeNDeassert
  /-- BRAKE_HELD (R338): BRAKE_N stays asserted for 1 s and the event is raised once. -/
  | brakeHeld
  /-- THERMAL_TRIP (R339): A dipwell reads 115 °C and the comparator asserts THERMTRIP_N and stops every clock. -/
  | thermalTrip
  /-- DROOP_DETECTED (R334): A droop detector sees the supply below threshold and stretches its island's clock. -/
  | droopDetected (t : Fin 256)
  /-- VOLTAGE_TRIM (R335): Replica-path margin falls below threshold and every point's voltage rises by 5 mV. -/
  | voltageTrim (margin : Nat)
  /-- CLOCK_GATE (R327): A unit with no operation for 4 cycles stops its own clock until a token or tag change arrives. -/
  | clockGate (u : GateUnit)
  /-- REEVE_WATCHDOG (R416): The reeve watchdog expires; sections fault, the crash record is gathered and the device resets. -/
  | reeveWatchdog (c : CrashRead)
  /-- MGMT_UNCORRECTABLE (R416): An uncorrectable error in management-island memory takes the watchdog's course. -/
  | mgmtUncorrectable (c : CrashRead)
  /-- CC_HEARTBEAT (R417): Every 1 ms the reeve sends a heartbeat to each control core. -/
  | ccHeartbeat
  /-- FEN_HUNG (R417): A control core misses two heartbeats or a section fails to stop, and affected sections fault. -/
  | fenHung (f : Fin 2) (why : HungWhy)
  /-- FEN_RECOVERY_START (R418): The fen's islands are held and reset, epochs advance and self-test begins. -/
  | fenRecoveryStart (f : Fin 2) (ok : Bool)
  /-- FEN_SELF_TEST_COMPLETE (R418): The fen's self-test ends and its control core is reloaded, or the step is retried. -/
  | fenSelfTestComplete (f : Fin 2) (ok : Bool) (failed : List Nat)
  /-- FEN_RECOVERED (R418): The reloaded control core reports ready and the fen returns to READY. -/
  | fenRecovered (f : Fin 2) (ok : Bool)
  /-- RNG_RESEED (R342): After 2^20 requests the security generator reseeds from the entropy source. -/
  | rngReseed
  /-- RAIL_APPLY (R428): Rails rise in order under RESET_N asserted. -/
  | railApply (step : Fin 4)
  /-- RAIL_OUT_OF_REGULATION (R412): A rail leaves regulation and the board must assert RESET_N. -/
  | railOutOfRegulation (step : Fin 4)
  /-- RESET_N_ASSERT (R412): RESET_N is accepted as asserted and every clock of the device stops. -/
  | resetNAssert
  /-- RESET_N_RELEASE (R413): RESET_N is released and phase A locks PLLs, samples straps and reads fuses. -/
  | resetNRelease (nodeId : Byte) (straps : Fin 8)
  /-- BOOT_REEVE_START (R345): The boot ROM verifies and starts a reeve slot, entering RECOVERY if none is valid. -/
  | bootReeveStart (f : FlashRead)
  /-- CC_FIRMWARE_LOADED (R345): Boot stage 4 verifies and loads CC0 and CC1. -/
  | ccFirmwareLoaded
  /-- SELF_TEST_COMPLETE (R413): Phase F self-test of memories and mesh links ends, taking failed units out of service. -/
  | selfTestComplete (failed : List Nat)
  /-- MEMORY_TRAINING_COMPLETE (R413): Phase G HBM4 and LPDDR5X training and test ends. -/
  | memoryTrainingComplete (failed : List Nat) (boardOk : Bool)
  /-- DEVICE_READY (R413): The east fen reports ready, the causeway is disabled and DEVICE_READY is set. -/
  | deviceReady (us : W32)
  /-- SYSCLK_LOSS (R430): Loss of the system reference stops the device. -/
  | sysclkLoss
  /-- LREF_LOSS (R430): Loss of a lode reference drops lock on every lane of its group. -/
  | lrefLoss (g : Fin 6)
  /-- PREF_LOSS (R430): Loss of a port reference makes that port's host lost. -/
  | prefLoss (q : Fin 2)
  /-- PCIE_LINK_UP (R392): A host port trains its link, setting LINK_DEGRADED if narrower or slower. -/
  | pcieLinkUp (q : Fin 2) (rate : Fin 7) (width : Fin 17) (flit : Bool)
  /-- PERST_N_ASSERT (R403): PERST_N of a port is asserted and its host is lost. -/
  | perstNAssert (q : Fin 2)
  /-- LINK_DOWN_TIMEOUT (R403): A port's link stays down for 100 ms and its host is lost. -/
  | linkDownTimeout (q : Fin 2)
  /-- FUNCTION_LEVEL_RESET (R403): A Function Level Reset makes the port's host lost. -/
  | functionLevelReset (q : Fin 2)
  /-- BUS_MASTER_DISABLE (R403): Bus Master Enable is cleared or D3hot entered and the host is lost. -/
  | busMasterDisable (q : Fin 2)
  /-- HEARTBEAT (R403): A write to HEARTBEAT counts as a heartbeat. -/
  | heartbeat (q : Fin 2) (w : HbWrite)
  /-- HEARTBEAT_TIMEOUT (R403): No heartbeat comes within HEARTBEAT_LIMIT and the host is lost. -/
  | heartbeatTimeout (q : Fin 2)
  /-- RING_ENABLE (R395): Setting ENABLE resets a ring's indices and phase and starts it. -/
  | ringEnable (q : Fin 2) (r : Fin 16) (ctl : W32) (cmdBase cplBase : W64)
  /-- RING_DISABLE (R395): Clearing ENABLE discards unstarted commands and drains started ones. -/
  | ringDisable (q : Fin 2) (r : Fin 16)
  /-- CMD_TAIL (R396): A command doorbell write makes new commands available, or halts the ring if out of range. -/
  | cmdTail (q : Fin 2) (r : Fin 16) (v : W32) (io : RingIo)
  /-- CPL_HEAD (R396): A completion doorbell write returns slots, letting held completions and notices be posted. -/
  | cplHead (q : Fin 2) (r : Fin 16) (v : W32)
  /-- COALESCE_TIMEOUT (R400): COALESCE_US after the first unsignalled entry the ring's MSI-X vector fires. -/
  | coalesceTimeout (q : Fin 2) (r : Fin 16)
  /-- APERTURE_READ (R401): A BAR4 read serves a sealed copy of the named tile from the window's read buffer. -/
  | apertureRead (q : Fin 2) (w : Fin 4) (off : W32) (d : HostData)
  /-- APERTURE_WRITE (R401): A BAR4 write gathers into the window's tile buffer, opening and placing the tile when complete. -/
  | apertureWrite (q : Fin 2) (w : Fin 4) (x : ApertureW)
  /-- RCV_WRITE_SLOT (R405): RCV_CMD 1 reads, programs and checks a firmware slot image. -/
  | rcvWriteSlot (q : Fin 2) (addr : W64) (bytes : W32) (slot : Byte) (img : Option (List Byte))
  /-- RCV_RESET (R405): RCV_CMD 2 performs a device reset. -/
  | rcvReset (q : Fin 2)
  /-- UNLOAD_DISCARD_STAGED (R397): Host command UNLOAD with bit 0 discards the staged load with ABORTED. -/
  | unloadDiscardStaged (c : HCmd)
  /-- UNLOAD_STOP_REARM (R397): Host command UNLOAD with bit 1 stops further re-arms after the current step. -/
  | unloadStopRearm (c : HCmd)
  /-- MANIFEST (R290): Host command that registers a partition's job manifest. -/
  | manifest (c : HCmd) (m : Manifest)
  /-- PLACE (R222): Host command that creates a placement for a tensor. -/
  | place (c : HCmd)
  /-- RELEASE (R222): Host command that removes a placement. -/
  | release (c : HCmd)
  /-- HOST_REGION_REGISTER (R231): HOST_REGION command that registers a host region for a partition. -/
  | hostRegionRegister (c : HCmd)
  /-- HOST_REGION_UNREGISTER (R231): HOST_REGION command that unregisters a host region. -/
  | hostRegionUnregister (c : HCmd)
  /-- WINDOW_OPEN (R284): WINDOW command that opens a window, advancing its epoch and sending WIN_OPEN. -/
  | windowOpen (c : HCmd)
  /-- WINDOW_CLOSE (R285): WINDOW command that closes a window. -/
  | windowClose (c : HCmd)
  /-- RESUPPLY (R404): Host command naming a sealed copy of a poisoned tile, which is written and its streams resumed. -/
  | resupply (c : HCmd) (d : HostData)
  /-- TILE_COPY_TO_HOST (R397): TILE_COPY command moving tiles of a tensor to host memory, sealed. -/
  | tileCopyToHost (c : HCmd) (ds : List HostData)
  /-- TILE_COPY_FROM_HOST (R397): TILE_COPY command moving sealed tiles from host memory into a tensor. -/
  | tileCopyFromHost (c : HCmd) (ds : List HostData)
  /-- KEY_INSTALL_SEAL (R353): KEY_INSTALL into SEAL moves the SEAL key to OPEN and installs the job key. -/
  | keyInstallSeal (c : HCmd) (blob : List Byte)
  /-- KEY_INSTALL_OPEN (R353): KEY_INSTALL into OPEN installs an open-only job key. -/
  | keyInstallOpen (c : HCmd) (blob : List Byte)
  /-- ATTEST (R349): Host command that latches and signs an attestation report. -/
  | attest (c : HCmd)
  /-- DICT (R379): Host command carrying dictionary operations applied one at a time. -/
  | dict (c : HCmd) (ops : List DictOp)
  /-- DICT_WRITE_SET (R379): DICT command with WRITE_SET, applied all or nothing in one reeve step. -/
  | dictWriteSet (c : HCmd) (ws : List DictWrite)
  /-- LOG_READ (R389): Host command returning error log entries. -/
  | logRead (c : HCmd)
  /-- SNAPSHOT (R390): Host command that issues a counter snapshot. -/
  | snapshot (c : HCmd)
  /-- SNAPSHOT_AND_CLEAR (R52): Host SNAPSHOT with CLEAR set, latching and clearing the counters. -/
  | snapshotAndClear (c : HCmd)
  /-- PROBE_REED_REGISTER (R82): PROBE kind 0 reads a reed register whole, clearing DROPPED when it reads CORE_SAMPLE_STAT. -/
  | probeReedRegister (c : HCmd)
  /-- PROBE_QUEUE_HEAD (R120): PROBE kind 1 peeks a queue's head token without popping it. -/
  | probeQueueHead (c : HCmd)
  /-- PROBE_STREAM_CONTEXT (R234): PROBE kind 2 reads a stream context. -/
  | probeStreamContext (c : HCmd)
  /-- CORE_SAMPLE (R82): Host command whose value the control core writes into a reed's CORE_SAMPLE_CTL. -/
  | coreSample (c : HCmd)
  /-- CHOICE_REPORT (R215): Host command returning the tile chooser's choice records. -/
  | choiceReport (c : HCmd)
  /-- NUMERICS_READ (R173): Host command returning numerics records. -/
  | numericsRead (c : HCmd)
  /-- NUMERICS_RESTORE (R174): Host command restoring numerics records. -/
  | numericsRestore (c : HCmd) (buf : List Byte)
  /-- DICT_WRITE (R379): A write to a dictionary entry with no row of its own, checked and applied. -/
  | dictWrite (c : Caller) (i sub : Nat) (expect : W32) (len value : Nat)
  /-- CAP_REQUEST (R328): A write replacing the pending cap request. -/
  | capRequest (c : Caller) (expect : W32) (value : W64)
  /-- SNAPSHOT_CMD (R390): A write to SNAPSHOT_CMD issues a snapshot and sums the totals. -/
  | snapshotCmd (c : Caller) (expect value : W32)
  /-- SNAPSHOT_CMD_CLEAR (R390): A write to SNAPSHOT_CMD with CLEAR set latches and clears the counters. -/
  | snapshotCmdClear (c : Caller) (expect value : W32)
  /-- SVN_COMMIT (R346): A write that raises a class's fuse counter and may revoke key 0. -/
  | svnCommit (c : Caller) (expect : W32) (value : Byte)
  /-- DEVICE_RESET (R424): A write of 0x5A resets the device. -/
  | deviceReset (c : Caller) (expect : W32) (value : Byte)
  /-- FEN_RECOVER (R419): A write that faults a fen's affected sections and starts its recovery. -/
  | fenRecover (c : Caller) (expect : W32) (value : Byte)
  /-- RETEST_REQUEST (R415): A write naming an out-of-service unit to test at the next device reset. -/
  | retestRequest (c : Caller) (expect value : W32)
  /-- PART_RECT (R388): A write defining or moving a partition's rectangle, clearing tussocks that change partition. -/
  | partRect (c : Caller) (p : Fin 8) (expect value : W32)
  /-- PARTITION_DELETE (R388): A PART_RECT write with W = 0 deletes the partition. -/
  | partitionDelete (c : Caller) (p : Fin 8) (expect : W32)
  /-- OWNER_HOST (R402): A write that gives a partition to another host, unregistering regions and notifying both ports. -/
  | ownerHost (c : Caller) (p : Fin 8) (expect : W32) (value : Byte)
  /-- PRINCIPAL (R369): A write enrolling, changing or emptying a principal, closing its sessions. -/
  | principal (c : Caller) (n : Fin 16) (expect : W32) (value : BitVec 320)
  /-- TEST_CHALLENGE (R391): A read returning a fresh random challenge for vendor test. -/
  | testChallenge (c : Caller)
  /-- TEST_UNLOCK (R358): A signed write that enters VENDOR_TEST, faulting sections and erasing keys. -/
  | testUnlock (c : Caller) (expect : W32) (sig : BitVec 10240)
  /-- TEST_CHALLENGE_EXPIRE (R391): A test challenge expires 10 s after it was read. -/
  | testChallengeExpire
  /-- PERSIST_STORE (R383): Within 1 s of a write the changed set is written to the older flash copy and checked. -/
  | persistStore (ok : Bool)
  /-- DISCOVER (R368): Sedge discovery answered after a delay with the device's identity. -/
  | discover (h : SHdr)
  /-- READ (R378): Sedge READ of one entry. -/
  | read (h : SHdr) (i : W16) (sub : Byte)
  /-- WRITE (R379): Sedge WRITE of one entry, conditional or not. -/
  | write (h : SHdr) (payload : List Byte)
  /-- WRITE_SET (R379): Sedge WRITE_SET of 1–16 entries applied all or nothing. -/
  | writeSet (h : SHdr) (payload : List Byte)
  /-- SEDGE_LOG_READ (R380): Sedge LOG_READ returning log entries from a sequence number. -/
  | sedgeLogRead (h : SHdr) (first : W32) (n : Byte)
  /-- SEDGE_ATTEST (R349): Sedge ATTEST returning a signed attestation report. -/
  | sedgeAttest (h : SHdr) (scope : Byte) (nonce : BitVec 256)
  /-- DIR (R380): Sedge DIR listing reachable entries with types and rights. -/
  | dir (h : SHdr) (lo hi : W16)
  /-- SUBSCRIBE (R380): Sedge SUBSCRIBE setting a session's event-class mask. -/
  | subscribe (h : SHdr) (mask : W32)
  /-- EVENT_ACK (R380): A client acknowledges an EVENT. -/
  | eventAck (h : SHdr)
  /-- EVENT_RESEND (R380): Every 100 ms an unacknowledged EVENT is sent again, up to 8 times. -/
  | eventResend (id req : W32)
  /-- HELLO (R370): Sedge HELLO checked against enrolment and answered with ACCEPT. -/
  | hello (h : SHdr) (payload : List Byte)
  /-- CONFIRM (R370): Sedge CONFIRM verified, deriving session keys and sending ESTABLISHED or BUSY. -/
  | confirm (h : SHdr) (payload : List Byte)
  /-- CLOSE (R374): Either end closes a session at once. -/
  | close (c : CloseBy)
  /-- HANDSHAKE_EXPIRE (R370): A pending Sedge handshake expires 2 s after its HELLO. -/
  | handshakeExpire (principal : Fin 17)
  /-- SESSION_IDLE_EXPIRE (R374): A session with no accepted datagram for SESSION_IDLE is closed. -/
  | sessionIdleExpire (id : W32)
  /-- FRAGMENT_EXPIRE (R366): An incomplete message is discarded 500 ms after its first fragment. -/
  | fragmentExpire (source : Nat) (req : W32)
  /-- FRAME_FCS_ERROR (R363): A segment frame with a bad frame check sequence is discarded and counted. -/
  | frameFcsError
  /-- PLCA_STATUS_CHANGE (R363): PLCA status changes and the device falls back to or leaves CSMA/CD. -/
  | plcaStatusChange (ok : Bool)
  /-- PLCA_ID_CONFLICT (R363): A collision in the device's own transmit opportunity is counted and logged. -/
  | plcaIdConflict
  /-- ADDRESS_CONFLICT (R364): Duplicate Address Detection finds the link-local address in use and the device stays silent. -/
  | addressConflict
  /-- TAP_RESET (R435): Test-logic reset loads IDCODE into the instruction register. -/
  | tapReset
  /-- EXTEST (R436): Boundary-scan instruction driving lands while RESET_N is asserted. -/
  | extest
  /-- IDCODE (R435): Boundary-scan instruction selecting the identification register. -/
  | idcode
  /-- SAMPLE_PRELOAD (R436): Boundary-scan instruction capturing the lands without disturbing them. -/
  | samplePreload (lands shifted : BitVec 2030)
  /-- CLAMP (R436): Boundary-scan instruction holding lands at preloaded values while RESET_N is asserted. -/
  | clamp
  /-- HIGHZ (R436): Boundary-scan instruction placing outputs in high impedance while RESET_N is asserted. -/
  | highz
  /-- EXTEST_PULSE (R436): IEEE 1149.6 pulse test of AC-coupled lanes while RESET_N is asserted. -/
  | extestPulse
  /-- EXTEST_TRAIN (R436): IEEE 1149.6 train test of AC-coupled lanes while RESET_N is asserted. -/
  | extestTrain
  /-- BYPASS (R435): The bypass register is selected, by its opcode or a private one. -/
  | bypass (op : Byte)
  /-- REED_CYCLE (R50): Every reed cycle each reed increments exactly one idle-cause counter, chosen by precedence, and the counters wrap modulo 2^56. -/
  | reedCycle (t : Fin 256)
  /-- SUPPLY_RECOVERY (R334): The supply rises back above the droop threshold and the island's clock stretching ends. -/
  | supplyRecovery (t : Fin 256)
  /-- STAGE2_HOLD (R337): In each 10 µs window of stage-2 throttle, new firing starts are held for the first 5 µs and released at 5 µs. -/
  | stage2Hold (hold : Bool)
  /-- LODE_FRAME_TRANSMIT (R265): Each frame time the lode egress sends 17 flits, idle or granted, and a control block carrying credits, ACK_LSEQ, flags and TB_MARK. -/
  | lodeFrameTransmit (n : Fin 24)
  /-- CORRECTED_WORD_WRITE_BACK (R114): A word corrected by SECDED is written back in the next cycle in which its bank has no request. -/
  | correctedWordWriteBack (l : EccLoc)
  /-- DAD_COMPLETE (R364): Duplicate Address Detection ends with no duplicate found and the device may begin sending from its link-local address. -/
  | dadComplete
  /-- CC_HEARTBEAT_ANSWER (R417): A control core's answer to the reeve's heartbeat arrives and clears the pending hung check. -/
  | ccHeartbeatAnswer (core : Fin 2)
  /-- SNAPSHOT_COMPLETED (R390): The summing of a snapshot's latched counters ends, SNAPSHOT_SEQ rises, and a SNAPSHOT_CMD write waiting in the dictionary queue may proceed. -/
  | snapshotCompleted
  /-- INT_MASK (R395): A write to INT_MASK that unmasks a bit already set in INT_STATUS raises MSI-X vector 0. -/
  | intMask (q : Fin 2) (w : IntWrite)
  /-- MSIX_VECTOR_UNMASK (R400): A host write unmasking an MSI-X vector whose pending bit is set sends the held message and clears the pending bit. -/
  | msixVectorUnmask (q : Fin 2) (v : Fin 64) (entry : BitVec 128)
  /-- HOST_RETURN (R403): A lost host returns through PERST_N deassertion, completion of Function Level Reset, Bus Master Enable set again or return to D0, and finds its rings disabled and PEER_PRESENT set again. -/
  | hostReturn (q : Fin 2) (k : ReturnKind)
  deriving DecidableEq, Repr

end Sys2Proof
end

