-- ==== Sys2Proof/Machine/Float.lean ====
section
/-! DEFINITION. Number formats, exact values and rounding: the format table (R150, R151), the exact value of every
bit pattern, one rounding for every target (R48, R155 to R157), and the exact arithmetic of the vector engine (R185). -/
namespace Sys2Proof

/-- The code of a format (R150). -/
def Fmt.code : Fmt → Nat
  | .fp64 => 0 | .fp32 => 1 | .bf16 => 2 | .fp16 => 3 | .e5m2 => 4 | .e4m3 => 5 | .e3m2 => 6 | .e2m3 => 7
  | .e2m1 => 8 | .int8 => 9 | .int4 => 10 | .e8m0 => 11 | .int32 => 12 | .idx32 => 13 | .acc320 => 14

/-- The format of a code; 0xF is reserved (R14). -/
def Fmt.ofCode : Nat → Option Fmt
  | 0 => some .fp64 | 1 => some .fp32 | 2 => some .bf16 | 3 => some .fp16 | 4 => some .e5m2 | 5 => some .e4m3
  | 6 => some .e3m2 | 7 => some .e2m3 | 8 => some .e2m1 | 9 => some .int8 | 10 => some .int4 | 11 => some .e8m0
  | 12 => some .int32 | 13 => some .idx32 | 14 => some .acc320 | _ => none

/-- The width of an element in bits (R150). -/
def Fmt.width : Fmt → Nat
  | .fp64 => 64 | .fp32 | .int32 | .idx32 => 32 | .bf16 | .fp16 => 16 | .e5m2 | .e4m3 | .int8 | .e8m0 => 8
  | .e3m2 | .e2m3 => 6 | .e2m1 | .int4 => 4 | .acc320 => 320

/-- Is a format an integer format of the vector engine (R179)? -/
def Fmt.isInt (f : Fmt) : Bool := f == .int32 || f == .idx32

/-- One row of the floating-point part of R150 and R151: field widths, bias, the largest finite exponent and fraction
fields, whether the format has infinities, and the NaN the device writes. -/
structure FloatRow where
  ebits : Nat
  mbits : Nat
  bias : Nat
  topE : Nat
  topF : Nat
  hasInf : Bool
  nan : Option Nat
  deriving DecidableEq, Repr

/-- The floating-point rows of R150 and R151. -/
def Fmt.row : Fmt → Option FloatRow
  | .fp64 => some ⟨11, 52, 1023, 2046, 2 ^ 52 - 1, true, some 0x7FF8000000000000⟩
  | .fp32 => some ⟨8, 23, 127, 254, 2 ^ 23 - 1, true, some 0x7FC00000⟩
  | .bf16 => some ⟨8, 7, 127, 254, 127, true, some 0x7FC0⟩
  | .fp16 => some ⟨5, 10, 15, 30, 1023, true, some 0x7E00⟩
  | .e5m2 => some ⟨5, 2, 15, 30, 3, true, some 0x7E⟩
  | .e4m3 => some ⟨4, 3, 7, 15, 6, false, some 0x7F⟩
  | .e3m2 => some ⟨3, 2, 3, 7, 3, false, none⟩
  | .e2m3 => some ⟨2, 3, 1, 3, 7, false, none⟩
  | .e2m1 => some ⟨2, 1, 1, 3, 1, false, none⟩
  | _ => none

/-- EMAX of the formats a scale rule serves (R150). -/
def Fmt.emax : Fmt → Nat
  | .e5m2 => 15 | .e4m3 => 8 | .e3m2 => 4 | .e2m3 => 2 | .e2m1 => 2 | .int8 => 6 | .int4 => 2 | _ => 0

/-- An exact value: NaN, an infinity, or (-1)^neg × m × 2^e, plus a positive part smaller than 2^e when sticky is set
(the tail of a quotient or a root, which no rounding needs to know further). -/
inductive Val where
  | nan
  | inf (neg : Bool)
  | fin (neg : Bool) (m : Nat) (e : Int) (sticky : Bool)
  deriving DecidableEq, Repr

/-- An exact zero of either sign. -/
def Val.zero (neg : Bool) : Val := .fin neg 0 0 false

/-- The value of an exact integer times a power of two; a zero is +0. -/
def Val.ofInt (i e : Int) : Val := .fin (decide (i < 0)) i.natAbs e false

/-- Is the value an exact zero? -/
def Val.isZero : Val → Bool
  | .fin _ m _ s => m == 0 && !s
  | _ => false

/-- Is the value finite? -/
def Val.isFin : Val → Bool
  | .fin .. => true
  | _ => false

/-- Is the value NaN? -/
def Val.isNan : Val → Bool
  | .nan => true
  | _ => false

/-- The sign of a value (false for NaN). -/
def Val.neg : Val → Bool
  | .nan => false
  | .inf n => n
  | .fin n _ _ _ => n

/-- The magnitude of a value. -/
def Val.abs : Val → Val
  | .nan => .nan
  | .inf _ => .inf false
  | .fin _ m e s => .fin false m e s

/-- The negated value. -/
def Val.negate : Val → Val
  | .nan => .nan
  | .inf n => .inf (!n)
  | .fin n m e s => .fin (!n) m e s

/-- The value times 2^k, exact in an unbounded exponent range (R155). -/
def Val.scale (v : Val) (k : Int) : Val :=
  match v with
  | .fin n m e s => .fin n m (e + k) s
  | w => w

/-- A two's-complement number of a width. -/
def toSigned (width n : Nat) : Int := if n < 2 ^ (width - 1) then n else (n : Int) - 2 ^ width

/-- The exact value of a floating-point pattern (R150, R151). -/
def decodeFloat (r : FloatRow) (n : Nat) : Val :=
  let f := n % 2 ^ r.mbits
  let e := bits n (r.mbits + r.ebits - 1) r.mbits
  let neg := bit n (r.mbits + r.ebits)
  if r.hasInf && e == 2 ^ r.ebits - 1 then (if f == 0 then .inf neg else .nan)
  else if r.nan.isSome && !r.hasInf && e == r.topE && f > r.topF then .nan
  else if e == 0 then .fin neg f (1 - (r.bias : Int) - r.mbits) false
  else .fin neg (2 ^ r.mbits + f) ((e : Int) - r.bias - r.mbits) false

/-- The exact value of an element's bits in a format (R150 to R154). -/
def Fmt.decode (f : Fmt) (n : Nat) : Val :=
  match f with
  | .int8 => .ofInt (toSigned 8 n) 0
  | .int4 => .ofInt (toSigned 4 n) 0
  | .int32 => .ofInt (toSigned 32 n) 0
  | .idx32 => .ofInt n 0
  | .acc320 => .ofInt (toSigned 320 n) (-160)
  | .e8m0 => if n = 255 then .nan else .fin false 1 ((n : Int) - 127) false
  | g => match g.row with
    | some r => decodeFloat r n
    | none => .nan

/-- The rounding modes of the RND field (R89, R155); the stochastic mode carries the element's random word (R48). -/
inductive Rnd where
  | near
  | stoch (u : W32)
  | toZero
  deriving DecidableEq, Repr

/-- Rounds the magnitude (m, then a sticky tail) × 2^e to a multiple of 2^q, and says whether that was exact.
R48 reads the top 32 discarded bits against the word; R155 gives the other two modes. -/
def roundTo (rnd : Rnd) (m : Nat) (e : Int) (sticky : Bool) (q : Int) : Nat × Bool :=
  if q ≤ e then (m * 2 ^ (e - q).toNat, !sticky)
  else
    let k := (q - e).toNat
    let kept := m >>> k
    let disc := m % 2 ^ k
    if disc == 0 && !sticky then (kept, true)
    else match rnd with
      | .toZero => (kept, false)
      | .near =>
        let twice := 2 * disc
        if twice > 2 ^ k || (twice == 2 ^ k && (sticky || kept % 2 == 1)) then (kept + 1, false) else (kept, false)
      | .stoch u => if u.toNat < (disc * 2 ^ 32) >>> k then (kept + 1, false) else (kept, false)

/-- The outcome of a conversion: the bits, and whether it overflowed (R156) or underflowed (R157). -/
structure Conv where
  bits : Nat
  overR : Bool := false
  under : Bool := false
  deriving DecidableEq, Repr

/-- The largest finite pattern of a floating-point format, of either sign. -/
def FloatRow.top (r : FloatRow) (neg : Bool) : Nat := b2n neg * 2 ^ (r.ebits + r.mbits) + r.topE * 2 ^ r.mbits + r.topF

/-- The infinity of a floating-point format. -/
def FloatRow.infBits (r : FloatRow) (neg : Bool) : Nat := b2n neg * 2 ^ (r.ebits + r.mbits) + (2 ^ r.ebits - 1) * 2 ^ r.mbits

/-- The result of a NaN input (R156). -/
def FloatRow.nanBits (r : FloatRow) : Nat := r.nan.getD 0

/-- A finite overflow (R156): the wide formats give an infinity, or the largest finite value under round toward zero;
FP8 saturates or gives NaN as OVF_NAN says; the others saturate. -/
def floatOver (f : Fmt) (r : FloatRow) (rnd : Rnd) (ovfNan neg : Bool) : Nat :=
  match f with
  | .fp64 | .fp32 | .bf16 | .fp16 => if rnd = .toZero then r.top neg else r.infBits neg
  | .e5m2 | .e4m3 => if ovfNan then r.nanBits else r.top neg
  | _ => r.top neg

/-- Rounds an exact value once to a floating-point format (R155, R156, R157). -/
def encodeFloat (f : Fmt) (r : FloatRow) (rnd : Rnd) (ovfNan : Bool) (v : Val) : Conv :=
  let sgn (neg : Bool) := b2n neg * 2 ^ (r.ebits + r.mbits)
  match v with
  | .nan => { bits := r.nanBits }
  | .inf neg => { bits := if r.hasInf then r.infBits neg else if r.nan.isSome then r.nanBits else r.top neg }
  | .fin neg m e s =>
    if m == 0 && !s then { bits := sgn neg }
    else
      let lead : Int := (bitLen m : Int) + e - 1
      let emin : Int := 1 - (r.bias : Int) - r.mbits
      let q := if lead - r.mbits < emin then emin else lead - r.mbits
      let (k0, _) := roundTo rnd m e s q
      let (kept, q) := if k0 == 2 ^ (r.mbits + 1) then (2 ^ r.mbits, q + 1) else (k0, q)
      let eField : Int := if kept < 2 ^ r.mbits then 0 else q + r.mbits + r.bias
      let frac := if kept < 2 ^ r.mbits then kept else kept - 2 ^ r.mbits
      if eField > r.topE || (eField == r.topE && frac > r.topF) then
        { bits := floatOver f r rnd ovfNan neg, overR := true }
      else { bits := sgn neg + eField.toNat * 2 ^ r.mbits + frac, under := kept == 0 }

/-- The range a conversion into an integer format produces (R153, R156). -/
def Fmt.intRange : Fmt → Option (Int × Int)
  | .int8 => some (-127, 127)
  | .int4 => some (-7, 7)
  | .int32 => some (-(2 ^ 31), 2 ^ 31 - 1)
  | .idx32 => some (0, 2 ^ 32 - 1)
  | _ => none

/-- Rounds an exact value to an integer format; infinities and overflows take the end of the range, NaN takes 0 (R156). -/
def encodeInt (f : Fmt) (lo hi : Int) (rnd : Rnd) (v : Val) : Conv :=
  let pat (i : Int) : Nat := (i % (2 ^ f.width : Int)).toNat
  match v with
  | .nan => { bits := 0 }
  | .inf neg => { bits := pat (if neg then lo else hi) }
  | .fin neg m e s =>
    let k := (roundTo rnd m e s 0).1
    let i : Int := if neg then -(k : Int) else k
    if i < lo then { bits := pat lo, overR := true }
    else if hi < i then { bits := pat hi, overR := true }
    else { bits := pat i, under := i == 0 && !(m == 0 && !s) }

/-- The floor of the binary logarithm of a nonzero finite magnitude. -/
def floorLog2 (m : Nat) (e : Int) : Int := (bitLen m : Int) - 1 + e

/-- A conversion to E8M0 (R156): the code of the largest power of two not above the magnitude. -/
def encodeE8 (v : Val) : Conv :=
  match v with
  | .nan => { bits := 255 }
  | .inf _ => { bits := 255 }
  | .fin _ m e _ =>
    if m == 0 then { bits := 127 }
    else
      let c := floorLog2 m e + 127
      if c > 254 then { bits := 254, overR := true } else if c < 0 then { bits := 0 } else { bits := c.toNat }

/-- Rounds an exact value once to any format (R155, R156, R159). -/
def Fmt.encode (f : Fmt) (rnd : Rnd) (ovfNan : Bool) (v : Val) : Conv :=
  match f.row with
  | some r => encodeFloat f r rnd ovfNan v
  | none => match f.intRange with
    | some (lo, hi) => encodeInt f lo hi rnd v
    | none => if f = .e8m0 then encodeE8 v else match v with
      | .fin neg m e s =>
        let k := (roundTo rnd m e s (-160)).1
        { bits := ((if neg then -(k : Int) else k) % (2 ^ 320 : Int)).toNat }
      | _ => { bits := 0 }

/-- The NaN pattern the device writes in a format, +0 in a format without one (R151, R155). -/
def Fmt.nanBits (f : Fmt) : Nat :=
  match f.row with
  | some r => r.nanBits
  | none => if f = .e8m0 then 255 else 0

/-- An exact finite value as an integer multiple of 2^lo, lo at or below its exponent. -/
def finInt (neg : Bool) (m : Nat) (e lo : Int) : Int :=
  let k : Int := (m * 2 ^ (e - lo).toNat : Nat)
  if neg then -k else k

/-- The exact sum (R185): ∞ - ∞ is NaN; an exact zero is -0 only when both terms are -0 (IEEE 754). -/
def Val.add (x y : Val) : Val :=
  match x, y with
  | .nan, _ => .nan
  | _, .nan => .nan
  | .inf a, .inf b => if a = b then .inf a else .nan
  | .inf a, _ => .inf a
  | _, .inf b => .inf b
  | .fin a m e _, .fin b n d _ =>
    let lo := if e ≤ d then e else d
    let i := finInt a m e lo + finInt b n d lo
    if i = 0 then .zero (a && b && m == 0 && n == 0) else .ofInt i lo

/-- The exact difference. -/
def Val.sub (x y : Val) : Val := x.add y.negate

/-- The exact product (R185): ∞ × 0 is NaN. -/
def Val.mul (x y : Val) : Val :=
  match x, y with
  | .nan, _ => .nan
  | _, .nan => .nan
  | .inf a, .inf b => .inf (a != b)
  | .inf a, .fin b n _ _ => if n = 0 then .nan else .inf (a != b)
  | .fin a m _ _, .inf b => if m = 0 then .nan else .inf (a != b)
  | .fin a m e _, .fin b n d _ => .fin (a != b) (m * n) (e + d) false

/-- The quotient to 160 bits and a sticky tail (R185): 0/0 and ∞/∞ are NaN, x/0 is a signed infinity. -/
def Val.div (x y : Val) : Val :=
  match x, y with
  | .nan, _ => .nan
  | _, .nan => .nan
  | .inf _, .inf _ => .nan
  | .inf a, .fin b _ _ _ => .inf (a != b)
  | .fin a _ _ _, .inf b => .zero (a != b)
  | .fin a m e _, .fin b n d _ =>
    if n = 0 then (if m = 0 then .nan else .inf (a != b))
    else
      let num := m * 2 ^ (160 + bitLen n)
      .fin (a != b) (num / n) (e - d - (160 + bitLen n : Nat)) (num % n != 0)

/-- The square root to 160 bits and a sticky tail (R185): of a negative number NaN, of -0 -0. -/
def Val.sqrt (x : Val) : Val :=
  match x with
  | .nan => .nan
  | .inf a => if a then .nan else .inf false
  | .fin a m e _ =>
    if m = 0 then .zero a
    else if a then .nan
    else
      let odd := e % 2 != 0
      let n := (if odd then 2 * m else m) * 2 ^ 320
      let d := (if odd then e - 1 else e) - 320
      let r := isqrt n
      .fin false r (d / 2) (r * r != n)

/-- Exact comparison of two values that are not NaN: is x less than y? Zeros are equal (R186). -/
def Val.lt (x y : Val) : Bool :=
  match x, y with
  | .nan, _ => false
  | _, .nan => false
  | .inf a, .inf b => a && !b
  | .inf a, _ => a
  | _, .inf b => !b
  | .fin a m e _, .fin b n d _ =>
    let lo := if e ≤ d then e else d
    decide (finInt a m e lo < finInt b n d lo)

/-- Exact equality of two values that are not NaN. -/
def Val.eq (x y : Val) : Bool := !x.isNan && !y.isNan && !x.lt y && !y.lt x

/-- The larger of two values: NaN when either is, -0 below +0 (R185). -/
def Val.max (x y : Val) : Val :=
  if x.isNan || y.isNan then .nan
  else if x.lt y then y else if y.lt x then x else if x.neg then y else x

/-- The smaller of two values: NaN when either is, -0 below +0 (R185). -/
def Val.min (x y : Val) : Val :=
  if x.isNan || y.isNan then .nan
  else if x.lt y then x else if y.lt x then y else if x.neg then x else y

/-- A value rounded once to FP32, ties to even. -/
def toF32 (v : Val) : W32 := BitVec.ofNat 32 (Fmt.fp32.encode .near false v).bits

/-- A value rounded once to FP64, ties to even. -/
def toF64 (v : Val) : W64 := BitVec.ofNat 64 (Fmt.fp64.encode .near false v).bits

/-- The exact value of an FP32 pattern. -/
def f32 (w : W32) : Val := Fmt.fp32.decode w.toNat

/-- The exact value of an FP64 pattern. -/
def f64 (w : W64) : Val := Fmt.fp64.decode w.toNat

end Sys2Proof
end

