-- ==== Sys2Proof/Machine/Philox.lean ====
section
/-! DEFINITION. Philox4x32-10 (R46) and CRC-32C (R131). -/
namespace Sys2Proof

/-- One Philox4x32 round. PRESUMED (entry 4): the published multipliers of Philox4x32. -/
def philoxRound (k0 k1 : W32) : W32 × W32 × W32 × W32 → W32 × W32 × W32 × W32
  | (c0, c1, c2, c3) =>
    let p0 := 0xD2511F53 * c0.toNat
    let p1 := 0xCD9E8D57 * c2.toNat
    (BitVec.ofNat 32 (p1 / 2 ^ 32) ^^^ c1 ^^^ k0, BitVec.ofNat 32 p1,
     BitVec.ofNat 32 (p0 / 2 ^ 32) ^^^ c3 ^^^ k1, BitVec.ofNat 32 p0)

/-- n rounds with the key bumped between rounds. PRESUMED (entry 4): the published Weyl constants. -/
def philoxRounds : Nat → W32 → W32 → W32 × W32 × W32 × W32 → W32 × W32 × W32 × W32
  | 0, _, _, c => c
  | n + 1, k0, k1, c => philoxRounds n (k0 + 0x9E3779B9#32) (k1 + 0xBB67AE85#32) (philoxRound k0 k1 c)

/-- Output word y_lane of Philox4x32-10 for an element (R46): the seed's two halves are the key; the counter is made of
the element index, the purpose code and sub-index, the tensor identifier and the low half of the step number. -/
def randWord (seed : W64) (elem : Nat) (purpose sub : Nat) (tensor : W32) (step : Nat) : W32 :=
  let k0 := BitVec.ofNat 32 seed.toNat
  let k1 := BitVec.ofNat 32 (seed.toNat >>> 32)
  let c1 := BitVec.ofNat 32 (purpose * 2 ^ 24 + sub % 2 ^ 24)
  match philoxRounds 10 k0 k1 (BitVec.ofNat 32 (elem >>> 2), c1, tensor, BitVec.ofNat 32 step) with
  | (y0, y1, y2, y3) => match elem % 4 with | 0 => y0 | 1 => y1 | 2 => y2 | _ => y3

/-- Eight steps of the reflected CRC-32C division (polynomial 0x1EDC6F41, reflected 0x82F63B78; R131). -/
def crcBits : Nat → Nat → Nat
  | 0, c => c
  | n + 1, c => crcBits n (if c % 2 = 1 then (c / 2) ^^^ 0x82F63B78 else c / 2)

/-- CRC-32C of a list of bytes, in ascending order (R131). -/
def crc32c (l : List Byte) : W32 :=
  BitVec.ofNat 32 ((l.foldl (fun c b => crcBits 8 (c ^^^ b.toNat)) 0xFFFFFFFF) ^^^ 0xFFFFFFFF)

end Sys2Proof
end

