-- ==== Sys2Proof/Config.lean ====
section
/-! DEFINITION. What the manual leaves open or names without defining: constants with no body, so that no proof can
lean on a value. Each is named in the assumption log. -/
namespace Sys2Proof

/-- A correctly rounded FP32 transcendental whose two enclosing bounds round differently: the function's number, the
operand. Free (entry 5). -/
opaque Config.transcendental : Nat → W32 → W32

/-- The first 32 bytes of SHAKE256 (R342), and every other digest the manual takes with it. The primitive is not computed
here (entry 50). -/
opaque Config.shake : List Byte → BitVec 256
/-- Does a Falcon-1024 signature verify: public key, message, signature (R342)? Not computed here (entry 50). -/
opaque Config.falconOk : List Byte → List Byte → List Byte → Bool
/-- The n-th value that the security generator draws (R342). Free (entry 51). -/
opaque Config.random : Nat → BitVec 256
/-- KMAC256 of a key over bytes (R342; entry 50). -/
opaque Config.kmac : BitVec 256 → List Byte → BitVec 512
/-- KMAC256 with 128-bit output of a key over bytes (R355, R371; entry 50). -/
opaque Config.kmacTag : BitVec 256 → List Byte → BitVec 128
/-- The Falcon-1024 public key of the pair that a seed generates (R347; entry 50). -/
opaque Config.falconPk : BitVec 512 → List Byte
/-- The Falcon-1024 signature of a message by the key that a seed generates (R347; entry 50). -/
opaque Config.sign : BitVec 512 → List Byte → List Byte
/-- The ML-KEM-1024 encapsulation key of the pair that a seed generates (R347; entry 50). -/
opaque Config.kemPk : BitVec 512 → List Byte
/-- The shared secret that the key pair of a seed decapsulates from an ML-KEM-1024 ciphertext (R347; entry 50). -/
opaque Config.kemDecap : BitVec 512 → List Byte → BitVec 256
/-- Byte i of the AES-256 counter keystream under a key and a nonce, with which GCM encrypts and decrypts (R225, R268; entry 50). -/
opaque Config.gcmStream : BitVec 256 → List Byte → Nat → Byte
/-- The AES-256-GCM tag under a key and a nonce of additional data and ciphertext (R225, R268; entry 50). -/
opaque Config.gcmTag : BitVec 256 → List Byte → List Byte → List Byte → BitVec 128
/-- The key of the flash log's chain, derived from DEVICE_SECRET by a derivation the manual does not give (R422; entry 159). -/
opaque Config.logKey : BitVec 256 → BitVec 256
/-- What the device holds at manufacture: secret, root key digest, firmware key digests (R342; entry 9). -/
opaque Config.fuse : Nat → BitVec 256
/-- DEVICE_SERIAL as programmed at manufacture (R342; entry 9). -/
opaque Config.serial : W64
/-- The index of the manufacturing key that signed the device certificate, and its signature (R348; entry 9). -/
opaque Config.issuerIndex : W32
/-- The manufacturing key's signature over bytes 0 to 3,391 of the device certificate. -/
opaque Config.certSignature : List Byte
/-- What an IPv6 header of the device carries where the manual names no value: traffic class and flow label, hop limit (R7, R366). Free
(entry 156). -/
opaque Config.ipv6Free : BitVec 28
/-- The hop limit. -/
opaque Config.hopLimit : Byte

/-- The issuer's certificate and the digest of the boot ROM as manufactured (R348, R349; entry 9). -/
opaque Config.issuer : List Byte
/-- The digest of the boot ROM. -/
opaque Config.romDigest : BitVec 256
/-- How an operation on an entry of 0xF000 to 0xFFFF that the manual does not list ends in VENDOR_TEST, by its key (R391). Free. -/
opaque Config.testStatus : Nat → Nat
/-- The cause with which entering VENDOR_TEST faults every section (R358), as a place in the list of causes. Free. -/
opaque Config.vendorCause : Nat
/-- The ciphertext, and the shared secret, that an ML-KEM-1024 encapsulation to a key gives with a drawn value (R370; entry 50). -/
opaque Config.kemCipher : List Byte → BitVec 256 → List Byte
/-- The shared secret of an encapsulation. -/
opaque Config.kemShared : List Byte → BitVec 256 → BitVec 256
/-- SHAKE256 with 512-bit output (R370; entry 50). -/
opaque Config.shake512 : List Byte → BitVec 512
/-- The DETAIL of a REFUSED command where the manual names no cause code, by the case: a key that does not unwrap, a report of a
decommissioned device, a CORE_SAMPLE write that a CSW overwrote (R82, R342, R353). Free. -/
opaque Config.detail : Nat → W32
/-- The event code under which a refused redefinition of a partition is logged (R76). Free. -/
opaque Config.partBusyCode : BitVec 16

end Sys2Proof
end

