-- ==== Sys2Proof/Machine/StateReed.lean ====
section
/-! DEFINITION. The part of the state that the reeds, the tussocks, the fabric and the memory stacks hold, with its values after reset. -/
namespace Sys2Proof.Machine

/-! ### Memories -/

/-- Byte-addressed memory: pairs of an address and a byte, addresses strictly rising, no entry equal to 0, which an
unlisted address reads as (entry 6). -/
abbrev Mem := List Host.Cell

/-! ### The reed (chapters 2, 4, 5, 6, 8) -/

/-- The sixteen idle causes, in the order of their codes (R51). -/
inductive Cause where
  | busy | waitInput | waitOutput | waitMemory | waitCorrection | waitPeer | waitPeerThrottled | waitMulticast
  | waitSump | waitHost | waitPoison | drain | reconfig | throttleLocal | arbBackoff | unassigned
  deriving DecidableEq, Repr

/-- The state of a sequencer (R81). -/
inductive SeqState where
  | unassigned | armed | running | drain | stopped
  deriving DecidableEq, Repr

/-- A tag (R102). -/
inductive Tag where
  | empty | full | poisoned
  deriving DecidableEq, Repr

/-- One loop in progress: its body, counter, bound and current count (R90). -/
structure Frame where
  start : Nat
  stop : Nat
  ctr : Nat
  bound : Nat
  iter : Nat
  deriving DecidableEq, Repr

/-- An execute context (R78, R100). -/
structure Ctx where
  /-- Program counter of the execute engine, 11 bits (R81 SEQ_STATE.PC); reset 0. -/
  pc : BitVec 11 := 0
  /-- Loops in progress, innermost first, at most eight (R91); reset none. -/
  loops : List Frame := []
  /-- C0 to C7, 24 bits each (R78); 0 at each step's start. -/
  c : Tbl (BitVec 24) := []
  /-- A0 to A15, 32 bits each, the execute engine's copy (R78); 0 at each step's start. -/
  a : Tbl W32 := []
  /-- S0 to S15, 32 bits each (R78); 0 at each step's start. -/
  s : Tbl W32 := []
  /-- VL, 8 bits (R78); 32 at each step's start. -/
  vl : Byte := 32
  /-- A FENCE has issued and waits for acknowledgements (R90); reset false. -/
  fence : Bool := false
  /-- The context has reached END (R83); reset false. -/
  ended : Bool := false
  /-- The idle cause of the wait its next instruction met (R93); reset none. -/
  wait : Option Cause := none
  /-- In threaded mode, of the iteration of its outermost loop in progress (R101): the time base, the cause of the cycle before, WAIT_CYCLES
  and CORE_SAMPLE_CTL in its first reed cycle (R54, R82); reset none. -/
  first : Option (W64 × Cause × Nat × W32) := none
  deriving DecidableEq, Repr

/-- The fetch engine's own copies (R93, R94). -/
structure Fetch where
  /-- Its program counter, 11 bits (R94); reset 0. -/
  pc : BitVec 11 := 0
  /-- Its loop state (R94); reset none. -/
  loops : List Frame := []
  /-- Its loop counters, 24 bits each (R94); reset 0. -/
  c : Tbl (BitVec 24) := []
  /-- Its A registers, 32 bits each (R78, R94); reset 0. -/
  a : Tbl W32 := []
  /-- The index of the block's FIRE word it runs in, and the firing within the block (R94). -/
  block : Nat := 0
  j : Nat := 0
  /-- It has reached END and waits for the next step's start (R94); reset false. -/
  ended : Bool := false
  /-- It has issued an instruction in this reed cycle (R92); reset false. -/
  issued : Bool := false
  deriving DecidableEq, Repr

/-- A dependence mark the execute engine has issued (R95): the operations whose writes were then outstanding, and the
value an SMOV carried. -/
structure Mark where
  writes : List Nat
  value : Option W32
  deriving DecidableEq, Repr

/-- The space of an address (R106, R216): a scratchpad, a pool, an HBM4 stack, a board-tier controller, a host port's
address space, a window of a peer. -/
inductive Space where
  | spad (reed : Nat)
  | pool (t : Nat)
  | hbm (i : Nat)
  | board (c : Nat)
  | host (p : Nat)
  | window (w : Nat)
  deriving DecidableEq, Repr

/-- The kind of an outstanding operation (R88). -/
inductive OpKind where
  | store | matrix | vector
  deriving DecidableEq, Repr

/-- An operation that has issued and not completed (R88): the acknowledgements a store awaits, the registers a result
is on its way to (R93), as specifiers of R79, and the tagged slots that it writes, from the first and how many (R93). -/
structure OpRec where
  id : Nat
  kind : OpKind
  acks : Nat := 0
  dst : List Nat := []
  wr : Option (Space × Nat × Nat) := none
  deriving DecidableEq, Repr

/-- Where a queue's credits return to: a reed's output queue or a sluice path of a tussock, or a queue across a lode (R271). -/
inductive Feeder where
  | none
  | queue (reed : Nat) (q : Nat)
  | sluice (t : Nat) (path : Nat)
  | lode (box : Nat) (reed : Nat) (q : Nat)
  deriving DecidableEq, Repr

/-- An input queue (R117 to R121). -/
structure InQ where
  /-- Write pointer, two copies of 6 bits (R121); reset 0. -/
  wr : BitVec 6 := 0
  wr2 : BitVec 6 := 0
  /-- Read pointer, two copies of 6 bits (R121); reset 0. -/
  rd : BitVec 6 := 0
  rd2 : BitVec 6 := 0
  /-- The 32 entries of 64 bytes and a 32-bit tag, oldest first (R117); reset empty. -/
  toks : List Token := []
  /-- How many of its youngest tokens arrived in this reed cycle, and are seen from the next on (R87, R97); reset 0. -/
  fresh : Nat := 0
  /-- A token of the current packet has been popped and its LAST has not (R119); reset false. -/
  inPacket : Bool := false
  /-- QDROP discards the rest of the current packet as it arrives (R119); reset false. -/
  dropping : Bool := false
  /-- Whose credits its pops return (R118). -/
  feeder : Feeder := .none
  deriving DecidableEq, Repr

/-- Where an output queue's tokens go: an input queue or a sluice path's input of a tussock, or a queue of another device. -/
inductive Dest where
  | none
  | queue (reed : Nat) (q : Nat)
  | sluice (t : Nat) (path : Nat) (input : Nat)
  | lode (box : Nat) (reed : Nat) (q : Nat)
  deriving DecidableEq, Repr

/-- An output queue (R118, R121). -/
structure OutQ where
  /-- Credits, two copies (R118, R121); 32 at COMMIT and at each re-arm. -/
  cr : Nat := 32
  cr2 : Nat := 32
  /-- Tokens of the current packet already sent (R118); reset 0. -/
  tok : Nat := 0
  /-- Packets sent since the step's start (R118), 24 bits; reset 0. -/
  pkt : BitVec 24 := 0
  /-- The packet length of the rate table, 1 to 4,095 (R118). -/
  len : Nat := 1
  dest : Dest := .none
  deriving DecidableEq, Repr

/-- The output descriptor of an accumulator tile (R143); COMMIT phase C sets it to zero. -/
structure OutDesc where
  id : W32 := 0
  row : W32 := 0
  col : W32 := 0
  rowElems : W32 := 0
  deriving DecidableEq, Repr

/-- An accumulator tile of 64 × 64 FP32 (R140 to R147). -/
structure AccTile where
  /-- The elements that are not +0, by 64 × row + column (R140); cleared at COMMIT phase C. -/
  el : Tbl W32 := []
  /-- n_blk, the K-blocks added since the last clear (R140); reset 0. -/
  nblk : Nat := 0
  /-- LSUM_THRESH, 24 bits (R142); COMMIT phase C sets 8,192. -/
  lsum : BitVec 24 := 8192
  desc : OutDesc := {}
  /-- Valid rows and columns once an MMAC has touched the tile since its clear (R146); reset none. -/
  ext : Option (Nat × Nat) := none
  /-- The tile is held by MOUT or MSUMP (R149); reset false. -/
  held : Bool := false
  deriving DecidableEq, Repr

/-- A resident bank (R138, R139): the operand's tiles as verified. -/
structure Bank where
  fmt : Fmt
  kblk : Nat
  tiles : List (List Byte)
  deriving DecidableEq, Repr

/-- A matrix instruction (R90), as the matrix engine's queue holds it. -/
inductive MatKind where
  | mres (slot : Nat) (priv : Bool) (fmt : Fmt) (kblk : Nat) (bank : Nat)
  | mmac (slot : Nat) (priv : Bool) (fmtA fmtB : Fmt) (kblk : Nat) (acc : Nat) (clear trans : Bool) (bank : Option Nat)
  | mout (acc : Nat)
  | msump (acc : Nat) (group : Nat) (sp : Space) (landing : Nat)
  | mclr (acc : Nat)
  | mcfg (acc : Nat) (thresh : BitVec 24) (slotByte : Nat) (priv : Bool)
  deriving DecidableEq, Repr

/-- An issued matrix instruction that has not finished (R149): its operation number, whether its effect has been made,
and whether a re-read of one of its tiles is outstanding (R133). -/
structure MatOp where
  op : Nat
  kind : MatKind
  done : Bool := false
  reread : Bool := false
  /-- FILL of the handle that names its operand (R104, R106). -/
  fill : Nat := 0
  deriving DecidableEq, Repr

/-- A tile in the queue of finished tiles (R147, R197). -/
structure FinTile where
  acc : Nat
  rows : Nat
  cols : Nat
  piece : Nat := 0
  op : Nat
  deriving DecidableEq, Repr

/-- A monitor slot (R162, R163): the tensor it is bound to, the NUMERICS word, the scale code in use, whether the step
is a calibration step, and the counts of the step. -/
structure MonSlot where
  bound : Bool := false
  tensor : W32 := 0
  fmt : Fmt := .fp32
  numerics : W64 := 0
  scale : Byte := 0
  calib : Bool := false
  amax : W32 := 0
  elems : W64 := 0
  zeros : W64 := 0
  unders : W64 := 0
  overs : W32 := 0
  nonfin : W32 := 0
  deriving DecidableEq, Repr

/-- A write held because its slot is not EMPTY (R104): the slot, its 256 bytes, who awaits the acknowledgement, whether
it is a resupply write. -/
structure FillW where
  space : Space
  slot : Nat
  data : List Byte
  ack : Option (Nat × Nat) := none
  resupply : Bool := false
  /-- A plain write of its bytes from byte off of the slot, which leaves the tag (R103). -/
  plain : Bool := false
  off : Nat := 0
  /-- The plane that it came on, for its acknowledgement (R246). -/
  plane : Nat := 0
  deriving DecidableEq, Repr

/-- What a descriptor does with its slots (R88, R90). -/
inductive XferKind where
  | load | store | move
  deriving DecidableEq, Repr

/-- The fault of a halted stream (R234). -/
inductive StreamFault where
  | none | translation | poison | windowClosed
  deriving DecidableEq, Repr

/-- A descriptor in progress (R94, R111, R234). -/
structure Xfer where
  id : Nat
  reed : Nat
  op : Nat := 0
  kind : XferKind
  src : Space
  srcBase : Nat
  dst : Space
  dstBase : Nat
  slots : Nat
  /-- 0 contiguous, 1 strided, 2 transposed (R111). -/
  mode : Nat := 0
  run : Nat := 0
  stride : Nat := 0
  chan : Nat := 0
  part : Nat := 0
  /-- Slots delivered, in ascending order for untagged tiers (R234 SLOTS_DONE). -/
  done : Nat := 0
  /-- The destination slots filled so far, by index, where a copy is awaited (R103). -/
  got : List Nat := []
  /-- Source slots staged by the transposing mover (R111). -/
  stage : Tbl (List Byte) := []
  /-- The instruction word, the fetch program counter and the firing number at issue (R234). -/
  word : W64 := 0
  pc : Nat := 0
  firing : W32 := 0
  /-- Where in the order of the program it issued (R93): block, firing, for each loop around it its index and iteration, and its index. -/
  pos : List Nat := []
  /-- STATE and FAULT of its stream context (R234). -/
  halted : Bool := false
  fault : StreamFault := .none
  tierAddr : Nat := 0
  waitId : Nat := 0
  /-- The time base at which WINDOW_LIMIT expires for a stream halted by WIN_CLOSED (R286). -/
  limitAt : Nat := 0
  /-- A tile of it awaits an address translation of its port (R233), or its retry (R237). -/
  trans : Bool := false
  retry : Bool := false
  /-- The tile that it awaits or halted at is one that it writes, not one that it reads (R232, R235). -/
  out : Bool := false
  /-- Slots that the tier has sent, or that a stream engine has passed (R227). -/
  sent : Nat := 0
  /-- The first delivery after a resupply is a resupply write (R238). -/
  resupplied : Bool := false
  /-- The tile a stream engine has in hand, opened or being gathered (R225, R227). -/
  buf : List Byte := []
  deriving DecidableEq, Repr

/-- A reed (R17, R78 to R101). -/
structure Reed where
  ctx : Tbl Ctx := []
  fetch : Fetch := {}
  /-- V0 to V31, 1,024 bits each (R78); 0 at each step's start. -/
  v : Tbl VReg := []
  /-- SEQ_STATE.STATE (R81); reset UNASSIGNED. -/
  status : SeqState := .unassigned
  /-- SEQ_STATE.FIRING, 32 bits (R81): counted from 0 at COMMIT; reset 0. -/
  firing : W32 := 0
  /-- FIRING register: index of the current firing within its block, 32 bits (R78); reset 0. -/
  j : W32 := 0
  /-- The next firing's index within its block and the index of the block's FIRE word (R83); reset 0. -/
  nextJ : Nat := 0
  block : Nat := 0
  /-- The body of a firing is being issued, and where it ends (R87, R88); reset false, 0. -/
  inBody : Bool := false
  bodyEnd : Nat := 0
  /-- Reed cycles since cycle 0 of the step (R42); reset 0. -/
  cycle : Nat := 0
  /-- The cycle in which the last firing ended (R54); reset 0. -/
  lastEnd : Nat := 0
  /-- Idle cause counted in the previous cycle (R54 PRIOR_CAUSE); reset UNASSIGNED. -/
  prior : Cause := .unassigned
  /-- SLACK_OVERRUN, 32 bits, saturating (R44, R80); reset 0. -/
  slack : W32 := 0
  /-- CORE_SAMPLE_CTL, 32 bits (R53); reset 0. -/
  csCtl : W32 := 0
  /-- CORE_SAMPLE_STAT: DROPPED and WRITTEN, 32 bits each (R53); reset 0. -/
  dropped : W32 := 0
  written : W32 := 0
  /-- Core-sample records queued and not yet written (R54, R87); reset none. -/
  samples : List (BitVec 128) := []
  /-- A CSW wrote CORE_SAMPLE_CTL in this reed cycle (R82); reset false. -/
  cswNow : Bool := false
  /-- Control-core writes of CORE_SAMPLE_CTL in this reed cycle whose completions are due at its end (R82): port, ring, PART, CMD_ID; reset none. -/
  csWait : List (Nat × Nat × Nat × W32) := []
  /-- With WRAP = 0 the ring's own tags keep its oldest queued record waiting (R55); reset false. -/
  ringBlocks : Bool := false
  /-- A firing has started in this reed cycle (R87, R88); reset false. -/
  started : Bool := false
  /-- IDLE_CNT0 to 15, 56 bits each (R50, R80); 0 at device reset. -/
  idle : Tbl (BitVec 56) := []
  /-- IDLE_SNAP0 to 15 (R80), SLACK_SNAP, SNAP_TIME (R52, R80); reset 0. -/
  idleSnap : Tbl (BitVec 56) := []
  slackSnap : W32 := 0
  snapTime : W64 := 0
  /-- THREAD_CTL.CONTEXTS, 0 to 4 (R80, R100); reset 0. -/
  threads : Nat := 0
  /-- The context that issued last in threaded mode (R100); reset 0. -/
  lastCtx : Nat := 0
  /-- The contexts passed over in this reed cycle, because their next instruction must wait (R100); reset none. -/
  passed : List Nat := []
  /-- Program memory, 2,048 words of 64 bits (R83); reset: design choice 0 (entry 7). -/
  pmem : Tbl W64 := []
  /-- Scratchpad, 256 KiB (R21, R81, R109). -/
  spad : Mem := []
  /-- Scratchpad tags, 1,024 of 2 bits (R102); reset: design choice EMPTY (entry 7). -/
  tags : Tbl Tag := []
  /-- The tags as they stood at the start of this reed cycle, of the slots whose tag has changed in it (R87); reset none. -/
  tagWas : Tbl Tag := []
  /-- The scratchpad's words by the time base at which each was last scrubbed or written, and by bank the word that the scrubber reads next
  (R116); reset: no word covered since reset, each bank's first word. -/
  cover : Tbl W64 := []
  scrubAt : Tbl Nat := []
  /-- Handle table, 64 entries of 128 bits (R106); reset 0, INVALID. -/
  handles : Tbl (BitVec 128) := []
  /-- QI0 to QI7 and QO0 to QO7 (R78, R117, R118). -/
  qi : Tbl InQ := []
  qo : Tbl OutQ := []
  /-- The four accumulator tiles (R140). -/
  acc : Tbl AccTile := []
  /-- RB0 and RB1, invalid at each step's start (R138, R139). -/
  banks : Tbl Bank := []
  /-- The bank the next MRES loads, and the bank of the latest MRES (R139). -/
  nextBank : Nat := 0
  curBank : Option Nat := none
  /-- Issued matrix instructions that have not finished, at most four (R149); reset none. -/
  matq : List MatOp := []
  /-- The queue of finished tiles, at most four (R197); reset none. -/
  fin : List FinTile := []
  /-- The eight monitor slots (R163). -/
  mon : Tbl MonSlot := []
  /-- It has sent its monitor slots and row counts at this step's drain (R164, R199); reset not. -/
  told : Bool := false
  /-- NaN rows and infinite rows counted by FINISH since the last drain (R198, R199); reset 0. -/
  nanRows : W32 := 0
  infRows : W32 := 0
  /-- The next control-token sequence number, 24 bits (R99); 0 at each step's start. -/
  ctokSeq : BitVec 24 := 0
  /-- Dependence marks issued and not yet met by the fetch engine (R95). -/
  marks : List Mark := []
  /-- Operations outstanding, and the number of the next (R88). -/
  ops : List OpRec := []
  nextOp : Nat := 0
  /-- The operations of the previous block that the next block's first firing awaits (R88). -/
  blockOps : List Nat := []
  /-- The fetch engine's descriptor queue, at most 16 (R94). -/
  descq : List Nat := []
  /-- The halted descriptors that keep the fetch engine halted (R96, R234, R235), oldest first; reset none. -/
  streamHalts : List Nat := []
  /-- Hold buffer of 4 slot writes that other parties sent (R104). -/
  hold : List FillW := []
  /-- The execute engine issued, or an engine advanced, in this cycle (R50, R51). -/
  issued : Bool := false
  /-- A re-read or second read of an awaited word is outstanding (R115, R133, R236). -/
  correcting : Bool := false
  /-- Scratchpad words under correction, or read a second time, with the reed cycles left until their data is usable (R43, R114, R115). -/
  corr : Tbl Nat := []
  /-- The reed cycles for which a word of the accumulator memory is still under correction (R144); reset 0. -/
  accCorr : Nat := 0
  /-- The reed, or its matrix engine, has stopped its own clock (R327). -/
  gated : Bool := false
  matGated : Bool := false
  deriving DecidableEq, Repr

/-! ### The tussock, the fabric and the tiers (chapters 5, 10, 11) -/

/-- The mode of a sluice path (R122). -/
inductive PathMode where
  | off | split | select
  deriving DecidableEq, Repr

/-- An input buffer of a sluice path (R121, R122): its pointers in two copies of 6 bits, and its tokens, oldest first; reset empty. -/
structure SBuf where
  wr : BitVec 6 := 0
  wr2 : BitVec 6 := 0
  rd : BitVec 6 := 0
  rd2 : BitVec 6 := 0
  toks : List Token := []
  deriving DecidableEq, Repr

/-- A sluice path: its setting (R122), its buffers of 32 tokens and its counter k (R124). -/
structure Path where
  mode : PathMode := .off
  ctlReed : Nat := 0
  fanM1 : Nat := 0
  packetTokens : Nat := 0
  epBase : Nat := 0
  epOne : Nat := 0
  /-- Data input buffers, 32 tokens per input (R122); reset empty. -/
  data : Tbl SBuf := []
  /-- Control buffer, 32 control tokens (R122); reset empty. -/
  ctl : SBuf := {}
  /-- k, 24 bits (R124); 0 at each step's start. -/
  k : BitVec 24 := 0
  /-- The selector of the packet that is being forwarded, and how many of its tokens have left each data input (R125); reset none. -/
  fwd : Option Nat := none
  sent : Tbl Nat := []
  /-- Credits held for each destination endpoint, two copies (R118, R121); reset 32. -/
  cr : Tbl Nat := []
  cr2 : Tbl Nat := []
  deriving DecidableEq, Repr

/-- A merge group at a pool or an HBM4 controller (R113). -/
structure Group where
  id : Nat
  isOpen : Bool := true
  base : Nat
  slots : Nat
  mode : Nat
  run : Nat
  stride : Nat
  /-- When its window closes (R113): in reed cycles of a pool's tussock, in mesh cycles at an HBM4 controller. -/
  until_ : Nat := 0
  /-- A slot of it has changed its tag since the first read arrived. -/
  changed : Bool := false
  members : List Nat
  /-- The next slot index to read. -/
  next : Nat := 0
  deriving DecidableEq, Repr

/-- What a packet of the dyke mesh carries, by its type (R243). -/
inductive Payload where
  | token (tok : Token) (dest : Dest)
  | null (n : Nat) (seq : BitVec 24) (dest : Dest)
  | fill (w : FillW) (xfer : Option Nat) (idx : Nat)
  | readReq (xfer : Nat)
  | readResp (xfer : Nat) (idx : Nat) (data : List Byte)
  | merged (xfers : List Nat) (idx : Nat) (data : List Byte)
  | ack (reed : Nat) (op : Nat)
  | trickle (ts : List FillW)
  | contribution (tile : List Byte) (group : Nat) (norm : W32) (reed : Nat) (op : Nat) (q : Nat) (sp : Space) (landing : Nat) (half i : Nat)
  deriving DecidableEq, Repr

/-- A packet with the side word's fields that steer it (R243). -/
structure Pkt where
  src : Node
  dst : Node
  /-- The plane it travels on (R246). -/
  plane : Nat := 0
  /-- DEST_PORT (R243): 0 to 23 reed, 24 pool, 25 sluice, 32 edge unit, 33 crossbar half. -/
  port : Nat
  /-- The grip column for an edge unit (R245). -/
  col : Nat := 0
  /-- SLOT (R243): the destination slot, 0 where none applies. -/
  slot : Nat := 0
  /-- The requester of the injection hierarchy it comes from (R259): 3 × reed, plus 0 for its fetch engine, 1 for its
  stores, 2 for its output queues; 72 the sluice, 73 pool egress, 74 the trickle batcher, 75 an edge unit. -/
  leaf : Nat := 75
  rsp : Bool
  epoch : BitVec 3
  age : BitVec 14 := 0
  flits : Nat
  pay : Payload
  deriving DecidableEq, Repr

/-- An arbiter (R254 to R256): grants given since device reset, the owner of the present grant with the beats it has used and its burst limit,
for each requester by its index the arbiter cycle at which its back-off ends with its last doubled value, and the time base at which its request
first lost a grant. -/
structure Arb where
  grants : Nat := 0
  owner : Option Nat := none
  beats : Nat := 0
  limit : Nat := 0
  back : Tbl (Nat × Nat) := []
  since : Tbl Nat := []
  deriving DecidableEq, Repr

/-- A tussock (R16, R102 to R125, R229). -/
structure Tussock where
  /-- The configuration epoch, 3 bits (R71); reset 0. -/
  epoch : BitVec 3 := 0
  /-- The partition whose section holds the tussock (R56, R76); reset none. -/
  owner : Option Nat := none
  /-- The pool, 4 MiB (R109), its 16,384 tags (R102) and its 256 handles of 64 bits (R107); reset 0, EMPTY, 0. -/
  pool : Mem := []
  tags : Tbl Tag := []
  handles : Tbl W64 := []
  /-- The tags of the pool as they stood at the start of this reed cycle, of the slots whose tag has changed in it (R87); reset none. -/
  tagWas : Tbl Tag := []
  /-- The pool's words by the time base at which each was last scrubbed or written, and by bank the word that the scrubber reads next (R116). -/
  cover : Tbl W64 := []
  scrubAt : Tbl Nat := []
  /-- Pool words under correction, or read a second time, with the reed cycles left until their data is usable (R43, R114, R115). -/
  corr : Tbl Nat := []
  /-- Reed cycles of the island since device reset, by which its bank arbiters count their back-offs (R255); reset 0. -/
  cycles : Nat := 0
  /-- The banks of its memories that have made their one access in this reed cycle (R109): of local reed i under i, of the pool under 24. -/
  banks : Tbl (List Nat) := []
  /-- Ingress hold buffer of 16 slot writes (R104). -/
  hold : List FillW := []
  /-- The 16 sluice paths and the 64 endpoints of 32 bits (R122); reset 0, OFF. -/
  paths : Tbl Path := []
  eps : Tbl W32 := []
  groups : List Group := []
  nextGroup : Nat := 0
  /-- Trickle batches open, by destination tussock, each with the time base at its first transfer (R229). -/
  batches : Tbl (W64 × List FillW) := []
  /-- Reads that joined a merge group at the pool (R113); reset 0. -/
  mergedReads : Nat := 0
  /-- Packets delivered and not yet taken. -/
  arrived : List Pkt := []
  /-- The broadcasts received and not yet acted on (R253): APPLY, type, value; reset none. -/
  bcasts : List (W32 × Nat × W64) := []
  /-- Pool banks and sluice paths that have stopped their own clocks (R327). -/
  gatedBanks : List Nat := []
  gatedPaths : List Nat := []
  /-- The island's clock is stretched on droop (R25, R334); reset false. -/
  stretched : Bool := false
  deriving DecidableEq, Repr

/-- An HBM4 stack with its controller (R216, R236). -/
structure Stack where
  /-- 48 GiB (R216). -/
  mem : Mem := []
  /-- Merge groups at the controller (R113). -/
  groups : List Group := []
  nextGroup : Nat := 0
  /-- Reads that joined a merge group at the controller (R113); reset 0. -/
  mergedReads : Nat := 0
  arrived : List Pkt := []
  /-- Ranges that await zeroing (R357): first address and length. -/
  zeroing : List (Nat × Nat) := []
  deriving DecidableEq, Repr

/-- A crossbar half as a node of the dyke mesh (R242): packets delivered and not yet taken. -/
structure Half where
  arrived : List Pkt := []
  deriving DecidableEq, Repr

/-- A router of one plane (R241, R247): its input buffers by 2 × input + VC, and what waits to enter the grid here (R259). -/
structure Router where
  bufs : Tbl (List Pkt) := []
  inj : List Pkt := []
  deriving DecidableEq, Repr

end Sys2Proof.Machine
end

