-- ==== Sys2Proof/Machine/StateDevice.lean ====
section
/-! DEFINITION. The part of the state that sections, partitions, tiers, host ports, the log and the management island hold,
with its values after reset. -/
namespace Sys2Proof.Machine

/-! ### Faults and the error log (R411, R420 to R423) -/

/-- A cause of a section fault (R411). -/
inductive SCause where
  | drainLimit | peerSectionFault | progressLimit | mireStartLate | hostLost | fenHung | handleBound | descriptorShape
  | queuePointer | sluiceSequence | sluiceSelect | vectorLength | vectorAlign | vectorOperand | spadUncorrectable
  | poolUncorrectable | accUncorrectable | tileCrc | tileFormat | matrixShape | tileExtent | hbmUncorrectable
  | boardUncorrectable | hostData | hostPage | resupplyFailed | resupplyOverflow | resupplyLimit | sealExhausted
  | meshMisroute | meshLink | rillMisroute | lodeDown | configMismatch | windowLimit | multicastTimeout | sumpResidue
  | sumpCount | sumpLimit
  deriving DecidableEq, Repr

/-- An entry of the error log (R421). -/
structure LogRec where
  seq : Nat
  cause : Nat
  cls : Nat
  secondary : Bool := false
  coalesced : Bool := false
  persisted : Bool := false
  unverified : Bool := false
  fromEast : Bool := false
  time : W64
  part : Option Nat := none
  count : Nat := 1
  sectionId : Nat := 0
  step : Nat := 0
  /-- A unit word of R415. -/
  unit : Nat := 0
  detailWord : Nat := 0
  /-- The items the raising rule names, in order: their widths in bits and values (R421 DETAIL). -/
  detail : List (Nat × Nat) := []
  /-- Has a read returned this entry (R389 LOG_LOST)? No part of the 64 bytes. -/
  wasRead : Bool := false
  deriving DecidableEq, Repr

/-- The error log (R420, R422, R389). -/
structure ErrLog where
  /-- The ring of 4,096 entries, oldest first; reset empty, then the flash log's entries. -/
  ring : List LogRec := []
  /-- The next sequence number, 32 bits; reset: highest number of the flash log plus one. -/
  next : Nat := 1
  /-- The flash log of 1,024 records (R422); outside the rails' loss. -/
  flash : List LogRec := []
  /-- The tags of those records, each chained over the one before, and the records ever written there (R422). -/
  tags : List (BitVec 128) := []
  flashCount : Nat := 0
  deriving DecidableEq, Repr

/-! ### Completions and host ports (chapter 18) -/

/-- A completion entry (R398) before its PHASE: bytes 8 to 63 as one little-endian number. -/
structure Cpl where
  type : Nat
  status : Nat := 0
  part : Nat := 0
  calib : Bool := false
  cmdId : W32 := 0
  body : BitVec 448 := 0
  deriving DecidableEq, Repr

/-- The 64 bytes of a completion entry written with a phase (R7, R398). -/
def Cpl.bytes (e : Cpl) (phase : Bool) : List Byte :=
  leBytes 1 e.type ++ leBytes 1 e.status ++ leBytes 1 e.part ++ leBytes 1 (b2n phase + 2 * b2n e.calib) ++ leBytes 4 e.cmdId.toNat
    ++ leBytes 56 e.body.toNat

/-- A ring of a host port (R395, R396). -/
structure Ring where
  /-- CMD_BASE and CPL_BASE, 64 bits; reset 0. -/
  cmdBase : W64 := 0
  cplBase : W64 := 0
  /-- RING_CTL, 32 bits; reset 0. -/
  ctl : W32 := 0
  /-- CMD_HEAD and CPL_TAIL; reset 0. -/
  cmdHead : Nat := 0
  cplTail : Nat := 0
  /-- The doorbells CMD_TAIL and CPL_HEAD (R396); reset 0. -/
  cmdTail : Nat := 0
  cplHead : Nat := 0
  /-- The phase of the completion ring (R395, R398). -/
  phase : Bool := true
  /-- RING_STATUS.ERROR: 0 none, 1 doorbell, 2 ring read, 3 completion write; reset 0. -/
  error : Nat := 0
  /-- RING_STATUS.DRAINING; reset 0. -/
  draining : Bool := false
  /-- Commands started and not ended, by CMD_ID, and those of them whose completions are discarded (R395). -/
  started : List W32 := []
  discard : List W32 := []
  /-- A COMMAND_DONE that waits for a slot, which holds back the ring's further commands (R399). -/
  held : List Cpl := []
  /-- Entries written since the vector last fired, and the time of the first of them (R400). -/
  unsignalled : Nat := 0
  firstUnsig : W64 := 0
  deriving DecidableEq, Repr

/-- A tile aperture window (R401). -/
structure Aperture where
  /-- APERTUREw, 64 bits; reset 0. -/
  reg : W64 := 0
  /-- The read buffer: tile number and its sealed copy. -/
  rd : Option (Nat × Sealed) := none
  /-- The write buffer: tile number, and the 64-byte units present, by number. -/
  wrTile : Option Nat := none
  wr : Tbl (List Byte) := []
  deriving DecidableEq, Repr

/-- A page request that is outstanding or waits (R233): the descriptor it answers, its group, when it was sent. -/
structure PageReq where
  xfer : Nat
  group : Nat
  sent : W64
  limit : Nat
  outstanding : Bool
  deriving DecidableEq, Repr

/-- Why a host is lost (R403). -/
inductive LossKind where
  | linkDown | perst | flr | busMaster | heartbeat | refclk
  deriving DecidableEq, Repr

/-- A host port (chapter 18). -/
structure Port where
  /-- PORT_STATUS.RATE, WIDTH and FLIT (R395); reset 0. -/
  rate : Nat := 0
  width : Nat := 0
  flit : Bool := false
  /-- INT_STATUS, 32 bits, W1C; reset 0. -/
  intStatus : W32 := 0
  /-- INT_MASK, 32 bits; reset 0xFFFFFFFF. -/
  intMask : W32 := 0xFFFFFFFF
  /-- HEARTBEAT and HEARTBEAT_LIMIT, 32 bits; reset 0. -/
  heartbeat : W32 := 0
  hbLimit : W32 := 0
  /-- When the last heartbeat came. -/
  hbTime : W64 := 0
  /-- PART_NOTIFY0 to 7 (R395); reset 0. -/
  notify : Tbl W32 := []
  apert : Tbl Aperture := []
  rings : Tbl Ring := []
  /-- The ring that the rotation of R397 considers next; reset 0. -/
  turn : Nat := 0
  /-- MSIX_TABLE: 64 entries of 128 bits (R395); reset 0. -/
  msix : Tbl (BitVec 128) := []
  /-- MSIX_PBA, 64 bits; reset 0. -/
  pba : W64 := 0
  /-- Notices that wait, at most 64, with their rings (R399). -/
  notices : List (Nat × Cpl) := []
  /-- The host is lost (R403): the reasons that hold. A host is not lost at reset. -/
  loss : List LossKind := []
  /-- The recovery registers (R405): RCV_ADDR, RCV_BYTES, RCV_SLOT, RCV_STATUS; reset 0. -/
  rcvAddr : W64 := 0
  rcvBytes : W32 := 0
  rcvSlot : Byte := 0
  rcvStatus : Nat := 0
  /-- The address translation cache, at most 4,096: page base and size, and whether it grants writing (R232, R233). -/
  atc : List (Nat × Nat × Bool) := []
  /-- Page requests in order; the host's allocation; requests stopped after a Response Failure (R233). -/
  reqs : List PageReq := []
  reqMax : Nat := 1
  reqStop : Bool := false
  nextGroup : Nat := 0
  /-- Invalidations that wait for transfers to end: tag, base, size (R232). -/
  invals : List (Nat × Nat × Nat) := []
  deriving DecidableEq, Repr

/-! ### Tiers (chapter 10) -/

/-- A placement (R220, R222). -/
structure Placement where
  tensor : Nat
  rows : Nat
  cols : Nat
  fmt : Nat
  word : W64
  instances : Nat := 1
  /-- The space: pool slots of a section, a stack, a board-tier controller, a port's address space; none for RECOMPUTE. -/
  space : Option Space
  addr : Nat
  size : Nat
  /-- Of a tensor in the pools: the tiles in each pool, as tussock, first slot and tiles (R59). -/
  pools : List (Nat × Nat × Nat) := []
  deriving DecidableEq, Repr

/-- A host region (R231). -/
structure Region where
  port : Nat
  base : Nat
  size : Nat
  deriving DecidableEq, Repr

/-- An entry of the resupply table (R238, R239). -/
structure Resup where
  idx : Nat
  serial : Nat
  tensor : Nat
  row : Nat
  col : Nat
  space : Space
  addr : Nat
  /-- When it was opened, and the limit in force then, in ms (R240). -/
  opened : W64
  limit : Nat
  /-- The streams that joined: descriptor and first slot index. -/
  joined : List (Nat × Nat) := []
  /-- RESUPPLY_REQUEST has been posted (R239). -/
  posted : Bool := false
  deriving DecidableEq, Repr

/-- A token bucket (R227): the fraction and the tokens in bytes. -/
structure Bucket where
  frac : Nat := 0
  tokens : Nat
  deriving DecidableEq, Repr

/-- A failed read of one tile that awaits its retry (R237): the descriptor and the tile's first slot index. -/
structure RetryRec where
  xfer : Nat
  idx : Nat
  deriving DecidableEq, Repr

/-! ### Windows (R284 to R286) -/

/-- A window of a partition (R284). -/
structure Window where
  isOpen : Bool := false
  /-- The 16-bit epoch; reset 0. -/
  epoch : W16 := 0
  hbm : Bool := false
  /-- The tussock, or the stack. -/
  place : Nat := 0
  first : Nat := 0
  slots : Nat := 0
  /-- The peer box x0, x1, y0, y1, z0, z1. -/
  box : List Nat := []
  /-- A close waits for puts already accepted (R285). -/
  closing : Bool := false
  /-- Puts accepted and not yet written: number, sender, offset, writes to come; the next number. -/
  puts : List (Nat × Nat × Nat × Nat) := []
  nextPut : Nat := 0
  deriving DecidableEq, Repr

/-- A peer descriptor (R284). -/
inductive PeerDesc where
  | unicast (dev : Nat) (win : Nat) (epoch : W16)
  | multicast (group : Nat)
  deriving DecidableEq, Repr

/-! ### Keys (R352 to R354) -/

/-- A tier key: its 256 bits, SEALER, the 48-bit counter, whether it was installed as a job key. -/
structure TierKey where
  key : BitVec 256
  sealer : W16 := 0
  ctr : Nat := 0
  job : Bool := false
  deriving DecidableEq, Repr

/-! ### Numerics (R163 to R175) -/

/-- A numerics record (R173). -/
structure NumRec where
  tensor : Nat
  step : Nat := 0
  scale : Byte := 0
  valid : Bool := false
  calibrated : Bool := false
  overflowLast : Bool := false
  skippedLast : Bool := false
  amaxLast : W32 := 0
  elems : W64 := 0
  zeros : W64 := 0
  unders : W64 := 0
  overs : W32 := 0
  nonfin : W32 := 0
  zeroStreak : W32 := 0
  underStreak : W32 := 0
  skippedTotal : W32 := 0
  /-- AMAX_HIST, oldest first, at most 16. -/
  hist : List W32 := []
  deriving DecidableEq, Repr

/-- The merged counts of a tensor in a step (R164). -/
structure Merge where
  step : W64
  tensor : Nat
  /-- The tensor's NUMERICS word and format (R162); the step was a calibration step (R175). -/
  numerics : W64 := 0
  fmt : Fmt := .fp32
  calib : Bool := false
  amax : W32 := 0
  elems : W64 := 0
  zeros : W64 := 0
  unders : W64 := 0
  overs : W32 := 0
  nonfin : W32 := 0
  /-- SQNORM_TOTAL of a reduced gradient, as the sump reported it (R169, R304). -/
  sqnorm : Option W32 := none
  deriving DecidableEq, Repr

/-! ### Sections (chapter 3, chapter 9) -/

/-- A choice record (R215). -/
structure Choice where
  opId : Nat
  reed : Nat
  resident : Nat
  order : Nat
  g : Nat
  chains : Nat
  kblk : Nat
  flags : Nat
  candidates : Nat
  spadKib : Nat
  e : Nat
  mresCount : Nat
  fetchBytes : Nat
  bound : Nat
  deriving DecidableEq, Repr

/-- A section that is staged or runs (R56 to R75). -/
structure Sect where
  img : Image
  sectionId : Nat
  w : Nat
  h : Nat
  x0 : Nat
  y0 : Nat
  /-- M and D (R64). -/
  m : Nat
  d : Nat
  /-- The pass (R57): 0 FULL, 1 FWD, 2 BWD. -/
  pass : Nat
  /-- First step, steps in all, steps still to run with the present one. -/
  first : W64
  steps : Nat
  left : Nat
  /-- The image digest, the mapping digest, the configuration fingerprint (R32, R305, R351). -/
  digest : BitVec 256 := 0
  mapping : W64 := 0
  fingerprint : W64 := 0
  /-- The placements it uses, by tensor (R222). -/
  uses : List Nat := []
  /-- Groups it binds (R291). -/
  groups : List GroupDecl := []
  /-- The drain limit taken at its PREPARE, in mesh cycles (R70). -/
  drainLimit : Nat := 65536
  /-- The job seed (entry 32). -/
  seed : W64 := 0
  /-- The MRES and MMAC sequences that the tile chooser placed, by OP_ID (R207). -/
  nests : List (Nat × List NestRun) := []
  deriving DecidableEq, Repr

/-- The phase of a running section: committed and awaiting its start, or running until it has drained. -/
inductive RunPhase where
  | waitStart | running
  deriving DecidableEq, Repr

/-- The running section of a partition. -/
structure Run where
  sec : Sect
  /-- The step in progress, or the next to start. -/
  step : W64
  phase : RunPhase := .waitStart
  /-- The step is a calibration step (R175). -/
  calib : Bool := false
  /-- UNLOAD bit 1: no further re-arm (R397). -/
  stop : Bool := false
  /-- The time base at which its last reed ended its last firing (R70), at which it last made progress (R408). -/
  ended : Option W64 := none
  progress : W64 := 0
  /-- A step completion waits for a slot, which delays the next start (R399). -/
  cplWait : Bool := false
  /-- Its drain report has gone to the mire master (R74), and the tick the start message chose (R282). -/
  reported : Bool := false
  tick : Option W64 := none
  /-- The tussocks that have acknowledged the armed notice of phase E (R72). -/
  acked : List Nat := []
  deriving DecidableEq, Repr

/-- The phase of a load (chapter 3). -/
inductive LoadPhase where
  | staged | verified | notice | armed
  deriving DecidableEq, Repr

/-- A load between STAGE and COMMIT (R66 to R68). -/
structure Staged where
  port : Nat
  ring : Nat
  cmdId : W32
  auto : Bool
  sec : Sect
  phase : LoadPhase := .staged
  /-- The length of its PREPARE in µs (R67). -/
  prepUs : Nat := 0
  /-- The tensors whose placements its PREPARE added (R223). -/
  added : List Nat := []
  /-- The fens whose control core has done its share of PREPARE, as CC0 knows it (R23). -/
  shares : List Nat := []
  deriving DecidableEq, Repr

/-- A section fault as its host and its mire are told of it (R75, R398, R410): cause, log number, SECTION_ID, step. -/
structure FaultNote where
  code : Nat
  seq : Nat
  sectionId : Nat
  step : W64
  deriving DecidableEq, Repr

/-- A partition (R76, R77). -/
structure Part where
  /-- A section fault of this mesh cycle, not yet told to its host and its mire (R75, R410). -/
  faultNote : Option FaultNote := none
  /-- The SEAL and OPEN keys, and a pending install with whether it is into OPEN (R352, R353); reset: see State.reset. -/
  sealKey : Option TierKey := none
  openKey : Option TierKey := none
  pendingKey : Option (Bool × TierKey) := none
  manifest : Option Manifest := none
  run : Option Run := none
  staged : Option Staged := none
  /-- The partition's last section faulted and none has been loaded since (R388 PART_STATE). -/
  faulted : Bool := false
  /-- The placement table of 4,096 entries (R222). -/
  places : List Placement := []
  /-- The 16 host regions (R231). -/
  regions : Tbl Region := []
  windows : Tbl Window := []
  peers : Tbl PeerDesc := []
  /-- The target boxes of the 32 multicast groups (R287). -/
  mboxes : Tbl (List Nat) := []
  /-- The resupply table of 64 entries, and the next serial (R238, R398). -/
  resup : List Resup := []
  resupSerial : Nat := 0
  /-- Tiles resupplied in the step in progress (R238). -/
  resupDone : List (Nat × Nat) := []
  /-- The numerics records and the merges not yet applied (R164, R173, R323). -/
  numer : List NumRec := []
  merges : List Merge := []
  /-- The last step that has drained and whose records are not yet applied, and the last calibration step counted (R165, R171, R175). -/
  drainedStep : Option W64 := none
  calibStep : Option W64 := none
  /-- The choice records of the last PREPARE (R215). -/
  choices : List Choice := []
  /-- Token buckets of the privileged channels, by 8 × channel + port or controller + 2 for a controller (R227). -/
  buckets : Tbl Bucket := []
  deriving DecidableEq, Repr

/-! ### Start-up, fens and identity (chapters 16, 19) -/

/-- The phase of the reset sequence (R413). -/
inductive BootPhase where
  | held | phaseA | reeve | ccLoad | selfTest | training | ready | recovery
  deriving DecidableEq, Repr

/-- A firmware slot's state as the boot ROM finds it (R343, R344): whether it is valid, SEQ, SVN, KEY_INDEX, REVOKE_KEY0, BODY_DIGEST. -/
structure FwSlot where
  valid : Bool := true
  seq : W32 := 0
  svn : Nat := 0
  keyIndex : Nat := 0
  revoke : Bool := false
  digest : BitVec 256 := 0
  deriving DecidableEq, Repr

/-- The fuse bank (R342). -/
structure Fuses where
  secret : BitVec 256
  rootKey : BitVec 256
  fwKey0 : BitVec 256
  fwKey1 : BitVec 256
  serial : W64
  /-- Thermometer codes, 64 bits each; reset 0. -/
  svnReeve : W64 := 0
  svnCc : W64 := 0
  key0Revoked : Bool := false
  decommissioned : Bool := false
  deriving DecidableEq, Repr

/-- The recovery of a fen (R418): its step, and whether a step has failed once. -/
structure FenRec where
  step : Nat
  failed : Bool := false
  deriving DecidableEq, Repr

/-- A fen's control core as the reeve sees it (R417). -/
structure FenCtl where
  /-- Heartbeats sent and unanswered; reset 0. -/
  unanswered : Nat := 0
  recovering : Option FenRec := none
  /-- Rill messages delivered to the control core and not yet taken (R252). -/
  mail : List RillMsg := []
  deriving DecidableEq, Repr

/-- The board and the package as the device samples them (R414, R426 to R432). -/
structure Board where
  /-- The board configuration record's fields (R414), as read at phase B; an absent or invalid record leaves recordOk false. -/
  recordOk : Bool := false
  channelGib : Nat := 0
  lpddrRate : Nat := 0
  ocLimit : Nat := 200
  pmbusCount : Nat := 1
  /-- PMBUS_MAP: core-rail flag and address of each regulator. -/
  pmbusMap : List (Bool × Nat) := []
  /-- Straps sampled when reset is released (R431): NODE_ID, the PLCA node identifier; bit 0 REFMODE0, bit 1 REFMODE1, bit 2 XSPI_8D. -/
  nodeId : Byte := 0
  straps : Nat := 0
  deriving DecidableEq, Repr

end Sys2Proof.Machine
end

