-- ==== Sys2Proof/Machine/StateWide.lean ====
section
/-! DEFINITION. The part of the state that the lodes, the sump, the power loop, the management segment and the test port
hold, with its values after reset. -/
namespace Sys2Proof.Machine

/-! ### The sump (chapter 13) -/

/-- Where a quadrant's result lands (R293): space, first slot, quadrant. -/
structure Landing where
  space : Space
  slot : Nat
  quad : Nat
  reed : Nat
  op : Nat
  deriving DecidableEq, Repr

/-- A state slot of a crossbar half (R295). -/
structure SumpSlot where
  part : Nat
  group : Nat
  seq : Nat
  /-- The 1,024 ACC320 sums that are not 0, and the special map that is not 0 (R294). -/
  el : Tbl Int := []
  special : Tbl Nat := []
  residue : Nat := 0
  /-- Local contributions added, children whose partial is added, contributions of the whole subtree. -/
  local_ : Nat := 0
  kids : List Nat := []
  contribs : Nat := 0
  sq : Int := 0
  sqFlags : Nat := 0
  rows : Nat := 0
  cols : Nat := 0
  epoch : BitVec 3 := 0
  /-- The EF and REF tiles have been read (R303), as FP32 patterns by position; EF has been added. -/
  efRef : Option (Tbl W32 × Tbl W32) := none
  efDone : Bool := false
  landings : List Landing := []
  /-- The partial sent up, held until COMMIT (R300). -/
  sent : Option SumpPart := none
  /-- The staged result, and the children that have reported MC_LANDED (R298). -/
  result : Option SumpRes := none
  landed : List Nat := []
  landedUp : Bool := false
  /-- When it was taken, and when RESULT was sent (R298, R307). -/
  since : W64 := 0
  sentAt : Option W64 := none
  /-- The time base at which HOLD_LIMIT expires (R298). -/
  limitAt : Nat := 0
  /-- The special values that local contributions brought (R303). -/
  localSpecial : Tbl Nat := []
  /-- Partials being gathered from their packets, by child (R296), and thinned partials that await the mask. -/
  gather : Tbl SumpPart := []
  heldKids : Tbl SumpPart := []
  /-- The members asked to send again after a failed check (R300). -/
  asked : List Nat := []
  /-- MC_COMMIT has come and waits for the result buffer (R298). -/
  due : Bool := false
  deriving DecidableEq, Repr

/-- A contribution that waits above the window (R295). -/
structure SumpWait where
  tile : List Byte
  group : Nat
  norm : W32
  reed : Nat
  op : Nat
  quad : Nat
  space : Space
  slot : Nat
  epoch : BitVec 3
  deriving DecidableEq, Repr

/-- A result of the result buffer whose landings wait for their writes (R298): its number, partition, acknowledgements to come. -/
structure SumpOut where
  id : Nat
  part : Nat
  acks : Nat
  deriving DecidableEq, Repr

/-- A crossbar half's sump (R295). -/
structure SumpHalf where
  slots : List SumpSlot := []
  waits : List SumpWait := []
  /-- The result buffer of 64 (R298). -/
  buf : List SumpOut := []
  nextOut : Nat := 0
  deriving DecidableEq, Repr

/-- The norms of a tensor at the root (R304). -/
structure NormAcc where
  tensor : Nat
  sq : Int := 0
  sqFlags : Nat := 0
  tot : Int := 0
  totFlags : Nat := 0
  tiles : Nat := 0
  deriving DecidableEq, Repr

/-- A group's progress in the step (R295): BASE, the tiles above it already committed, the norms. -/
structure GroupRun where
  part : Nat
  group : Nat
  base : Nat := 0
  done : List Nat := []
  norms : List NormAcc := []
  deriving DecidableEq, Repr

/-! ### Lodes (chapter 12) -/

/-- The handshake of a lode (R355). -/
inductive HsState where
  | idle | hello | kemKey | cipher | done | failed | dead
  deriving DecidableEq, Repr

/-- A lode (R264 to R275, R355, R356). -/
structure Lode where
  /-- LSEQ of the next flit sent and of the next expected (R266); reset 0. -/
  txSeq : W16 := 0
  rxSeq : W16 := 0
  /-- FRAME_SEQ of the next frame in each direction, 48 bits (R267, R356); reset 0. -/
  txFrame : Nat := 0
  rxFrame : Nat := 0
  /-- Blocks sent since the lode came UP (R265; entry 149). -/
  txBlock : Nat := 0
  /-- NAK goes into the next control block (R272); the flit that failed once, and whether by its frame's tag. -/
  nak : Bool := false
  failed : Option (W16 × Bool) := none
  /-- The last 512 flits sent, and those to be sent again (R272). -/
  sent : List Flit := []
  again : List Flit := []
  /-- Egress queues by VC (R274), and the flits of the packet in progress already sent. -/
  egress : Tbl (List LPkt) := []
  cur : Option (Nat × Nat) := none
  /-- The sender's credits by VC (R274). -/
  credits : Tbl Nat := []
  /-- Credits to return with the next control block, by VC. -/
  back : Tbl Nat := []
  /-- Rill-extension messages that wait for RILL fields, and the words of the first already sent (R279). -/
  rillOut : List RillMsg := []
  rillPos : Nat := 0
  /-- Packets received whole and not yet taken, rill messages likewise. -/
  inbox : List LPkt := []
  rillIn : List RillMsg := []
  /-- Packets discarded as misrouted (R271; entry 150). -/
  misroutes : Nat := 0
  /-- Tokens one epoch ahead, held at ingress, 64 flits (R71, R271). -/
  held : List LPkt := []
  /-- The neighbour shows THROTTLE, LOCKED; its TB_SYNC and when it came (R267, R280). -/
  throttle : Bool := false
  locked : Bool := false
  tbSync : Nat := 0
  tbAt : W64 := 0
  /-- The TB_SYNC before the present one. -/
  tbPrev : Option Nat := none
  /-- The sections, by partition and SECTION_ID, whose traffic has used the lode (R273). -/
  users : List (Nat × Nat) := []
  /-- Corrected symbols by lane, and at the last check of R273. -/
  fec : Tbl Nat := []
  fecMark : Tbl Nat := []
  /-- The keys of both directions, the keys a rekey has agreed, and the SWITCH_SEQs (R355, R356). -/
  keyTx : Option (BitVec 256) := none
  keyRx : Option (BitVec 256) := none
  newTx : Option (BitVec 256) := none
  newRx : Option (BitVec 256) := none
  switchTx : Option Nat := none
  switchRx : Option Nat := none
  hs : HsState := .idle
  /-- Its handshake has failed once (R355). -/
  hsFailed : Bool := false
  /-- The ephemeral key pair's seed or the shared secret, and the transcript so far (R355). -/
  secret : BitVec 256 := 0
  transcript : List Byte := []
  rekey : Bool := false
  deriving DecidableEq, Repr

/-- A multicast at its root, a branch or a target (R287). -/
structure Mcast where
  part : Nat
  group : Nat
  seq : Nat
  slots : Nat
  /-- The parent device, or none at the root; the children. -/
  parent : Option Nat
  kids : List Nat
  /-- Children that have granted, and that have reported landed. -/
  granted : List Nat := []
  landed : List Nat := []
  /-- This device is a target: its slots are reserved, its data, whether all of it has landed. -/
  target : Bool := false
  reserved : Bool := false
  data : Tbl (List Byte) := []
  landedSelf : Bool := false
  /-- Whether MC_GRANT and MC_LANDED have gone up, or at the root the data and MC_COMMIT down. -/
  grantSent : Bool := false
  landedSent : Bool := false
  first : Nat := 0
  /-- At the root: the reed and operation that await it, the data, when MC_RESERVE left. -/
  reed : Option (Nat × Nat) := none
  bytes : List Byte := []
  /-- The time base at which HOLD_LIMIT expires. -/
  limitAt : Nat := 0
  /-- The root of the tree. -/
  root : Nat := 0
  deriving DecidableEq, Repr

/-- The mire as the device sees it (R67, R74, R280 to R282). -/
structure Mire where
  /-- At the master: armed notices: 8 × member + partition, fingerprint, first step, box, master; when a partition's first came. -/
  notices : List (Nat × W64 × W64 × W64 × Nat) := []
  firstAt : Tbl W64 := []
  /-- At the master: drain reports of the boundary: 8 × member + partition, feasible point. -/
  reports : List (Nat × Nat) := []
  /-- Accepted edges in a row with |e| ≤ 4, expected edges in a row without one (R280, R281); reset 0. -/
  goodEdges : Nat := 0
  missed : Nat := 0
  /-- The slew still to make, in counts, and mesh cycles since the last count (R280). -/
  slew : Int := 0
  slewAt : Nat := 0
  /-- The level of SYNC_OUT and when it rose; the number of the last accepted period (R267, R280). -/
  syncOut : Bool := false
  lastSync : Nat := 0
  deriving DecidableEq, Repr

/-! ### Power (chapter 15) -/

/-- The power loop and the emergency throttle (R326 to R340). Ratios are in units of 1/65,536 (entry 40). -/
structure Power where
  /-- Estimates of the window: sum in mW and count; current of the last, in A. -/
  estSum : Nat := 0
  estCount : Nat := 0
  amps : Nat := 0
  /-- The last measurement in W and whether a PMBus read has failed once, twice (R333). -/
  measured : Nat := 0
  /-- The last reading of each regulator in W (R332), by its number. -/
  watts : Tbl Nat := []
  failed : Tbl Bool := []
  pmbusFault : Bool := false
  /-- The last 64 windows' ratios, the calibration ratio, reset 1.0 (R332); the coefficients' scale. -/
  ratios : List Nat := []
  ratio : Nat := 65536
  coeff : Nat := 65536
  /-- Windows in a row out of DIVERGENCE_MARGIN: measured and estimated sums (R333). -/
  diverge : List (Nat × Nat) := []
  /-- A cap request is pending (R328). -/
  capPending : Bool := false
  /-- Emergency causes (R336): over-current, over-temperature, brake; since when each has been below its clearing level. -/
  overCurrent : Bool := false
  overTemp : Bool := false
  brake : Bool := false
  /-- A regulator reports an over-current warning (R336). -/
  ocWarn : Bool := false
  ocClear : Option W64 := none
  otClear : Option W64 := none
  /-- The device is throttled: it stays at P7 until a boundary (R337); since when; stage 2; firing starts held. -/
  throttled : Bool := false
  p7At : Option W64 := none
  stage2 : Bool := false
  hold : Bool := false
  /-- When BRAKE_N was accepted as asserted, whether BRAKE_HELD has been raised (R338). -/
  brakeAt : Option W64 := none
  brakeHeld : Bool := false
  /-- THERMTRIP_N asserted, every clock stopped (R339). -/
  tripped : Bool := false
  /-- A change to a lower-numbered point waits for the regulators (R331). -/
  settling : Option Nat := none
  /-- A trim or a change of OP_MAX awaits the next boundary (R335). -/
  trimPending : Nat := 0
  opMaxPending : Nat := 0
  /-- Partition energy in µJ not yet a whole mJ, by partition and 8 for the device (R340). -/
  energyFrac : Tbl Nat := []
  deriving DecidableEq, Repr

/-! ### The management segment (chapter 17) -/

/-- How the device transmits on the segment (R362): as the PLCA coordinator with a node count, as a follower in the transmit opportunity
of its identifier, or under CSMA/CD. -/
inductive SegAccess where
  | coordinator (nodes : Nat)
  | follower (id : Nat)
  | csmaCd
  deriving DecidableEq, Repr

/-- A cached response to a request (R373). -/
structure SCached where
  req : W32
  type : Nat
  status : Nat
  payload : List Byte
  deriving DecidableEq, Repr

/-- An event that awaits its acknowledgement (R380). -/
structure SEvent where
  req : W32
  entry : LogRec
  sends : Nat
  /-- When it was last sent. -/
  at_ : W64 := 0
  deriving DecidableEq, Repr

/-- A Sedge session (R370 to R374, R380). -/
structure Session where
  id : W32
  /-- The address its handshake came from, to which its messages go (entry 157). -/
  source : Nat := 0
  /-- The principal's number 0 to 15; 16 for vendor test. -/
  principal : Nat
  role : Nat
  partMask : Nat
  key : BitVec 512
  /-- The public key it was opened with (R370). -/
  pk : List Byte := []
  /-- The next count sent, the highest accepted, the counts accepted of the last 64 (R372). -/
  txCount : Nat := 1
  rxHigh : Nat := 0
  rxSeen : List Nat := []
  highReq : Nat := 0
  cache : List SCached := []
  /-- When the last datagram was accepted, in order of use (R374). -/
  lastUse : W64
  mask : W32 := 0
  events : List SEvent := []
  nextEvent : W32 := 1
  deriving DecidableEq, Repr

/-- A pending handshake (R370). -/
structure Handshake where
  principal : Nat
  role : Nat
  key : BitVec 256
  pk : List Byte := []
  transcript : List Byte
  session : W32
  secret : BitVec 256
  at_ : W64
  source : Nat
  deriving DecidableEq, Repr

/-- An incomplete message (R366). -/
structure Frag where
  source : Nat
  req : W32
  type : Nat
  parts : Tbl (List Byte)
  last : Option Nat
  at_ : W64
  deriving DecidableEq, Repr

/-- Duplicate Address Detection (R364). -/
inductive DadState where
  | running | usable | duplicate
  deriving DecidableEq, Repr

/-- The management segment and Sedge (R361 to R374). -/
structure Sedge where
  plcaOk : Bool := true
  dad : DadState := .running
  /-- The UDP port in use: 0x1000:02 as it stood at the last reset (R364, R387). -/
  port : Nat := 47110
  /-- When PLCA_ID_CONFLICT was last logged (R363). -/
  plcaLogged : Option W64 := none
  sessions : List Session := []
  pending : List Handshake := []
  frags : List Frag := []
  nextId : W32 := 1
  /-- The device-wide bucket and the HELLO bucket, in 1/1,600,000,000 of a message, and when each was last filled; the buckets by
  source (R368). Full at reset. -/
  anon : Nat × W64 := (32 * 1600000000, 0)
  hello : Nat × W64 := (4 * 1600000000, 0)
  bySource : Tbl (Nat × W64) := []
  /-- The open test challenge, and when it was read (R391). -/
  challenge : Option (BitVec 256 × W64) := none
  /-- Writes of persistent entries not yet stored, whether a store has failed once, responses of SYNC writes that
  wait with the principals they changed (R369, R383). -/
  dirty : Bool := false
  storeFailed : Bool := false
  syncWait : List (W32 × SCached × List Nat) := []
  /-- The bytes of the two copies in flash (R382); none where the copy was found or left invalid. -/
  copyA : Option (List Byte) := none
  copyB : Option (List Byte) := none
  /-- The bytes of the two copies of the out-of-service record in flash (R415). -/
  oosA : Option (List Byte) := none
  oosB : Option (List Byte) := none
  /-- When a copy was last stored (R383). -/
  storedAt : Option W64 := none
  /-- Requests to the security generator since its last reseed (R342). -/
  draws : Nat := 0
  deriving DecidableEq, Repr

/-! ### Boundary scan (chapter 20) -/

/-- The instruction register of the test access port (R435, R436). -/
inductive TapInstr where
  | idcode | bypass | samplePreload | extest | clamp | highz | extestPulse | extestTrain
  deriving DecidableEq, Repr

/-- The test access port (R434 to R437). -/
structure Tap where
  /-- The instruction register; test-logic reset loads IDCODE. -/
  ir : TapInstr := .idcode
  /-- The boundary register's 2,030 cells in chain order (R437): as captured from the lands, and as preloaded; reset 0 (entry 70). -/
  captured : BitVec 2030 := 0
  cells : BitVec 2030 := 0
  /-- The lands are driven from the boundary register; the outputs are in high impedance. -/
  driving : Bool := false
  hiz : Bool := false
  deriving DecidableEq, Repr

end Sys2Proof.Machine
end

