-- ==== Sys2Proof/Machine/State.lean ====
section
/-! DEFINITION. The state of the VG6144 as plain data: everything the manual gives the device, with its values after reset. -/
namespace Sys2Proof.Machine

/-- What the device sends out of its package, in order (entry 33). -/
inductive Out where
  /-- A completion entry written to a ring slot with its PHASE, as one 64-byte write to host memory (R398, R399): its address, its bytes. -/
  | cpl (port ring index : Nat) (phase : Bool) (e : Cpl) (addr : Nat) (bytes : List Byte)
  /-- An MSI-X message (R400). -/
  | msix (port vector : Nat)
  /-- Bytes written to host memory: a command's result buffer. -/
  | hostBytes (port addr : Nat) (bytes : List Byte)
  /-- A sealed tile written to host memory (R225). -/
  | hostTile (port addr : Nat) (t : Sealed)
  /-- A read request of a tile of host memory (R227, R233), a page request, an invalidation completion (R232). -/
  | hostRead (port addr : Nat)
  /-- A translation request of a page (R232). -/
  | atsRequest (port addr : Nat)
  | pageRequest (port addr group : Nat)
  | invalDone (port tag : Nat)
  /-- A lode frame (R265, R267): its flits and its control block, and the 18 blocks they leave as, each with its lane. -/
  | frame (lode : Nat) (flits : List Flit) (cb : CtlBlock) (blocks : List (Nat × List Byte))
  /-- A handshake message of a lode (R355) with its content. -/
  | lodeHs (lode : Nat) (step : HsState) (bytes : List Byte)
  /-- A message on the management segment (R365, R366): the IPv6 address it goes to, the ms it is delayed (R368), how the device
  transmits (R362), its IPv6 packets. -/
  | sedge (to_ delay : Nat) (access : SegAccess) (packets : List (List Byte))
  /-- Bytes written to board flash at an offset (R382). -/
  | flash (off : Nat) (bytes : List Byte)
  /-- The dictionary's answers to a caller: a host's DICT response buffer, or the answer to a single operation. -/
  | dict (to_ : Caller) (addr : Nat) (answers : List DictAns)
  /-- A heartbeat of the reeve to a control core (R417). -/
  | heartbeat (core : Nat)
  /-- The edge of SYNC_OUT (R280). -/
  | syncOut
  /-- The answer to a read of a tile aperture (R401): port, window, offset; the sealed copy it is served from, none for zeros. -/
  | aperture (port window off : Nat) (t : Option Sealed)
  /-- A read of a tile aperture for which there is no tile, or whose tile cannot be read or sealed: the manual gives no answer. -/
  | apertureOpen (port window off : Nat)
  deriving DecidableEq, Repr

/-- A snapshot whose counters are being latched or summed (R52, R390): its value, the time base of its issue, its APPLY
time base, whether it came from the mire's master to an unlocked member, the host command that awaits its latch (port, ring,
PART, CMD_ID). -/
structure Snap where
  value : W32
  issued : W64
  apply : W64
  unlocked : Bool := false
  cmd : Option (Nat × Nat × Nat × W32) := none
  deriving DecidableEq, Repr

/-- The state of the device and the queue of the commands that wait. -/
structure State where
  /-- Commands waiting, first in, first out; reset none. -/
  pending : List Instr := []
  /-- The 6,144 reeds (R17), by number. -/
  reeds : Tbl Reed := []
  /-- The 256 tussocks (R16), by number. -/
  tus : Tbl Tussock := []
  /-- The eight HBM4 stacks (R216). -/
  hbmStacks : Tbl Stack := []
  /-- The two crossbar halves as nodes of the dyke mesh (R242), and their sumps (R295). -/
  halves : Tbl Half := []
  sump : Tbl SumpHalf := []
  /-- Progress of the bound reduction groups in the step (R295). -/
  groups : List GroupRun := []
  /-- The routers of the dyke mesh by 256 × plane + tussock (R241); buffers empty at reset. -/
  mesh : Tbl Router := []
  /-- Arbiters of R254, by the number of their place (entry 42); reset: no grant given. -/
  arbs : Tbl Arb := []
  /-- Rill messages at each rill router, each with its input and age stamp (R252, R254); reset none. -/
  rillq : Tbl (List RillMsg) := []
  /-- Descriptors in progress (R94), and the number of the next. -/
  xfers : List Xfer := []
  nextXfer : Nat := 0
  /-- Sealed tiles of the board tier by controller and address (R216, R225); reset: none (entry 8). -/
  board : Tbl (Tbl Sealed) := []
  /-- Failed tier reads that await their retry (R237). -/
  retries : List RetryRec := []
  /-- The eight partitions (R76). -/
  parts : Tbl Part := []
  /-- The two host ports (chapter 18). -/
  ports : Tbl Port := []
  /-- The 24 lodes (chapter 12). -/
  lodes : Tbl Lode := []
  /-- Multicasts in progress (R287). -/
  mcasts : List Mcast := []
  nextMcast : Nat := 0
  /-- The mire (R67, R74, R280, R281). -/
  mire : Mire := {}
  /-- The power loop (R326). -/
  power : Power := {}
  /-- The error log (R420). -/
  log : ErrLog := {}
  /-- Values of dictionary entries by 256 × index + subindex, of those set since reset (R377 to R391). -/
  dict : Tbl Nat := []
  /-- CHANGE_COUNT of each index, 32 bits (R379); reset 0. -/
  changes : Tbl W32 := []
  /-- The sedge's part of the device (R394), and the TAP (R431). -/
  sedge : Sedge := {}
  tap : Tap := {}
  /-- The two fens' control cores as the reeve sees them (R417, R418). -/
  fens : Tbl FenCtl := []
  /-- The firmware slots: reeve A and B, control core A and B (R343); the slots that run (R345), 4 for
  a control-core slot that is not valid. -/
  slots : Tbl FwSlot := []
  bootSlot : Nat := 0
  ccSlot : Nat := 2
  /-- The fuse bank (R342); programmed at manufacture (entry 9). -/
  fuses : Fuses :=
    { secret := Config.fuse 0, rootKey := Config.fuse 1, fwKey0 := Config.fuse 2, fwKey1 := Config.fuse 3, serial := Config.serial }
  /-- The board configuration record and the straps (R414, R431); reset: an absent record (entry 9). -/
  boardRec : Board := {}
  /-- The phase of the reset sequence (R413); State.reset stands after phase H (entry 10). -/
  boot : BootPhase := .ready
  /-- The board tier's channels failed training or differ from the record (R217). -/
  boardOut : Bool := false
  /-- Units out of service, as unit words, ascending (R415), and the unit named to be tested at the next reset (R424). -/
  oos : List Nat := []
  retest : Option Nat := none
  /-- The out-of-service record as flash holds it (R415). -/
  oosFlash : List Nat := []
  /-- The crash record of 256 bytes (R416); lost on a cold reset. -/
  crash : Option (List Byte) := none
  /-- Peers that have announced emergency throttle (R283); reset none. -/
  throttled : List Nat := []
  /-- The time base, 64 bits, mesh cycles (R54, R280); reset 0. -/
  timeBase : W64 := 0
  /-- The causeway is enabled (R20); reset false. -/
  causeway : Bool := false
  /-- The snapshot in progress, and the writes of SNAPSHOT_CMD and host commands that wait for it (R390). -/
  snap : Option Snap := none
  snapWait : List (W32 × Option (Nat × Nat × Nat × W32)) := []
  /-- The power-up steps of R428 whose rails are in regulation, 0 to 4; RESET_N may be released at 4. -/
  rails : Nat := 4
  /-- The model's own counter of free values (entry 2); 1 in State.reset. -/
  freeCtr : Nat := 0
  /-- What the device has sent out of its package, oldest first (entry 33). -/
  out : List Out := []
  deriving DecidableEq, Repr

/-- The machine right after reset (R12, R352, R413): every field has its reset value; the sequence has run to phase H (entry 10) and
partition 0, which alone is defined, holds the SEAL key drawn for it. -/
def State.reset : State :=
  let k : TierKey := { key := Config.random 0 }
  { parts := [(0, { sealKey := some k })], freeCtr := 1, sedge := { draws := 1 } }

/-- Reasons a step stops with a fault: what the manual calls a fault of a section is a next state here (R75). -/
inductive Fault where
  /-- An access to an address that does not exist. No command raises it: the manual gives every such access an effect. Safe. -/
  | noSuchAddress
  deriving DecidableEq, Repr

/-- Reasons a command is refused by name. -/
inductive Refusal where
  /-- Raised by the arm of a command that has no meaning yet; safe. -/
  | notModelled (mnemonic : String)
  /-- Raised by BYPASS for a private opcode of the test access port in VENDOR_TEST, whose effect the manual keeps to Brixlys (R435); safe. -/
  | privateOpcode
  deriving DecidableEq, Repr

end Sys2Proof.Machine
end

