-- ==== Sys2Proof/Machine/Ops.lean ====
section
/-! DEFINITION. The named operations over memory, registers, tags, handles, queues and packets that the meanings share. -/
namespace Sys2Proof.Machine

/-! ### Memory (R7, R109) -/

/-- The byte at an address; an unlisted address reads 0 (entry 6). -/
def Mem.get : Mem → Nat → Byte
  | [], _ => 0
  | (k, b) :: m, a => if k = a then b else Mem.get m a

/-- Writes one byte, keeping the canonical form. -/
def Mem.put : Mem → Nat → Byte → Mem
  | [], a, b => if b = 0 then [] else [(a, b)]
  | (k, c) :: m, a, b =>
    if a < k then (if b = 0 then (k, c) :: m else (a, b) :: (k, c) :: m)
    else if a = k then (if b = 0 then m else (a, b) :: m)
    else (k, c) :: Mem.put m a b

/-- n bytes from an address. -/
def Mem.read (m : Mem) (a n : Nat) : List Byte := (upto a n).map m.get

/-- Writes bytes from an address upward. -/
def Mem.write : Mem → Nat → List Byte → Mem
  | m, _, [] => m
  | m, a, b :: t => Mem.write (m.put a b) (a + 1) t

/-- Every key lies above a bound and rises, and no listed byte is 0. -/
def Mem.above : Nat → Mem → Bool
  | _, [] => true
  | lo, (k, b) :: m => decide (lo ≤ k) && decide (b ≠ 0) && Mem.above (k + 1) m

/-- The canonical form of a memory. -/
def Mem.wf (m : Mem) : Bool := Mem.above 0 m

/-! ### Units of the state -/

/-- A reed. -/
def State.reed (s : State) (r : Nat) : Reed := Tbl.lk {} s.reeds r
/-- Replaces a reed. -/
def State.setReed (s : State) (r : Nat) (x : Reed) : State := { s with reeds := Tbl.up s.reeds r x }
/-- Changes a reed. -/
def State.modReed (s : State) (r : Nat) (f : Reed → Reed) : State := s.setReed r (f (s.reed r))
/-- A tussock. -/
def State.tus1 (s : State) (t : Nat) : Tussock := Tbl.lk {} s.tus t
/-- Replaces a tussock. -/
def State.setTus (s : State) (t : Nat) (x : Tussock) : State := { s with tus := Tbl.up s.tus t x }
/-- Changes a tussock. -/
def State.modTus (s : State) (t : Nat) (f : Tussock → Tussock) : State := s.setTus t (f (s.tus1 t))
/-- An HBM4 stack. -/
def State.stack (s : State) (i : Nat) : Stack := Tbl.lk {} s.hbmStacks i
/-- Changes a stack. -/
def State.modStack (s : State) (i : Nat) (f : Stack → Stack) : State :=
  { s with hbmStacks := Tbl.up s.hbmStacks i (f (s.stack i)) }

/-- The tussock of a reed (R17). -/
def tusOf (r : Nat) : Nat := r / 24
/-- The local index of a reed (R17). -/
def localOf (r : Nat) : Nat := r % 24
/-- The fen of a tussock: bit 7 of its number (R16). -/
def fenOf (t : Nat) : Nat := t / 128

/-- The epoch of a reed's tussock (R71). -/
def State.epochOf (s : State) (r : Nat) : BitVec 3 := (s.tus1 (tusOf r)).epoch

/-! ### Registers (R78, R100) -/

/-- A context of a reed. -/
def Reed.context (x : Reed) (k : Nat) : Ctx := Tbl.lk {} x.ctx k
/-- Replaces a context. -/
def Reed.setCtx (x : Reed) (k : Nat) (c : Ctx) : Reed := { x with ctx := Tbl.up x.ctx k c }
/-- Changes a context. -/
def Reed.modCtx (x : Reed) (k : Nat) (f : Ctx → Ctx) : Reed := x.setCtx k (f (x.context k))

/-- The number of a V register as a context names it (R100): context k of a threaded reed owns V8k to V8k + 7. -/
def Reed.vNum (x : Reed) (k i : Nat) : Nat := if x.threads = 0 then i else 8 * k + i % 8
/-- A V register. -/
def Reed.getV (x : Reed) (k i : Nat) : VReg := Tbl.lk 0 x.v (x.vNum k i)
/-- Writes a V register. -/
def Reed.setV (x : Reed) (k i : Nat) (w : VReg) : Reed := { x with v := Tbl.up x.v (x.vNum k i) w }
/-- An S register of a context. -/
def Ctx.getS (c : Ctx) (i : Nat) : W32 := Tbl.lk 0 c.s i
/-- Writes an S register. -/
def Ctx.setS (c : Ctx) (i : Nat) (w : W32) : Ctx := { c with s := Tbl.up c.s i w }
/-- An A register of a context. -/
def Ctx.getA (c : Ctx) (i : Nat) : W32 := Tbl.lk 0 c.a i
/-- Writes an A register. -/
def Ctx.setA (c : Ctx) (i : Nat) (w : W32) : Ctx := { c with a := Tbl.up c.a i w }

/-! ### Tags (R102, R103) -/

/-- The tag of a slot of a scratchpad or pool; the other spaces carry none (R218) and read FULL. -/
def State.tag (s : State) (sp : Space) (slot : Nat) : Tag :=
  match sp with
  | .spad r => Tbl.lk .empty (s.reed r).tags slot
  | .pool t => Tbl.lk .empty (s.tus1 t).tags slot
  | _ => .full

/-- The tag of a slot as it stood at the start of the reed cycle, which is what a guard sees (R87). -/
def State.tagBefore (s : State) (sp : Space) (slot : Nat) : Tag :=
  match sp with
  | .spad r => (Tbl.lk? (s.reed r).tagWas slot).getD (s.tag sp slot)
  | .pool t => (Tbl.lk? (s.tus1 t).tagWas slot).getD (s.tag sp slot)
  | _ => .full

/-- Keeps what a slot's tag was at the start of the reed cycle, once. -/
def noteTag (was : Tbl Tag) (slot : Nat) (old : Tag) : Tbl Tag := if (Tbl.lk? was slot).isSome then was else Tbl.up was slot old

/-- Slot i of a merge group's source (R111). -/
def Group.slot (g : Group) (i : Nat) : Nat := if g.mode = 1 then g.base + (i / g.run) * g.stride + i % g.run else g.base + i
/-- Is a slot one of a merge group's (R113)? -/
def Group.covers (g : Group) (slot : Nat) : Bool := (List.range g.slots).any (fun i => g.slot i == slot)

/-- Sets the tag of a slot; a pool's merge groups that read it note the change (R113). -/
def State.setTag (s : State) (sp : Space) (slot : Nat) (g : Tag) : State :=
  match sp with
  | .spad r => s.modReed r (fun x => { x with tags := Tbl.up x.tags slot g, tagWas := noteTag x.tagWas slot (Tbl.lk .empty x.tags slot) })
  | .pool t => s.modTus t (fun x => { x with
      tags := Tbl.up x.tags slot g, tagWas := noteTag x.tagWas slot (Tbl.lk .empty x.tags slot),
      groups := x.groups.map (fun h => if h.covers slot then { h with changed := true } else h) })
  | _ => s

/-- Sets the tags of a range of slots, in ascending order (R105), where a condition holds of the old tag. -/
def State.setTags (s : State) (sp : Space) (slot n : Nat) (g : Tag) (when_ : Tag → Bool) : State :=
  (upto slot n).foldl (fun s i => if when_ (s.tag sp i) then s.setTag sp i g else s) s

/-- Bytes of a scratchpad, pool or stack; the sealed tiers are read by whole tiles. -/
def State.bytes (s : State) (sp : Space) (a n : Nat) : List Byte :=
  match sp with
  | .spad r => (s.reed r).spad.read a n
  | .pool t => (s.tus1 t).pool.read a n
  | .hbm i => (s.stack i).mem.read a n
  | _ => rep n 0

/-- The words of len bytes at an address are covered at a time (R116). -/
def coverWords (c : Tbl W64) (a len : Nat) (now : W64) : Tbl W64 :=
  (upto (a / 64) ((a + len + 63) / 64 - a / 64)).foldl (fun c w => Tbl.up c w now) c

/-- Writes bytes of a scratchpad, pool or stack; a written word counts as covered (R116). -/
def State.putBytes (s : State) (sp : Space) (a : Nat) (bs : List Byte) : State :=
  match sp with
  | .spad r => s.modReed r (fun x => { x with spad := x.spad.write a bs, cover := coverWords x.cover a bs.length s.timeBase })
  | .pool t => s.modTus t (fun x => { x with pool := x.pool.write a bs, cover := coverWords x.cover a bs.length s.timeBase })
  | .hbm i => s.modStack i (fun x => { x with mem := x.mem.write a bs })
  | _ => s

/-! ### Handles (R106, R107, R108) -/

/-- The fields of a reed handle entry (R106). -/
structure HInfo where
  kind : Nat
  priv : Bool
  fill : Nat
  chan : Nat
  readOnly : Bool
  tussock : Nat
  poolHandle : Nat
  target : Nat
  size : Nat
  base : Nat
  deriving DecidableEq, Repr

/-- Reads the fields of a handle entry (R106). -/
def HInfo.ofBits (b : BitVec 128) : HInfo :=
  let n := b.toNat
  { kind := bits n 127 124, priv := bit n 123, fill := bits n 122 121, chan := bits n 120 119, readOnly := bit n 118,
    tussock := bits n 117 110, poolHandle := bits n 109 102, target := bits n 101 96, size := bits n 95 64, base := bits n 63 0 }

/-- The space a handle names (R106). -/
def HInfo.space (h : HInfo) (reed : Nat) : Option Space :=
  match h.kind with
  | 1 => some (.spad reed) | 2 => some (.pool h.tussock) | 3 => some (.hbm h.target) | 4 => some (.board h.target)
  | 5 => some (.host h.target) | 6 => some (.window h.target) | _ => none

/-- A handle of a reed. -/
def State.handle (s : State) (r h : Nat) : HInfo := HInfo.ofBits (Tbl.lk 0 (s.reed r).handles h)

/-- First slot and size of the buffer a handle names: a POOL handle takes both from the pool's handle table (R106, R107). -/
def State.extent (s : State) (h : HInfo) : Nat × Nat :=
  if h.kind = 2 then
    let p := (Tbl.lk 0 (s.tus1 h.tussock).handles h.poolHandle).toNat
    if bit p 63 then (bits p 61 48, bits p 47 34 + 1) else (0, 0)
  else (h.base, h.size)

/-- An address formed from a handle and an offset. -/
inductive Loc where
  | bound
  | at_ (h : HInfo) (sp : Space) (byteAddr : Nat)
  deriving DecidableEq, Repr

/-- The address of len bytes at an offset of a handle, or the bound fault of R108. -/
def State.locate (s : State) (r h off len : Nat) : Loc :=
  let i := s.handle r h
  let (base, size) := s.extent i
  match i.space r with
  | none => .bound
  | some sp => if off + len > 256 * size then .bound else .at_ i sp (256 * base + off)

/-! ### Idle causes (R51, R104) -/

/-- The code of an idle cause (R51). -/
def Cause.code : Cause → Nat
  | .busy => 0 | .waitInput => 1 | .waitOutput => 2 | .waitMemory => 3 | .waitCorrection => 4 | .waitPeer => 5
  | .waitPeerThrottled => 6 | .waitMulticast => 7 | .waitSump => 8 | .waitHost => 9 | .waitPoison => 10 | .drain => 11
  | .reconfig => 12 | .throttleLocal => 13 | .arbBackoff => 14 | .unassigned => 15

/-- The precedence of an idle cause (R51): the lowest number wins. -/
def Cause.prec : Cause → Nat
  | .busy => 5 | .waitInput => 14 | .waitOutput => 15 | .waitMemory => 13 | .waitCorrection => 7 | .waitPeer => 9
  | .waitPeerThrottled => 8 | .waitMulticast => 11 | .waitSump => 10 | .waitHost => 12 | .waitPoison => 6 | .drain => 3
  | .reconfig => 2 | .throttleLocal => 4 | .arbBackoff => 16 | .unassigned => 1

/-- The cause that wins under R51. -/
def Cause.first (a b : Cause) : Cause := if b.prec < a.prec then b else a

/-- Slot i of a descriptor's source: contiguous or in strided runs (R111). -/
def Xfer.srcSlot (x : Xfer) (i : Nat) : Nat :=
  if x.mode = 1 then x.srcBase + (i / x.run) * x.stride + i % x.run else x.srcBase + i

/-- Slot i of a descriptor's destination, always contiguous (R111). -/
def Xfer.dstSlot (x : Xfer) (i : Nat) : Nat := x.dstBase + i

/-- A slot's tag as an access that wants a certain tag sees it: a change to that tag is seen from the next reed cycle on, a change away from
it at once (R87, R105). -/
def State.tagFor (s : State) (want : Tag) (sp : Space) (slot : Nat) : Tag :=
  if s.tagBefore sp slot = want then s.tag sp slot else s.tagBefore sp slot

/-- The first slot of a range that an access that wants a tag does not see so. -/
def State.notTag (s : State) (sp : Space) (slot n : Nat) (g : Tag) : Option Nat :=
  (upto slot n).find? (fun i => s.tagFor g sp i != g)

/-- The first slot of a range whose tag at the start of the reed cycle, which a guard sees (R87), is not the wanted one. -/
def State.guardTag (s : State) (sp : Space) (slot n : Nat) (g : Tag) : Option Nat :=
  (upto slot n).find? (fun i => s.tagBefore sp i != g)

/-! ### Packets and messages (R243 to R246, R252) -/

/-- The flits of a packet by its payload (R243): a batch's transfers follow one flit of descriptors in 128-byte flits (R229), and a contribution
travels in fill-write packets (R293). -/
def Payload.flits : Payload → Nat
  | .token .. => 1 | .null .. => 1 | .fill .. => 2 | .readReq .. => 1 | .readResp .. => 2 | .merged .. => 3 | .ack .. => 1
  | .trickle ts => 1 + (sumOf (ts.map (fun w => w.data.length)) + 127) / 128 | .contribution .. => 2

/-- The type of a packet (R243). -/
def Payload.type : Payload → Nat
  | .token .. => 0 | .null .. => 1 | .fill .. => 2 | .readReq .. => 3 | .readResp .. => 4 | .merged .. => 5 | .ack .. => 6
  | .trickle .. => 7 | .contribution .. => 2

/-- Does the packet travel on VC RSP (R243)? -/
def Payload.rsp : Payload → Bool
  | .readResp .. | .merged .. | .ack .. => true
  | _ => false

/-- The tussock at which a packet enters or leaves the grid for a node: an edge unit's own end is a router of the row. -/
def Node.isTus : Node → Option Nat
  | .tus t => some t.val
  | _ => none

/-- Bits [17:4] of the time base: an age stamp (R257). -/
def State.stamp (s : State) : BitVec 14 := BitVec.ofNat 14 (s.timeBase.toNat / 16)

/-- Key of a router: plane and tussock. -/
def routerKey (plane t : Nat) : Nat := 256 * plane + t

/-- The first column of an HBM4 controller's edge unit (R242). -/
def stackCol (i : Nat) : Nat := 4 * (i % 2) + 8 * (i / 4)
/-- Does a controller lie on the north edge (R242): H0, H1, H4 and H5? -/
def stackNorth (i : Nat) : Bool := i % 4 < 2

/-- SRC_PORT (R243): reed, pool, sluice or edge unit index; the trickle batcher counts as the pool (entry 129). -/
def Pkt.srcPort (p : Pkt) : Nat :=
  match p.src with | .tus _ => if p.leaf < 72 then p.leaf / 3 else if p.leaf = 72 then 25 else 24 | .hbm i => i.val | .half h => h.val
/-- Does a packet travel over the mesh: not within one tussock, nor between two edge units (R19, R242)? -/
def Pkt.meshed (p : Pkt) : Bool :=
  match p.src, p.dst with
  | .tus a, .tus b => a != b
  | .tus _, _ => true
  | _, .tus _ => true
  | _, _ => false
/-- Is a packet part of a contribution, which the sump's arrival buffer takes from the crossing at once (R133, R293)? -/
def Pkt.contributes (p : Pkt) : Bool := match p.pay with | .contribution .. => true | _ => false
/-- The crossing through which a packet leaves the mesh at its node (R251; entry 138): one of each plane and VC, and of each grip at an edge
unit. -/
def Pkt.crossing (p : Pkt) : Nat × Bool × Nat := (p.plane, p.rsp, match p.dst with | .hbm _ => p.col | _ => 0)
/-- Do two packets keep their order (R246, R251): both in one crossing from the mesh, or both past the mesh with one source port and one destination port? -/
def Pkt.inOrder (p q : Pkt) : Bool :=
  !p.contributes && !q.contributes && p.crossing == q.crossing && p.meshed == q.meshed
    && (p.meshed || (p.src == q.src && p.srcPort == q.srcPort && p.port == q.port))

/-- Delivers a packet to a node; a contribution for the other crossbar half reaches it over the trunk (R19, R292). -/
def State.deliver (s : State) (p : Pkt) : State :=
  match p.dst with
  | .tus t => s.modTus t.val (fun x => { x with arrived := x.arrived ++ [p] })
  | .hbm i => s.modStack i.val (fun x => { x with arrived := x.arrived ++ [p] })
  | .half h =>
    let h := match p.pay with | .contribution _ _ _ _ _ _ _ _ half _ => half | _ => h.val
    { s with halves := Tbl.mod {} s.halves h (fun x => { x with arrived := x.arrived ++ [p] }) }

/-- The packets delivered to a node and not yet taken. -/
def State.arrivals (s : State) (n : Node) : List Pkt :=
  match n with
  | .tus t => (s.tus1 t.val).arrived
  | .hbm i => (s.stack i.val).arrived
  | .half h => (Tbl.lk {} s.halves h.val).arrived

/-- Takes the k-th delivered packet of a node. -/
def State.take (s : State) (n : Node) (k : Nat) : State :=
  match n with
  | .tus t => s.modTus t.val (fun x => { x with arrived := dropAt x.arrived k })
  | .hbm i => s.modStack i.val (fun x => { x with arrived := dropAt x.arrived k })
  | .half h => { s with halves := Tbl.mod {} s.halves h.val (fun x => { x with arrived := dropAt x.arrived k }) }

/-- The router at which a packet enters the grid (R245): its tussock, or for an edge unit the router of the destination's
row: the column the inward grip serves, or the outer column of the crossbar half. -/
def entryRouter (src dst : Node) (col : Nat) : Nat :=
  match src, dst with
  | .tus t, _ => t.val
  | .hbm _, .tus t => 16 * col + t.val % 16
  | .half h, .tus t => 16 * (15 * h.val) + t.val % 16
  | _, _ => 0

/-- EPOCH of what a node sends: its tussock's, zero from an edge unit (R243). -/
def State.epochAt (s : State) (n : Node) : BitVec 3 := match n with | .tus t => (s.tus1 t.val).epoch | _ => 0

/-- A packet of a node waits to enter its plane (R246, R259), under a requester of the injection hierarchy. A packet whose two
ends are one tussock, or two edge units, does not use the mesh and is delivered at once (R19). -/
def State.inject (s : State) (plane : Nat) (src dst : Node) (leaf port slot : Nat) (pay : Payload) : State :=
  let col := match src, dst with
    | .hbm i, _ => stackCol i.val + (slot / 2) % 4
    | _, .hbm i => stackCol i.val + (slot / 2) % 4
    | _, _ => 0
  let p : Pkt := { src := src, dst := dst, plane := plane, port := port, col := col, slot := slot, leaf := if src.isTus = none then 75 else leaf, rsp := pay.rsp, epoch := s.epochAt src,
                   age := s.stamp, flits := pay.flits, pay := pay }
  if src = dst ∨ (src.isTus = none ∧ dst.isTus = none) then s.deliver p
  else { s with mesh := Tbl.mod {} s.mesh (routerKey plane (entryRouter src dst col)) (fun r => { r with inj := r.inj ++ [p] }) }

/-- A tussock as a node. -/
def tusNode (t : Nat) : Node := .tus ⟨t % 256, Nat.mod_lt _ (by decide)⟩
/-- A stack as a node. -/
def hbmNode (i : Nat) : Node := .hbm ⟨i % 8, Nat.mod_lt _ (by decide)⟩
/-- A crossbar half as a node. -/
def halfNode (h : Nat) : Node := .half ⟨h % 2, Nat.mod_lt _ (by decide)⟩

/-- The node at which an access of a tussock to a space enters: board-tier controllers, host ports and windows lie behind the crossbar
halves (R242), and those of the other fen are reached from the tussock's own half over the crossbar trunk (R19, R219). -/
def Space.node (reedTus : Nat) : Space → Node
  | .spad r => tusNode (tusOf r)
  | .pool t => tusNode t
  | .hbm i => hbmNode i
  | _ => halfNode (fenOf reedTus)

/-- The destination port of a space at its node (R243). -/
def Space.port : Space → Nat
  | .spad r => localOf r
  | .pool _ => 24
  | .hbm _ => 32
  | _ => 33

/-- Enters a message at a rill router (R252): the sender's tussock; a control core or the reeve enters at row 0 of the
outer column of its fen. -/
def State.rillSend (s : State) (m : RillMsg) : State :=
  { s with rillq := Tbl.mod [] s.rillq m.srcT (· ++ [{ m with inp := 0, age := s.stamp, served := [] }]) }

/-- The free value number that the next open value takes, and the state with the counter advanced. -/
def State.fresh (s : State) : Nat × State := (s.freeCtr, { s with freeCtr := s.freeCtr + 1 })

/-- A request to the security generator (R342): the number of the value drawn; its requests since the last reseed are counted. -/
def State.draw (s : State) : Nat × State :=
  (s.freeCtr, { s with freeCtr := s.freeCtr + 1, sedge := { s.sedge with draws := s.sedge.draws + 1 } })

/-- A dictionary key from index and subindex (R9). -/
def dk (i sub : Nat) : Nat := 256 * i + sub

/-- Adds to a counter of the dictionary, wrapping at a width. -/
def State.count (s : State) (key width n : Nat) : State :=
  { s with dict := Tbl.up s.dict key ((Tbl.lk 0 s.dict key + n) % 2 ^ width) }

end Sys2Proof.Machine
end

