-- ==== Sys2Proof/Machine/Dict.lean ====
section
/-! DEFINITION. The entries of the object dictionary (R360, R377 to R391, R424 and the tables of the other chapters): types,
rights, defaults and ranges, and the value an entry reads as. -/
namespace Sys2Proof.Machine

/-- The type of an entry (R377). -/
inductive ETy where
  | u8 | u16 | u32 | u64 | i16
  | oct (n : Nat)
  | arr (n : Nat)
  deriving DecidableEq, Repr

/-- Its code (R377). -/
def ETy.code : ETy → Nat
  | .u8 => 1 | .u16 => 2 | .u32 => 3 | .u64 => 4 | .i16 => 5 | .oct _ => 6 | .arr _ => 7

/-- Its length in bytes (R377). -/
def ETy.len : ETy → Nat
  | .u8 => 1 | .u16 => 2 | .u32 => 4 | .u64 => 8 | .i16 => 2 | .oct n => n | .arr n => 4 * n

/-- The rights an Access column grants (R375). Roles: 1 observer, 2 operator, 3 power manager, 4 owner, 5 vendor test. -/
inductive Acc where
  /-- Every role reads, also without a session. -/
  | all
  /-- The observer reads. -/
  | obs
  /-- The observer reads, and the operator's read clears. -/
  | obsRc
  /-- The observer reads, and the named roles write. -/
  | rw (writers : List Nat)
  /-- The named roles write, none reads. -/
  | wo (writers : List Nat)
  /-- Vendor test alone reads, or writes (R391). -/
  | vtR | vtW
  deriving DecidableEq, Repr

/-- An entry, or a run of entries of one kind: span indices from idx, subs subindices from sub. -/
structure EDef where
  idx : Nat
  sub : Nat
  ty : ETy
  acc : Acc
  /-- The default, and the least and greatest values a write may set. -/
  dflt : Nat := 0
  lo : Nat := 0
  hi : Nat := 2 ^ 64 - 1
  span : Nat := 1
  subs : Nat := 1
  /-- Persistent (R381). -/
  keep : Bool := false
  deriving DecidableEq, Repr

/-- A row of a counter or status that the observer reads. -/
def eR (i s : Nat) (t : ETy) (d : Nat := 0) : EDef := { idx := i, sub := s, ty := t, acc := .obs, dflt := d }
/-- A row of a persistent setting. -/
def eW (i s : Nat) (t : ETy) (w : List Nat) (d lo hi : Nat) : EDef :=
  { idx := i, sub := s, ty := t, acc := .rw w, dflt := d, lo := lo, hi := hi, keep := true }

/-- ASCII text zero-filled as an OCTET value (R386). -/
def asciiNat (l : List Char) : Nat := l.foldr (fun c n => c.toNat + 256 * n) 0

/-- Identity, certificates, transport and security entries (R360, R386, R387). -/
def entriesA : List EDef := [
  { idx := 0x0000, sub := 1, ty := .oct 16, acc := .all, dflt := asciiNat "Brixlys".toList },
  { idx := 0x0000, sub := 2, ty := .oct 16, acc := .all, dflt := asciiNat "VG6144".toList },
  { idx := 0x0000, sub := 3, ty := .oct 24, acc := .all, dflt := asciiNat "BXL-VG6144-384L".toList },
  { idx := 0x0000, sub := 4, ty := .u8, acc := .all, dflt := 2 },
  { idx := 0x0000, sub := 5, ty := .u8, acc := .all, dflt := 1 },
  { idx := 0x0000, sub := 6, ty := .u64, acc := .all },
  { idx := 0x0000, sub := 7, ty := .oct 6, acc := .all },
  { idx := 0x0000, sub := 8, ty := .u8, acc := .all },
  { idx := 0x0001, sub := 1, ty := .oct 32, acc := .all },
  { idx := 0x0001, sub := 2, ty := .oct 32, acc := .all },
  { idx := 0x0100, sub := 1, ty := .oct 4672, acc := .all },
  { idx := 0x0100, sub := 2, ty := .oct 4672, acc := .all },
  eW 0x1000 1 .u8 [4] 8 2 255,
  eW 0x1000 2 .u16 [4] 47110 1024 65535,
  eW 0x1000 4 .u16 [4] 60 10 3600,
  eW 0x1000 5 .u16 [4] 16 1 256,
  eW 0x1000 6 .u8 [4] 2 1 16,
  { idx := 0x1010, sub := 1, subs := 16, ty := .oct 40, acc := .rw [4], hi := 2 ^ 320 - 1, keep := true },
  eR 0x1020 1 .u32, eR 0x1020 2 .u32, eR 0x1020 3 .u32, eR 0x1020 4 .u32, eR 0x1020 5 .u32,
  eR 0x1020 6 .u32, eR 0x1020 7 .u32, eR 0x1020 8 .u64, eR 0x1020 9 .u32, eR 0x1020 10 .u8,
  eR 0x1100 1 .u8, eR 0x1100 2 .u16, eR 0x1100 3 .u16, eR 0x1100 4 .u8, eR 0x1100 5 .u8,
  { idx := 0x1100, sub := 6, ty := .u8, acc := .wo [4], lo := 1, hi := 2 },
  { idx := 0x1200, sub := 1, span := 8, ty := .oct 32, acc := .rw [4], hi := 2 ^ 256 - 1, keep := true },
  { idx := 0x1200, sub := 2, span := 8, ty := .u8, acc := .obs, dflt := 1 },
  { idx := 0x1200, sub := 3, span := 8, ty := .u64, acc := .obs },
  eW 0x1300 1 .u16 [4] 0 0 64,
  eR 0x1300 2 .u32, eR 0x1300 3 .u32, eR 0x1300 4 .u64]

/-- Power entries (R328 to R341). -/
def entriesB : List EDef := [
  { idx := 0x2000, sub := 1, ty := .u64, acc := .rw [3, 4], dflt := 1800 * 2 ^ 32 },
  eR 0x2000 2 .u16 1800, eR 0x2000 3 .u8 7,
  eW 0x2000 4 .u8 [4] 0 0 7,
  { idx := 0x2000, sub := 5, ty := .u16, acc := .rw [4], dflt := 200, lo := 200, hi := 3000, keep := true },
  eW 0x2010 1 .u8 [3, 4] 15 5 50,
  eW 0x2010 2 .u8 [3, 4] 8 1 255,
  eR 0x2010 3 .u16, eR 0x2010 4 .u16, eR 0x2010 5 .u32,
  eR 0x2020 1 .i16,
  eW 0x2020 2 .u8 [4] 100 85 100,
  eR 0x2030 1 .u32, eR 0x2030 2 .u32, eR 0x2030 3 .u32, eR 0x2030 4 .u32,
  { eR 0x2040 1 .u8 with keep := true }, eR 0x2040 2 .u16, { eR 0x2040 3 .u16 with keep := true }, eR 0x2040 4 .u64,
  eR 0x2050 0 .u64,
  { eR 0x2050 1 .u64 with span := 8 }]

/-- Lode, torus, window, mire, sump and burst entries (chapters 11, 12, 13). -/
def entriesC : List EDef := [
  eW 0x3000 1 .u32 [4] 0x00010101 0 (2 ^ 32 - 1),
  eW 0x3000 2 .u16 [4] 0 0 (2 ^ 16 - 1),
  eW 0x3000 3 .u64 [4] 0 0 (2 ^ 64 - 1),
  eW 0x3000 4 .u16 [4] 0 0 (2 ^ 16 - 1),
  { idx := 0x3010, sub := 1, subs := 3, ty := .oct 64, acc := .rw [4], hi := 2 ^ 512 - 1, keep := true },
  { idx := 0x3020, sub := 1, subs := 6, ty := .u8, acc := .rw [4], hi := 1, keep := true },
  { eR 0x3100 1 .u8 with span := 24 }, { eR 0x3100 2 .u16 with span := 24 }, { eR 0x3100 3 .u32 with span := 24 },
  { eR 0x3100 4 .u32 with span := 24 }, { eR 0x3100 5 .u64 with span := 24 }, { eR 0x3100 6 .u32 with span := 24 },
  { eR 0x3100 7 .u32 with span := 24 },
  eW 0x3300 1 .u32 [2, 4] 1000 10 1000000,
  eW 0x3300 2 .u32 [2, 4] 1000 10 600000,
  eR 0x3300 3 .u32, eR 0x3300 4 .u32, eR 0x3300 5 .u32,
  eW 0x3400 1 .u8 [4] 16 14 20,
  eW 0x3400 2 .u8 [4] 12 8 20,
  eW 0x3400 3 .i16 [4] 0 0 (2 ^ 16 - 1),
  eW 0x3400 4 .u32 [4] 8192 256 (2 ^ 24),
  eR 0x3400 5 .u8, eR 0x3400 6 .u32, eR 0x3400 7 .i16,
  eW 0x3600 1 .u32 [2, 4] 1000 1 600000,
  { idx := 0x3610, sub := 1, span := 8, ty := .u16, acc := .rw [4], hi := 0xFFFF, keep := true },
  eW 0x3800 1 .u8 [4] 16 1 64,
  eW 0x3800 2 .u8 [4] 16 1 64]

/-- Tier, quota, regulator, section and partition entries (chapters 3, 10, 17, 19). -/
def entriesD : List EDef := [
  eR 0x4000 1 .u16,
  eW 0x4010 1 .u32 [2, 4] 1000 10 600000,
  eW 0x4010 2 .u32 [2, 4] 100 1 60000,
  { idx := 0x4100, sub := 1, subs := 3, span := 8, ty := .u32, acc := .rw [4], hi := 2 ^ 32 - 1, keep := true },
  { eR 0x4100 4 .u32 with span := 8 }, { eR 0x4100 5 .u64 with span := 8, subs := 4 }, { eR 0x4100 9 .u16 with span := 8 },
  { eW 0x4200 1 .u32 [2, 4] 64000 1000 128000 with span := 8 },
  { eW 0x4200 2 .u16 [2, 4] 64 4 1024 with span := 8 },
  { eW 0x4200 3 .u32 [2, 4] 16000 1000 128000 with span := 8 },
  { eW 0x4200 4 .u16 [2, 4] 64 4 1024 with span := 8 },
  { eW 0x4200 5 .u32 [2, 4] 200000 1000 273000 with span := 8 },
  { eW 0x4200 6 .u16 [2, 4] 256 4 1024 with span := 8 },
  eW 0x5010 1 .u32 [2, 4] 65536 4096 (2 ^ 32 - 1),
  eR 0x5010 2 (.arr 8),
  eW 0x5010 3 .u32 [2, 4] 2000 10 600000,
  { idx := 0x5100, sub := 1, span := 8, ty := .u32, acc := .rw [4], hi := 2 ^ 32 - 1, keep := true },
  { idx := 0x5100, sub := 2, span := 8, ty := .u8, acc := .rw [4], hi := 1, keep := true },
  { eR 0x5100 3 .u8 with span := 8 }, { eR 0x5100 4 .u32 with span := 8, subs := 2 }, { eR 0x5100 6 .u16 with span := 8 }]

/-- Log, reset, fen, scrub, counter, numerics and test entries. -/
def entriesE : List EDef := [
  eR 0x6000 1 .u32, eR 0x6000 2 .u32, eR 0x6000 3 .u32,
  eR 0x6010 1 .u8, eR 0x6010 2 .u32,
  { idx := 0x6010, sub := 3, ty := .u8, acc := .wo [4], lo := 0x5A, hi := 0x5A },
  eR 0x6020 1 .u8, eR 0x6020 2 .u8,
  { idx := 0x6020, sub := 3, ty := .u8, acc := .wo [4], lo := 1, hi := 2 },
  eR 0x6020 4 .u32,
  eR 0x6040 1 .u32, eR 0x6040 2 .u64, eR 0x6040 3 .u32,
  eR 0x6050 1 .u16, eR 0x6050 2 (.oct 4096),
  { idx := 0x6050, sub := 3, ty := .u32, acc := .wo [4], hi := 2 ^ 32 - 1 },
  { idx := 0x7000, sub := 1, ty := .u32, acc := .wo [2, 4], hi := 2 ^ 32 - 1 },
  eR 0x7000 2 .u32, eR 0x7000 3 .u64, eR 0x7000 4 .u8,
  { eR 0x7010 1 .u64 with subs := 17 },
  { eR 0x7020 1 .u64 with span := 8, subs := 16 },
  { eR 0x7400 1 .u32 with subs := 5 },
  { idx := 0x7400, sub := 6, ty := .u32, acc := .obsRc },
  eR 0x7400 7 .u32, eR 0x7400 8 .u64, eR 0x7400 9 .u64,
  eR 0x7500 1 .u64,
  { idx := 0x7500, sub := 2, ty := .u32, acc := .obsRc },
  eR 0x7500 3 .u64, eR 0x7500 4 .u64, eR 0x7500 5 .u32, eR 0x7500 6 .u32,
  { eR 0x7600 1 .u64 with subs := 3 }, eR 0x7600 4 .u32, eR 0x7600 5 .u32, eR 0x7600 6 .u64, eR 0x7600 7 .u32,
  eW 0x8010 1 .u32 [2, 4] 64 1 (2 ^ 32 - 1),
  eW 0x8010 2 .u32 [2, 4] 1000 1 (2 ^ 32 - 1),
  eW 0x8010 3 .u16 [2, 4] 16384 0 (2 ^ 16 - 1),
  { eR 0x8011 1 .u32 with subs := 7 },
  { idx := 0xF000, sub := 1, ty := .oct 32, acc := .vtR },
  { idx := 0xF000, sub := 2, ty := .oct 1280, acc := .vtW, hi := 2 ^ 10240 - 1 }]

/-- Every entry. -/
def dictTable : List EDef := entriesA ++ entriesB ++ entriesC ++ entriesD ++ entriesE

/-- The entry at an index and subindex. -/
def entryAt (i sub : Nat) : Option EDef :=
  dictTable.find? (fun e => decide (e.idx ≤ i) && decide (i < e.idx + e.span) && decide (e.sub ≤ sub) && decide (sub < e.sub + e.subs))

/-- The default of an entry (R224, R308, R388). -/
def entryDefault (s : State) (i sub : Nat) : Nat :=
  if i = 0x4100 ∧ (sub = 1 ∨ sub = 2) then 196608
  else if i = 0x4100 ∧ sub = 3 then (if s.boardOut then 0 else s.boardRec.channelGib * 16 * 1024)
  else if i = 0x3610 then 0xFFFF
  else if i = 0x5100 ∧ sub = 1 then 0x00840000
  else if i = 0x2000 ∧ sub = 5 then s.boardRec.ocLimit
  else if i = 0x4000 then (if s.boardOut then 0 else s.boardRec.channelGib * 16)
  else match entryAt i sub with | some e => e.dflt | none => 0

/-- The value held for an entry, or its default. -/
def State.get (s : State) (i sub : Nat) : Nat := (Tbl.lk? s.dict (dk i sub)).getD (entryDefault s i sub)

/-- Sets the value held for an entry. -/
def State.set (s : State) (i sub v : Nat) : State := { s with dict := Tbl.up s.dict (dk i sub) v }

/-- Adds to a counter of the dictionary, wrapping at the top of its type. -/
def State.bump (s : State) (i sub : Nat) (n : Nat := 1) : State :=
  let w := match entryAt i sub with | some e => 8 * e.ty.len | none => 64
  s.set i sub ((s.get i sub + n) % 2 ^ w)

/-- A partition. -/
def State.part (s : State) (p : Nat) : Part := Tbl.lk {} s.parts p
/-- Changes a partition. -/
def State.modPart (s : State) (p : Nat) (f : Part → Part) : State := { s with parts := Tbl.up s.parts p (f (s.part p)) }
/-- A host port. -/
def State.port (s : State) (q : Nat) : Port := Tbl.lk {} s.ports q
/-- Changes a host port. -/
def State.modPort (s : State) (q : Nat) (f : Port → Port) : State := { s with ports := Tbl.up s.ports q (f (s.port q)) }
/-- A fen's control core. -/
def State.fen (s : State) (f : Nat) : FenCtl := Tbl.lk {} s.fens f
/-- Changes a fen's control core. -/
def State.modFen (s : State) (f : Nat) (g : FenCtl → FenCtl) : State := { s with fens := Tbl.up s.fens f (g (s.fen f)) }
/-- Sends something out of the package. -/
def State.emit (s : State) (o : Out) : State := { s with out := s.out ++ [o] }

/-- The rectangle of a partition: X0, Y0, W, H (R388). -/
structure Rect where
  x : Nat
  y : Nat
  w : Nat
  h : Nat
  deriving DecidableEq, Repr

/-- Reads a PART_RECT word. -/
def Rect.ofWord (v : Nat) : Rect := { x := bits v 31 28, y := bits v 27 24, w := bits v 23 19, h := bits v 18 14 }
/-- Does a rectangle hold a tussock (R16)? -/
def Rect.has (r : Rect) (t : Nat) : Bool :=
  decide (r.x ≤ t / 16) && decide (t / 16 < r.x + r.w) && decide (r.y ≤ t % 16) && decide (t % 16 < r.y + r.h)
/-- Do two rectangles share a tussock? -/
def Rect.meets (a b : Rect) : Bool :=
  decide (a.x < b.x + b.w) && decide (b.x < a.x + a.w) && decide (a.y < b.y + b.h) && decide (b.y < a.y + a.h)
/-- The tussocks of a rectangle. -/
def Rect.tussocks (r : Rect) : List Nat := (List.range r.w).flatMap (fun i => (List.range r.h).map (fun j => 16 * (r.x + i) + (r.y + j)))

/-- The rectangle of a partition. -/
def State.rect (s : State) (p : Nat) : Rect := Rect.ofWord (s.get (0x5100 + p) 1)
/-- Is a partition defined (R388)? -/
def State.defined (s : State) (p : Nat) : Bool := decide (0 < (s.rect p).w)
/-- The owning host of a partition (R388). -/
def State.owner (s : State) (p : Nat) : Nat := s.get (0x5100 + p) 2
/-- The partition that holds a tussock. -/
def State.partOfTus (s : State) (t : Nat) : Option Nat := (List.range 8).find? (fun p => s.defined p && (s.rect p).has t)
/-- The partition whose section holds a reed. -/
def State.partOf (s : State) (r : Nat) : Option Nat := (s.tus1 (tusOf r)).owner

/-- The tussocks of a section. -/
def Sect.tussocks (x : Sect) : List Nat := Rect.tussocks { x := x.x0, y := x.y0, w := x.w, h := x.h }
/-- The physical tussock of a logical one: column-major as R16 numbers tussocks (entry 30). -/
def Sect.phys (x : Sect) (l : Nat) : Nat := 16 * (x.x0 + l / x.h) + (x.y0 + l % x.h)
/-- The programs that a pass loads (R57). DESIGN CHOICE (entry 140): FWD and BWD each load the pass-through programs. -/
def Sect.progs (x : Sect) : List ReedProg :=
  x.img.progs.filter (fun g => match x.pass with
    | 0 => true
    | 1 => g.role == .forward || g.role == .through
    | _ => g.role == .backward || g.role == .update || g.role == .through)
/-- The physical reed of a program. -/
def Sect.reedOf (x : Sect) (g : ReedProg) : Nat := 24 * x.phys g.tus + g.reed
/-- The reeds that hold a program. -/
def Sect.reeds (x : Sect) : List Nat := x.progs.map x.reedOf
/-- Every reed of a section's tussocks. -/
def Sect.allReeds (x : Sect) : List Nat := x.tussocks.flatMap (fun t => upto (24 * t) 24)
/-- The control core that runs a section's load sequence and issues its start token (R23, R74): that of its fen, CC0 where it spans both. -/
def Sect.core (x : Sect) : Nat := if x.tussocks.all (fun t => decide (128 ≤ t)) then 1 else 0

/-- The job seed under which a reed's section runs (R46). -/
def State.jobSeed (s : State) (r : Nat) : W64 :=
  match s.partOf r with
  | some p => match (s.part p).run with | some x => x.sec.seed | none => 0
  | none => 0
/-- The step number of a reed's section (R46). -/
def State.stepOf (s : State) (r : Nat) : Nat :=
  match s.partOf r with
  | some p => match (s.part p).run with | some x => x.step.toNat | none => 0
  | none => 0

/-! ### Use and quotas (R223, R224) -/

/-- Bytes in a GiB and a MiB. -/
def gib : Nat := 2 ^ 30
/-- Bytes in a MiB. -/
def mib : Nat := 2 ^ 20
/-- The tier a space is charged to (R223): 0 HBM west, 1 HBM east, 2 board, 3 host, 4 none. -/
def Space.charge : Space → Nat
  | .hbm i => if i < 4 then 0 else 1
  | .board _ => 2
  | .host _ => 3
  | _ => 4
/-- The charge of a placement. -/
def Placement.charge (x : Placement) : Nat := match x.space with | some sp => sp.charge | none => 4
/-- Bytes that placements use of a tier. -/
def usedIn (l : List Placement) (tier : Nat) : Nat := sumOf ((l.filter (fun x => x.charge == tier)).map (·.size))
/-- The quota of a partition in a tier, in bytes; a partition's host quota is the size of its regions (R223). -/
def State.quota (s : State) (p tier : Nat) : Nat :=
  if tier < 3 then mib * s.get (0x4100 + p) (tier + 1) else sumOf ((s.part p).regions.map (fun r => r.2.size))
/-- Sets the use entries of a partition (R224). -/
def State.recount (s : State) (p : Nat) : State :=
  let l := (s.part p).places
  let i := 0x4100 + p
  let regions := sumOf ((s.part p).regions.map (fun r => r.2.size)) / mib
  (((((s.set i 4 regions).set i 5 (usedIn l 0)).set i 6 (usedIn l 1)).set i 7 (usedIn l 2)).set i 8 (usedIn l 3)).set i 9 l.length


end Sys2Proof.Machine
end

