-- ==== Sys2Proof/Machine/Arbiter.lean ====
section
/-! DEFINITION. The one kind of arbiter of the device (R254 to R258), and the arbiters of the memory banks (R109, R110). -/
namespace Sys2Proof.Machine

/-- A request at an arbiter: index, rank (lower first), age stamp. -/
structure Req where
  idx : Nat
  rank : Nat
  age : BitVec 14
  deriving DecidableEq, Repr

/-- Is stamp a older than stamp b (R257)? -/
def older (a b : BitVec 14) : Bool := a != b && decide ((b - a).toNat < 2 ^ 13)
/-- The oldest of the requests, the lower index at equal stamps (R258). -/
def oldest : List Req → Option Req
  | [] => none
  | r :: t => match oldest t with
    | none => some r
    | some q => if older q.age r.age ∨ (q.age = r.age ∧ q.idx < r.idx) then some q else some r
/-- The request a rank grant takes: highest rank, then older, then lower index (R254, R258). -/
def ranked (l : List Req) : Option Req :=
  match minOf? (l.map (·.rank)) with | none => none | some k => oldest (l.filter (fun r => r.rank == k))
/-- Back-off count b of a requester in an arbiter cycle (R255): it falls by one each cycle. -/
def Arb.b (a : Arb) (now i : Nat) : Nat := (Tbl.lk (0, 0) a.back i).1 - now
/-- Is the next grant an age grant (R254)? -/
def Arb.ageGrant (a : Arb) : Bool := a.grants % 8 == 7
/-- The request that an arbiter grants (R254). -/
def Arb.choose (a : Arb) (now : Nat) (l : List Req) : Option Req :=
  if a.ageGrant then oldest l
  else match ranked (l.filter (fun r => a.b now r.idx == 0)) with
    | some r => some r
    | none => oldest l
/-- The next back-off of a requester that loses (R255): 2 on its first consecutive loss, doubled on each further one, up to 256. -/
def Arb.loss (a : Arb) (i : Nat) : Nat := Nat.min 256 (Nat.max 2 (2 * (Tbl.lk (0, 0) a.back i).2))
/-- A requester loses a grant to another (R255). -/
def Arb.lose (a : Arb) (now time i : Nat) : Arb :=
  { a with back := Tbl.up a.back i (now + a.loss i, a.loss i), since := if (Tbl.lk? a.since i).isSome then a.since else Tbl.up a.since i time }
/-- The arbiter after a grant (R254, R255): the winner's count is 0, every other requester has lost. -/
def Arb.after (a : Arb) (now time : Nat) (l : List Req) (win : Req) : Arb :=
  let a := (l.filter (fun r => r.idx != win.idx)).foldl (fun (a : Arb) r => a.lose now time r.idx) a
  { a with grants := a.grants + 1, back := Tbl.del a.back win.idx, since := Tbl.del a.since win.idx }
/-- The owner of the present grant, while it requests and has beats left of the burst limit that the grant was given with (R256). -/
def Arb.holder (a : Arb) (l : List Req) : Option Req :=
  match a.owner with | some o => if a.beats < a.limit then l.find? (fun r => r.idx == o) else none | none => none
/-- An arbiter's own choice (R254, R256): the owner of a grant that lasts, else the request it grants. -/
def Arb.own (a : Arb) (now : Nat) (l : List Req) : Option Req := (a.holder l).orElse (fun _ => a.choose now l)
/-- The arbiter after it has served a request for some beats (R255, R256): the grant goes on, or a new one is given, under the burst limit
then in force. -/
def Arb.served (a : Arb) (now time burst : Nat) (l : List Req) (r : Req) (beats : Nat) : Arb :=
  if a.holder l = some r then { a with beats := a.beats + beats }
  else { a.after now time l r with owner := some r.idx, beats := beats, limit := burst }

/-- An arbiter. -/
def State.arb (s : State) (k : Nat) : Arb := Tbl.lk {} s.arbs k
/-- The cycle of the arbiters of the mesh island: the time base counts mesh cycles. -/
def State.meshNow (s : State) : Nat := s.timeBase.toNat

/-- A grant as the counters see it (R260): an age grant is counted, and the winner's wait since its first loss may be the longest. -/
def State.granted (s : State) (a : Arb) (win : Nat) : State :=
  let s := if a.ageGrant then s.bump 0x7500 1 else s
  let wait := match Tbl.lk? a.since win with | some t => s.timeBase.toNat - t | none => 0
  if s.get 0x7500 2 < wait then s.set 0x7500 2 (Nat.min wait (2 ^ 32 - 1)) else s

/-- An arbiter serves a request (R254 to R256): a new grant is counted (R260). -/
def State.serve (s : State) (k now burst : Nat) (l : List Req) (r : Req) (beats : Nat) : State :=
  let a := s.arb k
  let t := { s with arbs := Tbl.up s.arbs k (a.served now s.timeBase.toNat burst l r beats) }
  if a.holder l = none then t.granted a r.idx else t

/-! ### Memory banks (R109, R110) -/

/-- The tussock of a banked memory and its number there: a local reed's scratchpad, or 24 for the pool. -/
def Space.banked : Space → Option (Nat × Nat)
  | .spad r => some (tusOf r, localOf r)
  | .pool t => some (t, 24)
  | _ => none
/-- How many banks a memory has (R109): bank of word w is w modulo this number. -/
def Space.bankCount : Space → Nat
  | .pool _ => 32
  | _ => 8
/-- The banks that an access of len bytes at an address takes (R109): one per 64-byte word, the four of a slot for a whole slot. -/
def Space.banksOf (sp : Space) (a len : Nat) : List Nat :=
  ((upto (a / 64) ((a + len - 1) / 64 + 1 - a / 64)).map (· % sp.bankCount)).eraseDups
/-- The number of a bank's arbiter (entry 42). -/
def bankArb (t m b : Nat) : Nat := 65536 + 1024 * t + 32 * m + b

/-- The banks of a memory that have made their access in this reed cycle. -/
def State.banksBusy (s : State) (sp : Space) : List Nat :=
  match sp.banked with | some (t, m) => Tbl.lk [] (s.tus1 t).banks m | none => []

/-- The rank of a fill write at a memory (R110): 1 at a scratchpad, 2 at a pool. -/
def Space.fillRank : Space → Nat
  | .pool _ => 2
  | _ => 1
/-- The rank of a descriptor's source read (R110): 2 at a scratchpad, 3 at a pool. -/
def Space.readRank : Space → Nat
  | .pool _ => 3
  | _ => 2

/-- May a write proceed at its slot (R103): a fill write of an EMPTY slot, a resupply write of a POISONED one too, a plain write of an EMPTY
one? -/
def State.writable (s : State) (w : FillW) : Bool :=
  match s.tag w.space w.slot with
  | .empty => true
  | .full => false
  | .poisoned => w.resupply && !w.plain

/-- What a packet that has reached its tussock asks of a memory's banks, if its write may proceed: its rank, its stamp and its banks (R110, R229). -/
def State.bankRequest (s : State) (sp : Space) (p : Pkt) : Option (Nat × BitVec 14 × List Nat) :=
  let fill := fun (rank : Nat) (w : FillW) =>
    if w.space = sp ∧ s.writable w = true then some (rank, p.age, sp.banksOf (256 * w.slot) 256) else none
  match p.pay with
  | .fill w _ _ => fill sp.fillRank w
  | .readResp id idx _ => (match s.xfers.find? (fun x => x.id == id) with
      | some x => fill sp.fillRank { space := x.dst, slot := x.dstSlot idx, data := [], resupply := x.resupplied }
      | none => none)
  | .trickle (w :: _) => fill (match sp with | .pool _ => 5 | _ => 4) w
  | _ => none

/-- What waits at a memory besides the requester itself (R110): the fill writes, read responses and trickle transfers that have reached the
tussock and may proceed. -/
def State.bankRivals (s : State) (sp : Space) : List (Nat × BitVec 14 × List Nat) :=
  match sp.banked with
  | none => []
  | some (t, _) => (s.tus1 t).arrived.filterMap (s.bankRequest sp)

/-- The requests at one bank: the requester's own, with the stamp of its first loss where it has lost before, and those of the others. -/
def State.bankReqs (s : State) (sp : Space) (k b rank : Nat) : List Req :=
  let since := match Tbl.lk? (s.arb k).since rank with | some t => BitVec.ofNat 14 (t / 16) | none => s.stamp
  { idx := rank, rank := rank, age := since }
    :: ((s.bankRivals sp).filter (fun e => e.1 != rank && e.2.2.contains b)).map (fun e => { idx := e.1, rank := e.1, age := e.2.1 })

/-- What came of a request for banks: granted, or lost with its back-off noted. -/
inductive BankTry where
  | granted (s : State)
  | lost (s : State)
  deriving DecidableEq, Repr

/-- An access asks its banks (R109, R110, R254): it is granted where none of them has made its access in this reed cycle and the arbiter of
each chooses it; else it loses at the others' and backs off. -/
def State.bankAsk (s : State) (sp : Space) (a len rank : Nat) : BankTry :=
  match sp.banked with
  | none => .granted s
  | some (t, m) =>
    let bs := sp.banksOf a len
    let now := (s.tus1 t).cycles
    let wins := fun (b : Nat) => !(s.banksBusy sp).contains b
      && (s.arb (bankArb t m b)).choose now (s.bankReqs sp (bankArb t m b) b rank) == (s.bankReqs sp (bankArb t m b) b rank).head?
    if bs.all wins then
      let u := bs.foldl (fun u b => u.serve (bankArb t m b) now 1 (s.bankReqs sp (bankArb t m b) b rank)
        ((s.bankReqs sp (bankArb t m b) b rank).headD { idx := rank, rank := rank, age := 0 }) 1) s
      .granted (u.modTus t (fun x => { x with banks := Tbl.mod [] x.banks m (· ++ bs) }))
    else .lost { s with arbs := (bs.filter (fun b => !wins b)).foldl (fun g b =>
        Tbl.mod ({} : Arb) g (bankArb t m b) (fun x => x.lose now s.timeBase.toNat rank)) s.arbs }

/-- Is every bank of an access free for the scrubber (R110, R254): it takes only cycles in which nothing else requests? -/
def State.bankIdle (s : State) (sp : Space) (a len : Nat) : Bool :=
  (sp.banksOf a len).all (fun b => !(s.banksBusy sp).contains b && !(s.bankRivals sp).any (fun e => e.2.2.contains b))

end Sys2Proof.Machine
end

