-- ==== Sys2Proof/Machine/Identity.lean ====
section
/-! DEFINITION. The device's keys, certificate and addresses (R342, R347, R348, R364), and the datagrams that it sends on the management
segment (R7, R362, R363, R365, R366, R371, R372, R378). -/
namespace Sys2Proof.Machine

/-! ### Keys and signatures (R342, R347, R348) -/

/-- The ASCII bytes of a label. -/
def ascii (l : String) : List Byte := l.toList.map (fun c => BitVec.ofNat 8 c.toNat)
/-- n bytes of a list, zeros beyond its end. -/
def padTo (n : Nat) (l : List Byte) : List Byte := (l ++ rep n 0).take n
/-- What a signature signs: the SHAKE256 digest with 512-bit output of the bytes named (R342). -/
def signed (m : List Byte) : List Byte := leBytes 64 (Config.shake512 m).toNat
/-- Does a Falcon-1024 signature in the padded format of 1,280 bytes verify under a public key over the bytes named (R342)? -/
def verifies (pk m sig : List Byte) : Bool := Config.falconOk pk (signed m) sig
/-- The seed of the identity key (R347). -/
def Fuses.idSeed (f : Fuses) : BitVec 512 := Config.kmac f.secret (ascii "VG identity")
/-- The seed of the device KEM key (R347). -/
def Fuses.kemSeed (f : Fuses) : BitVec 512 := Config.kmac f.secret (ascii "VG kem")
/-- The public identity key. -/
def Fuses.idKey (f : Fuses) : List Byte := padTo 1793 (Config.falconPk f.idSeed)
/-- The identity key's signature over the bytes named, in the padded format (R342, R347). -/
def Fuses.sign (f : Fuses) (m : List Byte) : List Byte := padTo 1280 (Config.sign f.idSeed (signed m))
/-- The device certificate (R348); its GENERATION and STEPPING are those of REED_INFO. -/
def Fuses.certificate (f : Fuses) : List Byte :=
  leBytes 4 0x43444756 ++ leBytes 2 1 ++ leBytes 1 2 ++ leBytes 1 1 ++ leBytes 8 f.serial.toNat ++ leBytes 4 Config.issuerIndex.toNat ++ rep 4 0
    ++ f.idKey ++ rep 7 0 ++ padTo 1568 (Config.kemPk f.kemSeed) ++ padTo 1280 Config.certSignature

/-! ### Addresses (R364) -/

/-- The n low bytes of a number, most significant first (R7). -/
def beBytes (n x : Nat) : List Byte := (leBytes n x).reverse
/-- A number of bytes, most significant first. -/
def beNat (l : List Byte) : Nat := leNat l.reverse
/-- The MAC address: byte 0 is 0x02, the others the first five of a digest of the serial (R364). -/
def Fuses.macBytes (f : Fuses) : List Byte :=
  0x02#8 :: leBytes 5 (Config.shake (ascii "VGMAC" ++ leBytes 8 f.serial.toNat)).toNat
/-- The link-local address in fe80::/64 from the modified EUI-64 of the MAC (R364), most significant byte first: the universal bit of byte
0 is inverted and FF FE stand in the middle. -/
def Fuses.linkLocal (f : Fuses) : List Byte :=
  let m := f.macBytes
  [0xFE#8, 0x80#8] ++ rep 6 0 ++ ((m.take 1).map (· ^^^ 0x02#8) ++ (m.drop 1).take 2 ++ [0xFF#8, 0xFE#8] ++ m.drop 3)

/-! ### The segment (R362, R363) -/

/-- How the device transmits (R362, R363): by its PLCA node identifier; under CSMA/CD with PLCA disabled or while its status is not OK. -/
def State.segAccess (s : State) : SegAccess :=
  let id := s.boardRec.nodeId.toNat
  if id = 255 ∨ !s.sedge.plcaOk then .csmaCd else if id = 0 then .coordinator (s.get 0x1000 1) else .follower id

/-! ### Datagrams (R7, R365, R366, R371, R372) -/

/-- The header of a datagram (R365). -/
def sedgeHdr (type flags status session counter req frag len : Nat) : List Byte :=
  beBytes 1 1 ++ beBytes 1 type ++ beBytes 1 flags ++ beBytes 1 status ++ beBytes 4 session ++ beBytes 8 counter ++ beBytes 4 req ++ beBytes 2 frag
    ++ beBytes 2 len

/-- The key of the client-to-device direction of a session: bytes 0 to 31 (R371). -/
def Session.rxKey (x : Session) : BitVec 256 := x.key.setWidth 256
/-- The key of the device-to-client direction: bytes 32 to 63 (R371). -/
def Session.txKey (x : Session) : BitVec 256 := (x.key >>> 256).setWidth 256

/-- The TAG of a session datagram over its header and payload (R371). -/
def sedgeTag (key : BitVec 256) (b : List Byte) : BitVec 128 := Config.kmacTag key b

/-- A message as the datagrams of R366: type, FLAGS beside MORE, status, request, under a session's key, identifier and next count, or
without a session. -/
structure SedgeMsg where
  type : Nat
  flags : Nat := 1
  status : Nat := 0
  req : Nat
  session : Option (BitVec 256 × W32 × Nat) := none

/-- One datagram of a message: fragment i, its part of the payload, whether further fragments follow. In a session it takes its own count
and a TAG. -/
def SedgeMsg.datagram (m : SedgeMsg) (i : Nat) (part : List Byte) (more : Bool) : List Byte :=
  let flags := m.flags + 2 * b2n more
  match m.session with
  | none => sedgeHdr m.type flags m.status 0 0 m.req i part.length ++ part
  | some (key, id, n) =>
    let b := sedgeHdr m.type flags m.status id.toNat (n + i) m.req i part.length ++ part
    b ++ leBytes 16 (sedgeTag key b).toNat

/-- The datagrams of a message from fragment i on (R366): payloads of at most 1,192 bytes, at most n of them. -/
def SedgeMsg.datagrams (m : SedgeMsg) : Nat → Nat → List Byte → List (List Byte)
  | 0, _, _ => []
  | n + 1, i, b =>
    let more := decide (1192 < b.length)
    m.datagram i (b.take 1192) more :: (if more then m.datagrams n (i + 1) (b.drop 1192) else [])

/-- All datagrams of a message, at most 16 (R366). -/
def SedgeMsg.all (m : SedgeMsg) (payload : List Byte) : List (List Byte) := m.datagrams 16 0 payload

/-- The ones' complement sum of the 16-bit words of bytes, most significant byte first. -/
def onesSum : List Byte → Nat
  | a :: b :: t => let n := 256 * a.toNat + b.toNat + onesSum t; n % 65536 + n / 65536
  | [a] => 256 * a.toNat
  | [] => 0

/-- A datagram under its IPv6 and UDP headers, in network byte order (R7, R364, R366; entry 156): 40 bytes of IPv6 header, 8 of UDP header
with the device's port as source and destination. -/
def State.packet (s : State) (to_ : Nat) (d : List Byte) : List Byte :=
  let port := beBytes 2 s.sedge.port
  let len := 8 + d.length
  let src := s.fuses.linkLocal
  let dst := beBytes 16 to_
  let sum := onesSum (src ++ dst ++ beBytes 4 len ++ beBytes 4 17 ++ port ++ port ++ beBytes 2 len ++ d)
  let check := if sum = 65535 then 65535 else 65535 - sum
  beBytes 4 (6 * 2 ^ 28 + Config.ipv6Free.toNat) ++ beBytes 2 len ++ beBytes 1 17 ++ [Config.hopLimit] ++ src ++ dst
    ++ port ++ port ++ beBytes 2 len ++ beBytes 2 check ++ d

/-- A message on the segment: the address it goes to, the ms it is delayed, how the device transmits, its IPv6 packets. -/
def State.sedgeOut (s : State) (to_ delay : Nat) (m : SedgeMsg) (payload : List Byte) : Out :=
  .sedge to_ delay s.segAccess (m.all payload |>.map (s.packet to_))

/-- A session by its identifier. -/
def State.session? (s : State) (id : W32) : Option Session := s.sedge.sessions.find? (fun x => x.id == id)
/-- Changes Sedge's state. -/
def State.modSedge (s : State) (f : Sedge → Sedge) : State := { s with sedge := f s.sedge }
/-- Changes a session. -/
def State.modSession (s : State) (id : W32) (f : Session → Session) : State :=
  s.modSedge (fun x => { x with sessions := x.sessions.map (fun y => if y.id = id then f y else y) })
/-- Closes a session (R374). -/
def State.closeSession (s : State) (id : W32) : State := s.modSedge (fun x => { x with sessions := x.sessions.filter (fun y => y.id != id) })

/-- The datagrams that a payload takes (R366). -/
def sedgeCount (payload : List Byte) : Nat := Nat.max 1 (ceilDiv payload.length 1192)
/-- A message of a session with its next counts. -/
def Session.msg (x : Session) (type flags status : Nat) (req : W32) : SedgeMsg :=
  { type := type, flags := flags, status := status, req := req.toNat, session := some (x.txKey, x.id, x.txCount) }

/-- Sends a message of a session (R366, R371, R372): each datagram takes the next count; the session closes before one would pass 2^63. -/
def State.sendTo (s : State) (id : W32) (type flags status : Nat) (req : W32) (payload : List Byte) : State :=
  match s.session? id with
  | none => s
  | some x =>
    let n := Nat.min 16 (sedgeCount payload)
    if 2 ^ 63 + 1 < x.txCount + n then s.closeSession id
    else (s.emit (s.sedgeOut x.source 0 (x.msg type flags status req) payload)).modSession id (fun x => { x with txCount := x.txCount + n })

end Sys2Proof.Machine
end

