-- ==== Sys2Proof/Machine/LodeOps.lean ====
section
/-! DEFINITION. The torus, its routes, and the egress of packets and rill-extension messages (R261, R262, R276 to R279). -/
namespace Sys2Proof.Machine

/-- A coordinate of a device address: axis 0 x, 1 y, 2 z (R262). -/
def coord (addr axis : Nat) : Nat :=
  match axis with | 0 => bits addr 15 10 | 1 => bits addr 9 5 | _ => bits addr 4 0
/-- The address of three coordinates (R262). -/
def addrOf (x y z : Nat) : Nat := 1024 * x + 32 * y + z
/-- An address with one coordinate replaced. -/
def withCoord (addr axis v : Nat) : Nat :=
  match axis with
  | 0 => addrOf v (coord addr 1) (coord addr 2)
  | 1 => addrOf (coord addr 0) v (coord addr 2)
  | _ => addrOf (coord addr 0) (coord addr 1) v

/-- DEVICE_ADDR. -/
def State.self (s : State) : Nat := s.get 0x3000 2
/-- The size of a dimension (R289 TORUS_DIMS). -/
def State.dim (s : State) (axis : Nat) : Nat :=
  let v := s.get 0x3000 1
  match axis with | 0 => bits v 23 16 | 1 => bits v 15 8 | _ => bits v 7 0
/-- The WRAP bit of a dimension. -/
def State.wrap (s : State) (axis : Nat) : Bool := bit (s.get 0x3000 1) (26 - axis)

/-- The shortest direction from o to c in a dimension (R278): 0 arrived, 1 plus, 2 minus; an exact half goes plus. -/
def shortest (size : Nat) (ring : Bool) (o c : Nat) : Nat :=
  if c = o ∨ size ≤ c then 0
  else if ring ∨ size = 2 then (if 2 * ((c + size - o) % size) ≤ size then 1 else 2)
  else if o < c then 1 else 2

/-- The direction a device's routing table gives toward a coordinate (R278). -/
def State.routeDir (s : State) (axis c : Nat) : Nat :=
  let t := s.get 0x3010 (axis + 1)
  bits t (8 * c + 7) (8 * c + 6)

/-- The routing table of an axis that reset fills (R278): the shortest direction toward each of the 64 coordinates. -/
def State.shortTable (s : State) (axis : Nat) : Nat :=
  sumOf ((List.range 64).map (fun c => shortest (s.dim axis) (s.wrap axis) (coord s.self axis) c * 64 * 2 ^ (8 * c)))

/-- The lode group of a direction (R261). -/
def groupOf (axis dir : Nat) : Nat := if dir = 1 then 3 + axis else axis
/-- The neighbour a lode group faces (R276), and whether its link is a wrap link (R275). -/
def State.neighbour (s : State) (g : Nat) : Option (Nat × Bool) :=
  let axis := g % 3
  let d := s.dim axis
  let o := coord s.self axis
  if d ≤ 1 then none
  else if d = 2 then some (withCoord s.self axis (1 - o), false)
  else if 3 ≤ g then
    (if o + 1 < d then some (withCoord s.self axis (o + 1), false) else if s.wrap axis then some (withCoord s.self axis 0, true) else none)
  else
    (if 0 < o then some (withCoord s.self axis (o - 1), false) else if s.wrap axis then some (withCoord s.self axis (d - 1), true) else none)

/-- LODE_STATE of a lode: 0 DOWN, 1 TRAINING, 2 UP, 3 OUT_OF_SERVICE. -/
def State.lodeState (s : State) (n : Nat) : Nat := s.get (0x3100 + n) 1
/-- The lodes of a group that are up, ascending (R277). -/
def State.groupUp (s : State) (g : Nat) : List Nat := (upto (4 * g) 4).filter (fun n => s.lodeState n == 2)
/-- The lode of a group that a packet takes (R277). -/
def State.pickLode (s : State) (g src dst target : Nat) : Option Nat :=
  let l := s.groupUp g
  l[((src ^^^ dst ^^^ (target % 65536)) % (if l.length = 0 then 1 else l.length))]?
/-- The first axis in which an address differs from this device, in the order x, y, z (R277). -/
def State.axisTo (s : State) (dst : Nat) : Option Nat := [0, 1, 2].find? (fun a => coord dst a != coord s.self a)
/-- The last axis in which an address differs from this device: the one its packets to this device travel last (R277). -/
def State.lastAxis (s : State) (src : Nat) : Option Nat := [2, 1, 0].find? (fun a => coord src a != coord s.self a)
/-- The lode group on the way to a device (R277); none at the device itself, or where the table has no way. -/
def State.groupTo (s : State) (dst : Nat) : Option Nat :=
  match s.axisTo dst with
  | none => none
  | some a => let d := s.routeDir a (coord dst a); if d = 0 then none else some (groupOf a d)
/-- The group of one hop toward a device that stays inside a box (R279, R287, R292). -/
def State.groupHop (s : State) (dst : Nat) (order : List Nat) : Option Nat :=
  match order.find? (fun a => coord dst a != coord s.self a) with
  | none => none
  | some a => some (groupOf a (if coord s.self a < coord dst a then 1 else 2))

/-- A lode. -/
def State.lode (s : State) (n : Nat) : Lode := Tbl.lk {} s.lodes n
/-- Changes a lode. -/
def State.modLode (s : State) (n : Nat) (f : Lode → Lode) : State := { s with lodes := Tbl.up s.lodes n (f (s.lode n)) }

/-- The VC of a packet type (R270); sump packets travel on VC 4 + GROUP. -/
def vcOf (ptype target : Nat) : Option Nat :=
  match ptype with
  | 1 | 2 => some 1
  | 3 => some 2
  | 4 | 5 | 6 | 7 | 8 | 9 | 11 | 13 | 17 | 18 => some 0
  | 10 | 12 => some 3
  | 16 => some (4 + bits target 27 24)
  | _ => none

/-- Puts a packet into the egress queue of a lode of a group (R274), with its age stamp and its class, which is 1 across a wrap
link (R275); with no lode in service it is lost with its link. -/
def State.egress (s : State) (g : Nat) (p : LPkt) : State :=
  let wrapped := match s.neighbour g with | some (_, w) => w | none => false
  match s.pickLode g p.src p.dst p.target.toNat with
  | none => s
  | some n => s.modLode n (fun l => { l with egress := Tbl.mod [] l.egress p.vc (· ++ [{ p with cls := p.cls || wrapped, age := s.stamp }]) })

/-- Sends a packet toward its device (R277). -/
def State.lodeSend (s : State) (p : LPkt) : State :=
  match s.groupTo p.dst with | none => s | some g => s.egress g p

/-- The fingerprint of a partition's running section (R305). -/
def State.fp (s : State) (p : Nat) : W64 := match (s.part p).run with | some r => r.sec.fingerprint | none => 0
/-- The epoch of a partition's running section, by its first tussock (R71). -/
def State.sectEpoch (s : State) (x : Sect) : BitVec 3 := match x.tussocks with | t :: _ => (s.tus1 t).epoch | [] => 0

/-- Flits of a payload of n bytes: 208 in the first flit, 240 in each other (R266, R269). -/
def payFlits (n : Nat) : Nat := if n ≤ 208 then 1 else 1 + ceilDiv (n - 208) 240

/-- A packet of a partition to a device, with its type, TARGET, ARG and payload (R269, R270). -/
def State.mkPkt (s : State) (p dst dpart ptype : Nat) (target : Nat) (arg : Nat) (pay : LPay) (flits : Nat := 1) : LPkt :=
  { src := s.self, dst := dst, ptype := ptype, vc := (vcOf ptype target).getD 0, spart := p, dpart := dpart,
    target := BitVec.ofNat 32 target, arg := BitVec.ofNat 64 arg, fp := s.fp p, flits := flits, pay := pay }

/-- MIRE_BOX as x0, x1, y0, y1, z0, z1 (R289: bytes 0 to 5). -/
def State.mireBox (s : State) : List Nat := (List.range 6).map (fun i => bits (s.get 0x3000 3) (8 * i + 7) (8 * i))
/-- Does the device belong to a mire (R289 ENABLE)? -/
def State.inMire (s : State) : Bool := bit (s.get 0x3000 3) 48
/-- MIRE_MASTER. -/
def State.master (s : State) : Nat := s.get 0x3000 4
/-- Does a box hold an address? -/
def inBox (b : List Nat) (a : Nat) : Bool :=
  [0, 1, 2].all (fun i => decide (b.getD (2 * i) 0 ≤ coord a i) && decide (coord a i ≤ b.getD (2 * i + 1) 0))
/-- The addresses of a box, ascending. -/
def boxDevs (b : List Nat) : List Nat :=
  (upto (b.getD 0 0) (b.getD 1 0 + 1 - b.getD 0 0)).flatMap (fun x =>
    (upto (b.getD 2 0) (b.getD 3 0 + 1 - b.getD 2 0)).flatMap (fun y =>
      (upto (b.getD 4 0) (b.getD 5 0 + 1 - b.getD 4 0)).map (fun z => addrOf x y z)))
/-- The other members of the mire. -/
def State.mirePeers (s : State) : List Nat := if s.inMire then (boxDevs s.mireBox).filter (· != s.self) else []

/-- Sends a rill message to another device (R279): on the rill extension, in dimension order inside the box, to a member of the mire;
between mires as a CTRL packet on VC0, from the partition of the sending tussock (entry 44). -/
def State.rillExt (s : State) (m : RillMsg) : State :=
  if s.inMire && inBox s.mireBox m.dev then
    match s.groupHop m.dev [0, 1, 2] with
    | none => s
    | some g => match s.pickLode g s.self m.dev 0 with
      | none => s
      | some n => s.modLode n (fun l => { l with rillOut := l.rillOut ++ [m] })
  else
    let p := if m.edge then 0 else (s.tus1 m.srcT).owner.getD 0
    s.lodeSend { s.mkPkt p m.dev p 17 0 0 (.rill m) with fp := m.fp }

/-- The low and high words of a 64-bit value. -/
def w2 (v : W64) : List W32 := [BitVec.ofNat 32 v.toNat, BitVec.ofNat 32 (v.toNat / 2 ^ 32)]

/-- A fault notice to every other member of the mire (R75): rill type 7, with the partition and the cause. -/
def State.faultNotices (s : State) (p cause : Nat) : State :=
  s.mirePeers.foldl (fun s d => s.rillExt
    { destT := 0, port := 26, type := 7, epoch := 0, words := [BitVec.ofNat 32 p, BitVec.ofNat 32 cause], srcT := 0, dev := d, fp := s.fp p }) s

/-- The box of a reduction group (R290). -/
def GroupDecl.box (g : GroupDecl) : List Nat := [g.x0, g.x1, g.y0, g.y1, g.z0, g.z1]
/-- The members of a group's box. -/
def GroupDecl.members (g : GroupDecl) : List Nat := boxDevs g.box
/-- THIN of a group: 0 dense, 1 to 1/4, 2 to 1/16, 3 to 1/64 (R290). -/
def GroupDecl.thinning (g : GroupDecl) : Nat := g.thin % 4

/-- The parent of a member in a group's tree: one hop along z, then y, then x toward ROOT (R292). -/
def GroupDecl.parentOf (g : GroupDecl) (d : Nat) : Option Nat :=
  match [2, 1, 0].find? (fun a => coord d a != coord g.root a) with
  | none => none
  | some a => some (withCoord d a (if coord d a < coord g.root a then coord d a + 1 else coord d a - 1))
/-- The children of a member: the members whose parent it is (R292). -/
def GroupDecl.kidsOf (g : GroupDecl) (d : Nat) : List Nat := g.members.filter (fun m => g.parentOf m == some d)

/-- Sends a packet one hop to a neighbouring member of a tree. -/
def State.hopSend (s : State) (nb : Nat) (p : LPkt) : State :=
  match s.groupHop nb [0, 1, 2] with | none => s | some g => s.egress g p

/-- The bound groups of a partition's running section. -/
def State.boundGroups (s : State) (p : Nat) : List GroupDecl := match (s.part p).run with | some r => r.sec.groups | none => []

/-- MC_ABORT of a group: from the root down the whole tree, from another member toward the root (R307). -/
def State.abortGroup (s : State) (p : Nat) (g : GroupDecl) (cause : Nat) : State :=
  let s := s.bump 0x7600 5
  if g.root = s.self then (g.kidsOf s.self).foldl (fun s d => s.hopSend d (s.mkPkt p d p 13 (32 + g.group) cause .none)) s
  else match g.parentOf s.self with
    | some d => s.hopSend d (s.mkPkt p d p 13 (32 + g.group) cause .none)
    | none => s

end Sys2Proof.Machine
end

