-- ==== Sys2Proof/Machine/PortOps.lean ====
section
/-! DEFINITION. Rings, completions, notices and interrupts of the host ports (R395 to R400). -/
namespace Sys2Proof.Machine

/-- A ring of a port. -/
def Port.ring (p : Port) (r : Nat) : Ring := Tbl.lk {} p.rings r
/-- Changes a ring. -/
def Port.modRing (p : Port) (r : Nat) (f : Ring → Ring) : Port := { p with rings := Tbl.up p.rings r (f (p.ring r)) }
/-- A ring of a port. -/
def State.ring (s : State) (q r : Nat) : Ring := (s.port q).ring r
/-- Changes a ring. -/
def State.modRing (s : State) (q r : Nat) (f : Ring → Ring) : State := s.modPort q (fun p => p.modRing r f)

/-- RING_CTL.ENABLE (R395). -/
def Ring.enabled (r : Ring) : Bool := bit r.ctl.toNat 31
/-- RING_STATUS.ACTIVE: enabled and not halted (R395). -/
def Ring.active (r : Ring) : Bool := r.enabled && r.error == 0
/-- Entries of the command ring (R395). -/
def Ring.cmdSize (r : Ring) : Nat := 2 ^ bits r.ctl.toNat 30 27
/-- Entries of the completion ring (R395). -/
def Ring.cplSize (r : Ring) : Nat := 2 ^ bits r.ctl.toNat 26 23
/-- The MSI-X vector (R395). -/
def Ring.vector (r : Ring) : Nat := bits r.ctl.toNat 22 17
/-- COALESCE_COUNT (R395). -/
def Ring.coalesce (r : Ring) : Nat := bits r.ctl.toNat 16 9
/-- COALESCE_US (R395). -/
def Ring.coalesceUs (r : Ring) : Nat := bits r.ctl.toNat 8 0
/-- Is the completion ring full (R396, R399)? -/
def Ring.full (r : Ring) : Bool := (r.cplTail + 1) % r.cplSize == r.cplHead
/-- RING_STATUS (R395). -/
def Ring.status (r : Ring) : W32 :=
  BitVec.ofNat 32 (b2n r.active * 2 ^ 31 + b2n r.draining * 2 ^ 30 + r.error * 2 ^ 26)

/-- Mesh cycles of a number of µs (1.6 GHz). -/
def usCycles (us : Nat) : Nat := 1600 * us
/-- Mesh cycles of a number of ms. -/
def msCycles (ms : Nat) : Nat := 1600000 * ms

/-- Signals an MSI-X vector: the message, or the pending bit of a masked vector (R400). -/
def State.signal (s : State) (q v : Nat) : State :=
  if bit (Tbl.lk 0 (s.port q).msix v).toNat 96 then
    s.modPort q (fun p => { p with pba := p.pba ||| BitVec.ofNat 64 (2 ^ v) })
  else s.emit (.msix q v)

/-- Sets bits of INT_STATUS; a set and unmasked bit raises vector 0 (R395). -/
def State.raiseInt (s : State) (q b : Nat) : State :=
  let m : W32 := BitVec.ofNat 32 (2 ^ b)
  let s := s.modPort q (fun p => { p with intStatus := p.intStatus ||| m })
  if (s.port q).intMask &&& m = 0 then s.signal q 0 else s

/-- Halts a ring with an ERROR (R395, R396, R399). -/
def State.haltRing (s : State) (q r e : Nat) : State := (s.modRing q r (fun x => { x with error := e })).raiseInt q 1

/-- Counts an entry as unsignalled and signals the ring's vector under COALESCE_COUNT and COALESCE_US (R400). -/
def State.signalRing (s : State) (q r : Nat) : State :=
  let x := s.ring q r
  let n := x.unsignalled + 1
  if x.coalesce ≤ n ∨ x.coalesceUs = 0 then (s.modRing q r (fun x => { x with unsignalled := 0 })).signal q x.vector
  else s.modRing q r (fun x => { x with unsignalled := n, firstUnsig := if x.unsignalled = 0 then s.timeBase else x.firstUnsig })

/-- What follows the posting of a notice: a STEP entry no longer delays its partition's next start (R399), a
RESUPPLY_REQUEST is known to its host (R239). -/
def State.noticePosted (s : State) (e : Cpl) : State :=
  if e.type = 3 then s.modPart e.part (fun p => { p with run := p.run.map (fun r => { r with cplWait := false }) })
  else if e.type = 5 then
    let tag := bits e.body.toNat 31 0
    s.modPart e.part (fun p => { p with
      resup := p.resup.map (fun x => if x.idx = tag % 64 ∧ x.serial = tag / 64 then { x with posted := true } else x) })
  else s

/-- Writes an entry into the next slot of a completion ring, then its vector (R398, R399). -/
def State.writeCpl (s : State) (q r : Nat) (e : Cpl) : State :=
  let x := s.ring q r
  let n := x.cplTail + 1
  let s := s.emit (.cpl q r x.cplTail x.phase e (x.cplBase.toNat + 64 * x.cplTail) (e.bytes x.phase))
  let s := s.modRing q r (fun x => { x with cplTail := n % x.cplSize, phase := if x.cplSize ≤ n then !x.phase else x.phase })
  (s.signalRing q r).noticePosted e

/-- May an entry be written to a ring now (R399)? -/
def Ring.takes (r : Ring) : Bool := r.active && !r.full

/-- Does a notice of a ring wait before this one (R399)? -/
def Port.waitsFor (p : Port) (r : Nat) : Bool := p.notices.any (fun n => n.1 == r)

/-- Posts a notice to a ring, or leaves it in the port's queue of 64; a full queue halts the ring with ERROR 3 (R399). -/
def State.notice (s : State) (q r : Nat) (e : Cpl) : State :=
  if (s.ring q r).takes && !(s.port q).waitsFor r then s.writeCpl q r e
  else if (s.port q).notices.length < 64 then
    let s := if e.type = 3 then s.modPart e.part (fun p => { p with run := p.run.map (fun x => { x with cplWait := true }) }) else s
    (s.modPort q (fun p => { p with notices := p.notices ++ [(r, e)] })).raiseInt q 2
  else s.haltRing q r 3

/-- Posts the waiting notices of a port that its rings now take, in order (R399). -/
def postNotices (q : Nat) : List (Nat × Cpl) → State → List (Nat × Cpl) → State × List (Nat × Cpl)
  | [], s, kept => (s, kept)
  | (r, e) :: t, s, kept =>
    if (s.ring q r).takes && !kept.any (fun n => n.1 == r) then postNotices q t (s.writeCpl q r e) kept
    else postNotices q t s (kept ++ [(r, e)])

/-- Posts what waits for slots of a port's rings: held COMMAND_DONEs first, then notices (R399). -/
def State.flushPort (s : State) (q : Nat) : State :=
  let s := (List.range 16).foldl (fun s r =>
    match (s.ring q r).held with
    | e :: t => if (s.ring q r).takes then (s.modRing q r (fun x => { x with held := t })).writeCpl q r e else s
    | [] => s) s
  let (s, kept) := postNotices q (s.port q).notices s []
  s.modPort q (fun p => { p with notices := kept })

/-- The ring that receives a partition's notices, on the port of its owning host (R395, R398). -/
def State.notifyRing (s : State) (p : Nat) : Nat × Nat :=
  let q := s.owner p
  (q, bits (Tbl.lk 0 (s.port q).notify p).toNat 3 0)

/-- Posts a notice of a partition to its owning host (R398). -/
def State.notifyPart (s : State) (p : Nat) (e : Cpl) : State :=
  let (q, r) := s.notifyRing p
  if (s.port q).loss.isEmpty then s.notice q r { e with part := p } else s

/-- Builds bytes 8 to 63 of an entry from byte offset, bytes and value of each field (R398). -/
def cplBody (fs : List (Nat × Nat × Nat)) : BitVec 448 :=
  BitVec.ofNat 448 (sumOf (fs.map (fun f => (f.2.2 % 2 ^ (8 * f.2.1)) * 2 ^ (8 * (f.1 - 8)))))

/-- A command as the port took it: port, ring, partition, CMD_ID (R397). -/
structure CmdId where
  port : Nat
  ring : Nat
  part : Nat
  id : W32
  deriving DecidableEq, Repr

/-- A command of a ring has ended: whether its completion is discarded, as its ring was disabled meanwhile (R395). -/
def State.endCmd (s : State) (q r : Nat) (id : W32) : Bool × State :=
  let gone := (s.ring q r).discard.contains id
  let s := s.modRing q r (fun x => { x with started := x.started.erase id })
  if gone then
    (true, s.modRing q r (fun x => let d := x.discard.erase id; { x with discard := d, draining := x.draining && !d.isEmpty }))
  else (false, s)

/-- Ends a command with a COMMAND_DONE entry (R397, R398): discarded if its ring was disabled meanwhile (R395), held
back while the ring is full (R399). -/
def State.done (s : State) (c : CmdId) (status : Nat) (body : List (Nat × Nat × Nat) := []) : State :=
  let (gone, s) := s.endCmd c.port c.ring c.id
  if gone then s
  else
    let e : Cpl := { type := 1, status := status, part := c.part, cmdId := c.id, body := cplBody body }
    if (s.ring c.port c.ring).takes && !(s.port c.port).waitsFor c.ring then s.writeCpl c.port c.ring e
    else if (s.ring c.port c.ring).enabled then s.modRing c.port c.ring (fun x => { x with held := x.held ++ [e] })
    else s

end Sys2Proof.Machine
end

