-- ==== Sys2Proof/Machine/Fault.lean ====
section
/-! DEFINITION. The error log (R420 to R423), the units it names (R415), and section faults (R75, R307, R410, R411). -/
namespace Sys2Proof.Machine

/-- The code of a cause (R411). -/
def SCause.code : SCause → Nat
  | .drainLimit => 0x01 | .peerSectionFault => 0x02 | .progressLimit => 0x03 | .mireStartLate => 0x04 | .hostLost => 0x05
  | .fenHung => 0x06 | .handleBound => 0x10 | .descriptorShape => 0x11 | .queuePointer => 0x12 | .sluiceSequence => 0x13
  | .sluiceSelect => 0x14 | .vectorLength => 0x15 | .vectorAlign => 0x16 | .vectorOperand => 0x17 | .spadUncorrectable => 0x18
  | .poolUncorrectable => 0x19 | .accUncorrectable => 0x1A | .tileCrc => 0x20 | .tileFormat => 0x21 | .matrixShape => 0x22
  | .tileExtent => 0x23 | .hbmUncorrectable => 0x28 | .boardUncorrectable => 0x29 | .hostData => 0x2A | .hostPage => 0x2B
  | .resupplyFailed => 0x2C | .resupplyOverflow => 0x2D | .resupplyLimit => 0x2E | .sealExhausted => 0x2F
  | .meshMisroute => 0x30 | .meshLink => 0x31 | .rillMisroute => 0x32 | .lodeDown => 0x38 | .configMismatch => 0x39
  | .windowLimit => 0x3A | .multicastTimeout => 0x3B | .sumpResidue => 0x40 | .sumpCount => 0x41 | .sumpLimit => 0x42

/-- The cause of a code that a peer's abort carries (R307); a code of no cause counts as PEER_SECTION_FAULT (entry 37). -/
def SCause.ofCode (n : Nat) : SCause :=
  match n with
  | 0x38 => .lodeDown | 0x39 => .configMismatch | 0x3B => .multicastTimeout | 0x40 => .sumpResidue | 0x41 => .sumpCount
  | 0x42 => .sumpLimit | 0x23 => .tileExtent | _ => .peerSectionFault

/-! ### Unit words (R415) -/

/-- The unit word of a reed. -/
def reedUnit (r : Nat) : Nat := 1 * 2 ^ 28 + r
/-- The unit word of a pool. -/
def poolUnit (t : Nat) : Nat := 2 * 2 ^ 28 + t
/-- The unit word of an HBM4 region: stack and 1 MiB region. -/
def hbmUnit (stack region : Nat) : Nat := 3 * 2 ^ 28 + stack * 2 ^ 24 + region % 65536
/-- The unit word of a mesh link: plane, direction, router. -/
def linkUnit (plane dir t : Nat) : Nat := 5 * 2 ^ 28 + plane * 2 ^ 12 + dir * 2 ^ 9 + t
/-- The unit word of a lode. -/
def lodeUnit (n : Nat) : Nat := 6 * 2 ^ 28 + n
/-- The unit word of a sump half. -/
def sumpUnit (h : Nat) : Nat := 7 * 2 ^ 28 + h
/-- The unit word of a control core. -/
def coreUnit (c : Nat) : Nat := 8 * 2 ^ 28 + c
/-- The unit word of a fen. -/
def fenUnit (f : Nat) : Nat := 9 * 2 ^ 28 + f
/-- The unit word of the management island. -/
def mgmtUnit : Nat := 10 * 2 ^ 28
/-- The unit word of a dipwell. -/
def dipwellUnit (d : Nat) : Nat := 11 * 2 ^ 28 + d
/-- The unit word of a regulator. -/
def regUnit (a : Nat) : Nat := 12 * 2 ^ 28 + a

/-- Adds a unit word to the out-of-service record, kept ascending (R415). -/
def insertUnit : List Nat → Nat → List Nat
  | [], u => [u]
  | v :: t, u => if u < v then u :: v :: t else if u = v then v :: t else v :: insertUnit t u
/-- Is a unit out of service? -/
def State.isOut (s : State) (u : Nat) : Bool := s.oos.contains u

/-! ### The log -/

/-- The 64 bytes of a log entry (R421). -/
def LogRec.bytes (e : LogRec) : List Byte :=
  let d := e.detail.foldl (fun (acc : Nat × Nat) f => (acc.1 + (f.2 % 2 ^ f.1) * 2 ^ acc.2, acc.2 + f.1)) (0, 0)
  leBytes 4 e.seq ++ leBytes 2 e.cause ++ leBytes 1 e.cls
    ++ leBytes 1 (b2n e.secondary + 2 * b2n e.coalesced + 4 * b2n e.persisted + 8 * b2n e.unverified + 16 * b2n e.fromEast)
    ++ leBytes 8 e.time.toNat ++ leBytes 1 (e.part.getD 0xFF) ++ leBytes 1 0 ++ leBytes 2 e.count ++ leBytes 4 e.sectionId
    ++ leBytes 8 e.step ++ leBytes 4 e.unit ++ leBytes 4 e.detailWord ++ leBytes 24 d.1

/-- Is an entry of a class kept in the flash log (R422)? -/
def flashClass (cls : Nat) : Bool := cls == 2 || cls == 3 || cls == 4
/-- The tag of a record of the flash log, chained over the previous record's (R422). -/
def Fuses.chainTag (f : Fuses) (prev : BitVec 128) (e : LogRec) : BitVec 128 :=
  Config.kmacTag (Config.logKey f.secret) (leBytes 16 prev.toNat ++ e.bytes)
/-- A record of 128 bytes of the flash log (R422). -/
def flashRecord (e : LogRec) (tag : BitVec 128) : List Byte := e.bytes ++ leBytes 16 tag.toNat ++ rep 48 0
/-- Where the n-th record ever written stands in flash: 1,024 records in rotation (R422). -/
def flashSlot (n : Nat) : Nat := 0x01880000 + 128 * (n % 1024)
/-- The records that the flash log holds, each with its offset in flash (R422). -/
def ErrLog.flashImage (l : ErrLog) : List (Nat × List Byte) :=
  let n := l.flash.length
  (l.flash.zip l.tags).zipIdx.map (fun r => (flashSlot (l.flashCount - n + r.2), flashRecord r.1.1 r.1.2))
/-- Writes an entry of a flash class into the flash log, which keeps the last 1,024 (R422). -/
def ErrLog.toFlash (l : ErrLog) (f : Fuses) (e : LogRec) : ErrLog :=
  if flashClass e.cls then
    { l with flash := (l.flash ++ [e]).drop (l.flash.length + 1 - 1024), tags := (l.tags ++ [f.chainTag (l.tags.getLastD 0) e]).drop (l.tags.length + 1 - 1024),
             flashCount := l.flashCount + 1 }
  else l

/-- Sends an event to every session subscribed to its class that holds fewer than 32 unacknowledged ones (R380). -/
def State.sendEvent (s : State) (e : LogRec) : State :=
  s.sedge.sessions.foldl (fun s x =>
    if bit x.mask.toNat e.cls && decide (x.events.length < 32) then
      (s.sendTo x.id 9 0 0 x.nextEvent e.bytes).modSession x.id (fun y =>
        { y with events := y.events ++ [{ req := y.nextEvent, entry := e, sends := 1, at_ := s.timeBase }], nextEvent := y.nextEvent + 1 })
    else s) s

/-- Writes a new entry: the ring of 4,096 drops its oldest, counted as lost where no read returned it (R389, R420), and
classes LASTING, FATAL and SECURITY go to the flash log of 1,024 (R422). -/
def State.logPut (s : State) (e : LogRec) : State :=
  let l := s.log
  let e := { e with seq := l.next % 2 ^ 32 }
  let ring := l.ring ++ [e]
  let lost := decide (4096 < ring.length) && (match ring with | o :: _ => !o.wasRead | [] => false)
  let s := { s with log := { l.toFlash s.fuses e with ring := ring.drop (ring.length - 4096), next := (l.next + 1) % 2 ^ 32 } }
  let s := if lost then s.bump 0x6000 3 else s
  s.sendEvent e

/-- A new entry with the section of a partition (R421). -/
def State.logRec (s : State) (cls code : Nat) (part : Option Nat) (unit dw : Nat) (detail : List (Nat × Nat)) : LogRec :=
  let r := match part with | some p => (s.part p).run | none => none
  { seq := 0, cause := code, cls := cls, time := s.timeBase, part := part,
    sectionId := match r with | some r => r.sec.sectionId | none => 0,
    step := match r with | some r => r.step.toNat | none => 0, unit := unit, detailWord := dw, detail := detail }

/-- Logs an event (R423): a TRANSIENT one joins the open entry of its cause and unit while that is less than 1 ms old (R420). -/
def State.logEvent (s : State) (cls code : Nat) (part : Option Nat) (unit dw : Nat) (detail : List (Nat × Nat)) : State :=
  let isOpen := fun (e : LogRec) => e.cls == 0 && e.cause == code && e.unit == unit
  match s.log.ring.reverse.find? isOpen with
  | some o =>
    if cls = 0 ∧ s.timeBase.toNat - o.time.toNat < msCycles 1 then
      let again := fun (e : LogRec) => { e with count := satAdd 16 e.count 1, coalesced := true }
      { s with log := { s.log with ring := s.log.ring.map (fun e => if e.seq = o.seq then again e else e) } }
    else s.logPut (s.logRec cls code part unit dw detail)
  | none => s.logPut (s.logRec cls code part unit dw detail)

/-- Takes a unit out of service: the record of R415 and the event UNIT_OUT_OF_SERVICE (R27). -/
def State.takeOut (s : State) (u : Nat) (part : Option Nat) : State :=
  if s.isOut u then s
  else ({ s with oos := insertUnit s.oos u }).logEvent 2 0x0110 part u 0 []

/-! ### Section faults -/

/-- A reed stops: its queues are discarded, with everything it had under way (R75). -/
def Reed.stop (x : Reed) : Reed :=
  let empty := fun (q : InQ) => { q with toks := [], fresh := 0, inPacket := false, dropping := false, wr := 0, wr2 := 0, rd := 0, rd2 := 0 }
  let full := fun (q : OutQ) => { q with cr := 32, cr2 := 32, tok := 0 }
  { x with
    status := .stopped, inBody := false, qi := x.qi.map (fun q => (q.1, empty q.2)), qo := x.qo.map (fun q => (q.1, full q.2)),
    ops := [], blockOps := [], marks := [], descq := [], streamHalts := [], hold := [], matq := [], fin := [],
    correcting := false, fetch := { x.fetch with ended := true },
    ctx := x.ctx.map (fun c => (c.1, { c.2 with wait := none, fence := false })) }

/-- A tussock of a faulted section: paths emptied, held writes and merge groups discarded, the epoch advanced (R71, R75). -/
def Tussock.stop (x : Tussock) : Tussock :=
  { x with
    epoch := x.epoch + 1, owner := none, hold := [], groups := [], batches := [],
    paths := x.paths.map (fun q => (q.1, { q.2 with data := [], ctl := {}, k := 0, fwd := none, sent := [] })) }

/-- LOAD completion (R67, R398), posted to the partition's notice ring. -/
def State.loadDone (s : State) (p : Nat) (g : Staged) (status dw : Nat) : State :=
  let x := g.sec
  let (gone, s) := s.endCmd g.port g.ring g.cmdId
  let body := cplBody [(8, 4, x.sectionId), (12, 4, dw), (16, 8, x.mapping.toNat), (24, 8, x.fingerprint.toNat), (32, 1, x.x0),
    (33, 1, x.y0), (36, 4, g.prepUs)]
  if gone then s else s.notifyPart p { type := 2, status := status, cmdId := g.cmdId, body := body }

/-- A load that is not accepted charges nothing: the placements its PREPARE added go (R223). -/
def State.uncharge (s : State) (p : Nat) (g : Staged) : State :=
  if g.added.isEmpty then s
  else (s.modPart p (fun x => { x with places := x.places.filter (fun y => !g.added.contains y.tensor) })).recount p

/-- Discards a partition's staged load with ABORTED (R68, R75); its next-section areas are free at once (R67). An armed load has
posted its one completion and posts no other (R67; entry 128). -/
def State.abortStaged (s : State) (p : Nat) : State :=
  match (s.part p).staged with
  | none => s
  | some g =>
    let s := (s.modPart p (fun x => { x with staged := none })).uncharge p g
    if g.phase = .armed then s else s.loadDone p g 0x1F 0

/-- ENTRY_TAG of a resupply entry (R398). -/
def Resup.tag (e : Resup) : Nat := (e.serial % 2 ^ 26) * 64 + e.idx

/-- Is a notice the request of a resupply entry? -/
def isRequest (p : Nat) (e : Resup) (n : Nat × Cpl) : Bool :=
  n.2.type == 5 && n.2.part == p && bits n.2.body.toNat 31 0 == e.tag

/-- Removes every resupply entry of a faulted section: a posted request is cancelled, a waiting one withdrawn (R239). -/
def State.cancelResups (s : State) (p : Nat) : State :=
  let es := (s.part p).resup
  let s := s.modPart p (fun x => { x with resup := [], resupDone := [] })
  es.foldl (fun s e =>
    if e.posted then
      (s.logEvent 8 0x0171 (some p) 0 e.tag []).notifyPart p { type := 6, body := cplBody [(8, 4, e.tag)] }
    else s.modPort (s.owner p) (fun q => { q with notices := q.notices.filter (fun n => !isRequest p e n) })) s

/-- Everything the device holds for a section goes: its descriptors and stream contexts with what they await (R235),
its sump slots, windows and multicasts (R307), its reeds and tussocks (R75). -/
def State.dropSection (s : State) (p : Nat) (x : Sect) : State :=
  let ts := x.tussocks
  let mine := fun (r : Nat) => ts.contains (tusOf r)
  let gone := (s.xfers.filter (fun f => mine f.reed)).map (·.id)
  let clear := fun (h : SumpHalf) =>
    { h with slots := h.slots.filter (fun k => k.part != p), waits := h.waits.filter (fun w => !mine w.reed),
             buf := h.buf.filter (fun b => b.part != p) }
  { s with
    reeds := s.reeds.map (fun r => if mine r.1 then (r.1, r.2.stop) else r),
    tus := s.tus.map (fun t => if ts.contains t.1 then (t.1, t.2.stop) else t),
    xfers := s.xfers.filter (fun f => !mine f.reed),
    retries := s.retries.filter (fun f => !gone.contains f.xfer),
    ports := s.ports.map (fun q => (q.1, { q.2 with reqs := q.2.reqs.filter (fun r => !gone.contains r.xfer) })),
    groups := s.groups.filter (fun g => g.part != p),
    sump := s.sump.map (fun h => (h.1, clear h.2)),
    mcasts := s.mcasts.filter (fun m => m.part != p),
    mire := { s.mire with reports := s.mire.reports.filter (fun r => r.1 % 8 != p) } }

/-- A fault that reaches a section already stopped (R410): a SECONDARY entry, and nothing else; but where the section was stopped in this
same cycle by a fault of a higher code, this one is its cause, and the other's entry becomes SECONDARY. -/
def State.laterFault (s : State) (p : Nat) (c : SCause) (unit dw : Nat) (detail : List (Nat × Nat)) : State :=
  let e := s.logRec 1 c.code (some p) unit dw detail
  match (s.part p).faultNote with
  | none => s.logPut { e with secondary := true }
  | some n =>
    let e := { e with sectionId := n.sectionId, step := n.step.toNat }
    if n.code ≤ c.code then s.logPut { e with secondary := true }
    else
      let seq := s.log.next
      let s := { s with log := { s.log with ring := s.log.ring.map (fun (x : LogRec) => if x.seq = n.seq then { x with secondary := true } else x) } }
      ((s.logPut e).set (0x5100 + p) 6 c.code).modPart p (fun x => { x with faultNote := some { n with code := c.code, seq := seq } })

/-- Tells the host and the mire of a section fault, once the cycle that may bring a lower cause has passed (R75, R398, R410). -/
def State.postFault (s : State) (p : Nat) : State :=
  match (s.part p).faultNote with
  | none => s
  | some n =>
    let body := cplBody [(8, 4, n.sectionId), (12, 2, n.code), (16, 8, n.step.toNat), (24, 4, n.seq)]
    ((s.modPart p (fun x => { x with faultNote := none })).faultNotices p n.code).notifyPart p { type := 4, body := body }

/-- A section fault (R75): logged, and its host and mire told at the cycle's end; with no running section see laterFault (R410). Its groups
but the named one abort with PEER_SECTION_FAULT (R307). -/
def State.sectionFault (s : State) (p : Nat) (c : SCause) (unit dw : Nat) (detail : List (Nat × Nat)) (from_ : Option Nat := none) :
    State :=
  match (s.part p).run with
  | none => s.laterFault p c unit dw detail
  | some r =>
    let note : FaultNote := { code := c.code, seq := s.log.next, sectionId := r.sec.sectionId, step := r.step }
    let s := s.logPut (s.logRec 1 c.code (some p) unit dw detail)
    let s := (r.sec.groups.filter (fun g => from_ != some g.group)).foldl (fun s g => s.abortGroup p g 0x02) s
    let s := (s.dropSection p r.sec).set (0x5100 + p) 6 c.code
    let s := (s.cancelResups p).abortStaged p
    s.modPart p (fun x => { x with run := none, faulted := true, faultNote := some note, merges := x.merges.filter (fun m => m.step != r.step) })

/-- Faults several sections for one cause. -/
def State.faultParts (s : State) (ps : List Nat) (c : SCause) (unit dw : Nat) : State :=
  ps.foldl (fun s p => if (s.part p).run.isSome then s.sectionFault p c unit dw [] else s) s

/-- A fault that a reed's section takes, with the reed as its unit. -/
def State.reedFault (s : State) (r : Nat) (c : SCause) (dw : Nat) (detail : List (Nat × Nat)) : State :=
  match s.partOf r with
  | none => s
  | some p => s.sectionFault p c (reedUnit r) dw detail

/-- A collective fails at this member (R307): MC_ABORT with the cause, and the section faults. -/
def State.failCollective (s : State) (p : Nat) (g : GroupDecl) (c : SCause) (unit dw : Nat) : State :=
  (s.abortGroup p g c.code).sectionFault p c unit dw [] (some g.group)

/-- Progress of a section (R408): a firing starts or ends, a queue moves a token. -/
def State.progress (s : State) (r : Nat) : State :=
  match s.partOf r with
  | none => s
  | some p => s.modPart p (fun x => { x with run := x.run.map (fun u => { u with progress := s.timeBase }) })

/-! ### Where a group's tiles are added (R292, R293) -/

/-- The group of a reed's section by its number. -/
def State.groupOfReed (s : State) (r group : Nat) : Option (Nat × GroupDecl) :=
  match s.partOf r with
  | none => none
  | some p => ((s.boundGroups p).find? (fun g => g.group == group)).map (fun g => (p, g))

/-- Quadrant tiles in one row of tiles, and in all, of a tensor (R292). -/
def GroupTensor.tileCols (t : GroupTensor) : Nat := (t.cols + 31) / 32
/-- Quadrant tiles of a tensor. -/
def GroupTensor.tiles (t : GroupTensor) : Nat := ((t.rows + 31) / 32) * t.tileCols

/-- TILE_SEQ of a quadrant tile (R292, R294): none where the tensor is not listed or the tile lies outside it. -/
def GroupDecl.seqOf (g : GroupDecl) (tensor row col : Nat) : Option Nat :=
  let rec go : List GroupTensor → Nat → Option Nat
    | [], _ => none
    | t :: ts, n =>
      if t.id = tensor then
        (if row * 32 < t.rows ∧ col * 32 < t.cols then some (n + row * t.tileCols + col) else none)
      else go ts (n + t.tiles)
  go g.tensors 0

/-- The tensor of a TILE_SEQ, with the tile's row and column and whether it is the tensor's last. -/
def GroupDecl.tileOf (g : GroupDecl) (seq : Nat) : Option (GroupTensor × Nat × Nat × Bool) :=
  let rec go : List GroupTensor → Nat → Option (GroupTensor × Nat × Nat × Bool)
    | [], _ => none
    | t :: ts, n =>
      if n < t.tiles then some (t, n / t.tileCols, n % t.tileCols, n + 1 == t.tiles)
      else go ts (n - t.tiles)
  go g.tensors seq

/-- Quadrant tiles of a group in one step. -/
def GroupDecl.total (g : GroupDecl) : Nat := sumOf (g.tensors.map (·.tiles))

/-- A group's progress. -/
def State.groupRun (s : State) (p group : Nat) : GroupRun :=
  (s.groups.find? (fun g => g.part == p && g.group == group)).getD { part := p, group := group }

/-- The crossbar half that adds a contribution: west for an even TILE_SEQ, east for an odd one (R292); a tile that names
no TILE_SEQ goes to its own fen's half, where it fails (R294). -/
def State.sumpHalfOf (s : State) (r group : Nat) (tile : List Byte) : Nat :=
  let f := fun (a n : Nat) => leNat ((tile.drop a).take n)
  match s.groupOfReed r group with
  | none => fenOf (tusOf r)
  | some (_, g) => match g.seqOf (f 0 4) (f 4 4) (f 8 4) with | some q => q % 2 | none => fenOf (tusOf r)

/-- May a reed's MSUMP of a group send (R149)? The wait above the window is the contribution's (R295). -/
def State.sumpAccepts (s : State) (r group : Nat) : Bool := (s.groupOfReed r group).isSome

end Sys2Proof.Machine
end

