-- ==== Sys2Proof/Machine/ReedWord.lean ====
section
/-! DEFINITION. The instruction words of a reed program (R79, R89, R90): their fields, and the instruction that an engine decodes from a word. -/
namespace Sys2Proof.Machine

/-! ### Fields of a word -/

/-- The class of a register specifier (R79): 0 S, 1 A, 2 V, 3 C, 4 QI, 5 QO, 6 VL, 7 ZERO, 8 FIRING; none where reserved. -/
def regClass (n : Nat) : Option Nat :=
  let i := n % 32
  match n / 32 with
  | 0 => if i < 16 then some 0 else none
  | 1 => if i < 16 then some 1 else none
  | 2 => some 2
  | 3 => if i < 8 then some 3 else none
  | 4 => if i < 8 then some 4 else none
  | 5 => if i < 8 then some 5 else none
  | 6 => if i < 3 then some (6 + i) else none
  | _ => none
/-- Is a specifier a register of one of the classes? -/
def isReg (cs : List Nat) (n : Nat) : Bool := match regClass n with | some c => cs.contains c | none => false
/-- Fields of format A (R89). -/
def wDst (w : Nat) : Nat := bits w 55 48
/-- SRC1. -/
def wS1 (w : Nat) : Nat := bits w 47 40
/-- SRC2. -/
def wS2 (w : Nat) : Nat := bits w 39 32
/-- SRC3. -/
def wS3 (w : Nat) : Nat := bits w 31 24
/-- FMT. -/
def wFmt (w : Nat) : Nat := bits w 23 20
/-- RND. -/
def wRnd (w : Nat) : Nat := bits w 19 18
/-- SR_OPERAND. -/
def wSr (w : Nat) : Nat := bits w 17 12
/-- The monitor binding: MON_EN and MON_SLOT (R183). -/
def wMon (w : Nat) : Nat := bits w 11 8

/-! ### Decoding (R89, R90) -/

/-- An index within its range. -/
def ix (n : Nat) [NeZero n] (k : Nat) : Fin n := Fin.ofNat n k

/-- A scalar source: an S register, or ZERO at 0xC1 (R79). -/
def decS (n : Nat) : SSrc := if n = 0xC1 then .zero else .s (ix 16 n)

/-- A source of SMOV (R79, R90). -/
def decMovSrc (n : Nat) : MovSrc :=
  match n / 32 with
  | 0 => .s (ix 16 n)
  | 1 => .a (ix 16 n)
  | 3 => .c (ix 8 n)
  | _ => if n = 0xC0 then .vl else .firing

/-- A destination of SMOV (R79, R90). -/
def decMovDst (n : Nat) : MovDst :=
  match n / 32 with
  | 0 => .s (ix 16 n)
  | 1 => .a (ix 16 n)
  | _ => .vl

/-- A V register of a specifier (R79). -/
def decV (n : Nat) : Fin 32 := ix 32 n

/-- The fields of format A that a vector instruction keeps (R89, R183). -/
def decOpt (w : Nat) : VOpt :=
  { fmt := (Fmt.ofCode (wFmt w)).getD .fp32
    rnd := match wRnd w with | 1 => .stoch | 2 => .toZero | _ => .near
    sr := BitVec.ofNat 6 (wSr w)
    mon := if 8 ≤ wMon w then some (ix 8 (wMon w)) else none }

/-- HANDLE and AREG at bits [55:50] and [49:46], as formats T and M hold them (R89). -/
def decHA (w : Nat) : HA := { h := ix 64 (bits w 55 50), a := ix 16 (bits w 49 46) }

/-- HANDLE and AREG of format Q (R89). -/
def decQHA (w : Nat) : HA := { h := ix 64 (bits w 29 24), a := ix 16 (bits w 23 20) }

/-- HANDLE and AREG of format VM (R89). -/
def decVmHA (w : Nat) : HA := { h := ix 64 (bits w 47 42), a := ix 16 (bits w 41 38) }

/-- A descriptor of format D (R89). -/
def decDesc (w : Nat) : Desc :=
  { src := { h := ix 64 (bits w 55 50), a := ix 16 (bits w 43 40) }
    dst := { h := ix 64 (bits w 49 44), a := ix 16 (bits w 39 36) }
    slots := bits w 35 24
    mode := match bits w 23 20 with | 0 => .contiguous | 1 => .strided (ix 16 (bits w 19 16)) | _ => .transposed }

/-- A step of the soft maximum: SRC3 holds its kind in [1:0] and its group in [4:2] (R198). -/
def decSmax (w : Nat) : SmaxOp :=
  let g := ix 8 (wS3 w / 4)
  match wS3 w % 4 with
  | 0 => .init (decV (wDst w)) g
  | 1 => .accum (decV (wDst w)) (decV (wS1 w)) g
  | 2 => .finish (ix 16 (wDst w)) (decV (wS2 w)) g
  | _ => .emit (decV (wDst w)) (decV (wS1 w)) (decV (wS2 w)) g

/-- A control, scalar or address instruction of a word, by its opcode (R90). -/
def decScalar (r : RR) (e : Engine) (w : Nat) : Option Instr :=
  let imm := BitVec.ofNat 32 w
  let d := ix 16 (wDst w)
  let a := decS (wS1 w)
  let b := decS (wS2 w)
  match bits w 63 56 with
  | 0x00 => some (.nop r)
  | 0x01 => some (.loop r e (ix 8 (wDst w)) (BitVec.ofNat 24 (bits w 47 24)) (bits w 23 12))
  | 0x02 => some (.dmark r e)
  | 0x03 => some (.fence r)
  | 0x04 => some (.end_ r e)
  | 0x05 => some (.setvl r (BitVec.ofNat 8 w))
  | 0x06 => some (.note r (BitVec.ofNat 16 w))
  | 0x07 => some (.csr r d (BitVec.ofNat 12 w))
  | 0x08 => some (.csw r a (BitVec.ofNat 12 w))
  | 0x10 => some (.sadd r d a b)
  | 0x11 => some (.ssub r d a b)
  | 0x12 => some (.smul r d a b)
  | 0x13 => some (.sand r d a b)
  | 0x14 => some (.sor r d a b)
  | 0x15 => some (.sxor r d a b)
  | 0x16 => some (.sshl r d a b)
  | 0x17 => some (.sshr r d a b)
  | 0x18 => some (.sli r d imm)
  | 0x19 => some (.ssel r d a b (decS (wS3 w)))
  | 0x1A => some (.scmp r d a b (match wFmt w with | 0 => .eq | 1 => .ne | 2 => .ltS | _ => .ltU))
  | 0x1B => some (.smov r e (decMovDst (wDst w)) (decMovSrc (wS1 w)))
  | 0x1C => some (.aadd r e d (if wS1 w = 0xC1 then .zero else .a (ix 16 (wS1 w))) imm)
  | 0x1D => some (.amad r e d (ix 8 (wS1 w)) (ix 16 (wS2 w)))
  | _ => none

/-- A queue, tag, descriptor or matrix instruction of a word, by its opcode (R90). -/
def decMover (r : RR) (w : Nat) : Option Instr :=
  let reg := decV (wDst w)
  let q := ix 8 (wS1 w)
  let acc := ix 4 (bits w 45 44)
  let kb := bits w 35 24
  match bits w 63 56 with
  | 0x20 => some (.qpop r reg (bit w 31) q)
  | 0x21 => some (.qpopnb r reg (bit w 31) q (ix 16 (wS2 w)))
  | 0x22 => some (.qpush r reg (bit w 31) q)
  | 0x23 => some (.qdrop r q)
  | 0x24 => some (.qpopm r (decQHA w) q)
  | 0x25 => some (.qpushm r (decQHA w) q)
  | 0x26 => some (.twaitf r (decHA w) (bits w 45 34))
  | 0x27 => some (.tsete r (decHA w) (bits w 45 34))
  | 0x28 => some (.tsetf r (decHA w) (bits w 45 34))
  | 0x29 => some (.ctok r (ix 16 (wDst w)))
  | 0x30 => some (.fdld r (decDesc w))
  | 0x31 => some (.fdst r (decDesc w))
  | 0x32 => some (.fdmv r (decDesc w))
  | 0x40 => (Fmt.ofCode (bits w 43 40)).map (fun f => .mres r (decHA w) f kb)
  | 0x41 => match Fmt.ofCode (bits w 43 40), Fmt.ofCode (bits w 39 36) with
    | some fa, some fb => some (.mmac r (decHA w) acc fa fb kb (bit w 23) (bit w 22))
    | _, _ => none
  | 0x42 => some (.mout r acc)
  | 0x43 => some (.msump r (decHA w) acc (ix 16 (bits w 19 16)))
  | 0x44 => some (.mclr r acc)
  | 0x45 => some (.mcfg r (decHA w) acc (BitVec.ofNat 24 w))
  | _ => none

/-- A vector instruction of a word, by its opcode (R90). -/
def decVector (r : RR) (w : Nat) : Option Instr :=
  let o := decOpt w
  let d := decV (wDst w)
  let a := decV (wS1 w)
  let b := decV (wS2 w)
  let off := BitVec.ofNat 32 w
  match bits w 63 56 with
  | 0x50 => some (.vadd r o d a b)
  | 0x51 => some (.vsub r o d a b)
  | 0x52 => some (.vmul r o d a b)
  | 0x53 => some (.vfma r o d a b (decV (wS3 w)))
  | 0x54 => some (.vdiv r o d a b)
  | 0x55 => some (.vsqrt r o d a)
  | 0x56 => some (.vmax r o d a b)
  | 0x57 => some (.vmin r o d a b)
  | 0x58 => (Fmt.ofCode (wS2 w)).map (fun f => .vcvt r o d a f)
  | 0x59 => some (.vcmp r o d a b (match wS3 w with | 0 => .eq | 1 => .ne | 2 => .lt | _ => .le))
  | 0x5A => some (.vsel r o d a b (decV (wS3 w)))
  | 0x5B => some (.vbcast r o d (ix 16 (wS1 w)))
  | 0x5C => some (.vred r o (ix 16 (wDst w)) a (match wS2 w with | 0 => .sum | 1 => .max | _ => .sumsq))
  | 0x5D => some (.vstat r o d a (match wS2 w with | 0 => .init | 1 => .accum | _ => .finish))
  | 0x5E => some (.vrand r d (ix 16 (wS1 w)) (ix 16 (wS2 w)) (ix 16 (wS3 w)))
  | 0x60 => some (.vexp r d a)
  | 0x61 => some (.vlog r d a)
  | 0x62 => some (.vrsqrt r d a)
  | 0x63 => some (.vsigm r d a)
  | 0x64 => some (.vtanh r d a)
  | 0x65 => some (.vsmax r (decSmax w))
  | 0x66 => some (.vperm r o d a b)
  | 0x67 => some (.vshuf r o d a b (ix 16 (wS3 w)))
  | 0x68 => some (.vpack r o d a (ix 16 (wS3 w)))
  | 0x69 => some (.vunpk r o d a (ix 16 (wS3 w)))
  | 0x6A => some (.vld r d (decVmHA w) off (bit w 37))
  | 0x6B => some (.vst r d (decVmHA w) off)
  | 0x6C => some (.vtile r (if wDst w / 32 = 2 then .v d else .s (ix 16 (wDst w))))
  | _ => none

/-- The instruction an engine decodes from a word of program memory (R89, R90); a header, a guard or a reserved opcode is none. -/
def decodeReed (r : RR) (e : Engine) (w : Nat) : Option Instr :=
  if bits w 63 56 < 0x20 then decScalar r e w
  else if bits w 63 56 < 0x50 then decMover r w
  else decVector r w

end Sys2Proof.Machine
end

