-- ==== Sys2Proof/Machine/Issue.lean ====
section
/-! DEFINITION. How an engine issues an instruction (R83, R87 to R95, R100): whether it may, what it waits for, the
advance of the program counter through the loops in progress, and the end of a firing's body. -/
namespace Sys2Proof.Machine

/-! ### What a wait counts (R51, R96, R104) -/

/-- Does a lode with a neighbour that shows THROTTLE bring the data of some device that meets a condition (R283)? It is taken to arrive
through the group by which this device's table leaves toward the sender in the last dimension they differ in (entry 153). -/
def State.slowLode (s : State) (from_ : Nat → Bool) : Bool :=
  (List.range 24).any (fun n => (s.lode n).throttle && s.lodeState n == 2 &&
    (boxDevs [0, s.dim 0 - 1, 0, s.dim 1 - 1, 0, s.dim 2 - 1]).any (fun d => from_ d && (match s.lastAxis d with
      | some a => groupOf a (s.routeDir a (coord d a)) == n / 4
      | none => false)))
/-- A wait for data from other devices (R51, R283): WAIT_PEER_THROTTLED where any member of the mire has announced emergency throttle, or
a lode that brings the data has a neighbour that shows it (entry 153). -/
def State.peerCause (s : State) (from_ : Nat → Bool) : Cause :=
  if s.throttled.any s.mirePeers.contains || s.slowLode from_ then .waitPeerThrottled else .waitPeer

/-- May a device fill a slot (R284): a window of the partition that holds the slot, or for a slot outside every window any window of the
partition, takes puts from it? -/
def State.fillsFrom (s : State) (part : Option Nat) (sp : Space) (slot : Nat) (dev : Nat) : Bool :=
  let all : List Window := match part with | some p => (s.part p).windows.map (fun e => e.2) | none => []
  let ws := all.filter (fun w => w.isOpen)
  let here := ws.filter (fun w => match sp with
    | .pool t => !w.hbm && w.place == t && decide (w.first ≤ slot) && decide (slot < w.first + w.slots)
    | _ => false)
  (if here.isEmpty then ws else here).any (fun w => inBox w.box dev)

/-- The cause the FILL field names (R106). -/
def State.fillCause (s : State) (r : Nat) (sp : Space) (slot fill : Nat) : Cause :=
  match fill with
  | 0 => .waitInput | 1 => s.peerCause (s.fillsFrom (s.partOf r) sp slot) | 2 => .waitSump | _ => .waitHost

/-- Is a scratchpad slot the destination of an outstanding FDLD of the reed (R104)? -/
def State.loadOf (s : State) (r slot : Nat) : Option Xfer :=
  s.xfers.find? (fun x => x.reed == r && x.kind == .load && x.dst == .spad r
    && decide (x.dstBase ≤ slot) && decide (slot < x.dstBase + x.slots) && !x.got.contains (slot - x.dstBase))

/-- Are words of a slot of a scratchpad or pool under correction, or read a second time (R43, R114, R115)? -/
def State.corrects (s : State) (sp : Space) (slot : Nat) : Bool :=
  let within := fun (c : Tbl Nat) => c.any (fun e => e.1 / 4 == slot)
  match sp with
  | .spad r => within (s.reed r).corr
  | .pool t => within (s.tus1 t).corr
  | _ => false

/-- The cause of a halted stream's fault (R96): WAIT_HOST, WAIT_POISON, or for a closed window the wait for the window's device. -/
def State.streamCause (s : State) (x : Xfer) : Cause :=
  match x.fault with
  | .translation => .waitHost
  | .poison => .waitPoison
  | .windowClosed => s.peerCause (fun d => match x.dst with
      | .window w => (match Tbl.lk? (s.part x.part).peers w with | some (.unicast dev _ _) => dev == d | _ => false)
      | _ => false)
  | .none => .waitMemory

/-- Does some FDLD of the reed's program fill the buffer that holds a scratchpad slot (R90)? -/
def State.fetchFills (s : State) (r slot : Nat) : Bool :=
  (s.reed r).pmem.any (fun e =>
    let w := e.2.toNat
    let i := s.handle r (bits w 49 44)
    let b := s.extent i
    bits w 63 56 == 0x30 && i.kind == 1 && decide (b.1 ≤ slot) && decide (slot < b.1 + b.2))

/-- The stream fault that keeps a slot from being filled (R96): of the descriptor that is to fill it, or, where a halted stream keeps the
fetch engine from issuing the load that would, of that stream. -/
def State.haltedFor (s : State) (r slot : Nat) : Option Xfer :=
  match s.loadOf r slot with
  | some x => if x.halted then some x else none
  | none => if s.fetchFills r slot then (s.reed r).streamHalts.head?.bind (fun i => s.xfers.find? (fun x => x.id == i)) else none

/-- The cause a reed's read counts while it waits on a slot that is not FULL (R51, R96, R104). -/
def State.readCause (s : State) (r : Nat) (sp : Space) (slot fill : Nat) : Cause :=
  if s.tagFor .full sp slot = .poisoned then .waitPoison
  else match sp with
    | .spad _ =>
      match s.haltedFor r slot, s.loadOf r slot with
      | some x, _ => s.streamCause x
      | none, some x =>
        if s.corrects x.src (x.srcSlot (slot - x.dstBase)) then .waitCorrection
        else match x.src with | .host _ => .waitHost | _ => .waitMemory
      | none, none => s.fillCause r sp slot fill
    | _ => s.fillCause r sp slot fill

/-- The cause a plain write counts while it waits on a slot (R104). -/
def State.writeCause (s : State) (sp : Space) (slot : Nat) : Cause :=
  if s.tagFor .empty sp slot = .poisoned then .waitPoison else .waitOutput

/-- The cause a reed counts while it waits for acknowledgements of its writes: WAIT_OUTPUT (R104), or WAIT_MULTICAST while one of them is a
multicast (R51, R287). -/
def State.outCause (s : State) (r : Nat) : Cause :=
  let sends := fun (x : Xfer) => match x.dst with
    | .window w => (match Tbl.lk? (s.part x.part).peers w with | some (.multicast _) => true | _ => false)
    | _ => false
  if s.xfers.any (fun x => x.reed == r && (s.reed r).ops.any (fun o => o.id == x.op && o.kind == .store) && x.kind != .load && sends x)
  then .waitMulticast else .waitOutput

/-! ### The issue of an instruction -/

/-- The result of an instruction's own effect: done, a wait in the issue slot with its cause, a lost bank arbitration (R110), or a section
fault taken. -/
inductive Issue where
  | go (s : State)
  | wait (c : Cause)
  | lost (s : State)
  | fault (s : State)
  deriving DecidableEq, Repr

/-- Specifiers by which outstanding results are tracked (R79), one set per context. -/
def spS (k i : Nat) : Nat := 256 * k + i
/-- The specifier of an A register. -/
def spA (k i : Nat) : Nat := 256 * k + 32 + i
/-- The specifier of a V register: the physical register, which contexts do not share (R100). -/
def spV (x : Reed) (k i : Nat) : Nat := 64 + x.vNum k i
/-- VL's specifier. -/
def spVL (k : Nat) : Nat := 256 * k + 192

/-- The specifier of a scalar source; ZERO awaits nothing. -/
def SSrc.spec (k : Nat) : SSrc → List Nat
  | .s i => [spS k i.val]
  | .zero => []

/-- The header word FIRE (R84): slack, count, body length, guard length. -/
structure FireHdr where
  slack : Nat
  count : Nat
  body : Nat
  guards : Nat
  deriving DecidableEq, Repr

/-- The FIRE word at an index of program memory (R84). -/
def Reed.fireAt (x : Reed) (i : Nat) : Option FireHdr :=
  let w := (Tbl.lk 0 x.pmem i).toNat
  if bits w 63 56 = 0xF0 then some { slack := bits w 55 48, count := bits w 47 24, body := bits w 23 12, guards := bits w 11 6 }
  else none

/-- The FIRET word that follows a FIRE word (R84): base and period. -/
def Reed.firetAt (x : Reed) (i : Nat) : Nat × Nat :=
  let w := (Tbl.lk 0 x.pmem (i + 1)).toNat
  (bits w 55 24, bits w 23 0)

/-- A word of program memory (R83). -/
def Reed.word (x : Reed) (i : Nat) : Nat := (Tbl.lk 0 x.pmem i).toNat

/-- Is an instruction the one that stands at the program counter of the engine that issues it (R89, R90, R92)? -/
def Reed.names (x : Reed) (r : RR) (e : Engine) (i : Instr) : Bool :=
  decodeReed r e (x.word (match e with | .exec => (x.context r.ctx.val).pc.toNat | .fetch => x.fetch.pc.toNat)) == some i

/-- Is it a context's turn (R100): contexts are taken in rotation from the one after the context that issued last, and those before it have
ended or were passed over in this cycle? -/
def Reed.turn (x : Reed) (k : Nat) : Bool :=
  (List.range ((k + x.threads - x.lastCtx - 1) % x.threads)).all (fun i =>
    let j := (x.lastCtx + 1 + i) % x.threads
    (x.context j).ended || x.passed.contains j)

/-- May the execute engine issue for a context (R83, R87, R92, R100): at most one instruction in a reed cycle? -/
def Reed.canIssue (x : Reed) (k : Nat) : Bool :=
  x.status == .running && !x.issued && !(x.context k).ended
    && (if x.threads = 0 then k == 0 && x.inBody else decide (k < x.threads) && x.turn k)

/-- Is some write of the reed unacknowledged (R88, R90)? -/
def Reed.writesOut (x : Reed) : Bool := x.ops.any (fun o => o.kind == .store)

/-- The first index of a range at which an engine has something to issue. -/
def firstStop (takes : Nat → Bool) (lo hi : Nat) : Option Nat := (upto lo (hi - lo)).find? takes

/-- The loops after an engine has moved to an index, past the words that are not its own: where nothing of a loop's body is left to it,
the iteration ends, and the loop runs again, or falls through to the one around it with its counter at BOUND - 1 (R90, R94). The last
component counts the iterations of the outermost loop that ended. -/
def unwind (takes : Nat → Bool) : List Frame → Nat → Tbl (BitVec 24) → Nat × List Frame × Tbl (BitVec 24) × Nat
  | [], pc, c => (pc, [], c, 0)
  | f :: t, pc, c =>
    match firstStop takes pc f.stop with
    | some i => (i, f :: t, c, 0)
    | none =>
      match (if f.iter + 1 < f.bound then firstStop takes f.start f.stop else none) with
      | some i => (i, { f with iter := f.iter + 1 } :: t, Tbl.up c f.ctr (BitVec.ofNat 24 (f.iter + 1)), b2n t.isEmpty)
      | none =>
        let (p, fs, c', n) := unwind takes t f.stop (Tbl.up c f.ctr (BitVec.ofNat 24 (f.bound - 1)))
        (p, fs, c', n + (f.bound - f.iter) * b2n t.isEmpty)

/-- Does the execute engine take a word: all in threaded mode, else all but FDLD, which the fetch engine issues (R90, R100)? -/
def Reed.takes (x : Reed) (i : Nat) : Bool := x.threads != 0 || bits (x.word i) 63 56 != 0x30

/-- The index of the execute engine's next instruction (R81) once a firing of a block may start: the first of the body that it takes, and
past the last block the END. -/
def Reed.bodyPc (x : Reed) (block : Nat) : Nat :=
  match x.fireAt block with
  | some h => (firstStop x.takes (block + 2 + h.guards) (block + 2 + h.guards + h.body)).getD (block + 2 + h.guards + h.body)
  | none => block

/-- What ends with a firing's body (R87, R88): the next firing of the block, or the next block, whose first firing
awaits every operation of this one. -/
def Reed.bodyDone (x : Reed) : Reed :=
  let last := match x.fireAt x.block with | some h => decide (h.count ≤ x.nextJ + 1) | none => true
  let x := { x with inBody := false, firing := x.firing + 1, lastEnd := if x.ops.isEmpty then x.cycle else x.lastEnd }
  let x := if last then { x with block := x.bodyEnd, nextJ := 0, blockOps := x.ops.map (·.id) } else { x with nextJ := x.nextJ + 1 }
  x.modCtx 0 (fun c => { c with pc := BitVec.ofNat 11 (x.bodyPc x.block) })

/-- Moves a context to an index and unwinds its loops; in threaded mode an iteration of the outermost loop is a firing
(R101), and otherwise the end of the body is the end of its issue. -/
def Reed.goTo (x : Reed) (k pc : Nat) : Reed :=
  let c := x.context k
  let (p, fs, cs, n) := unwind x.takes c.loops pc c.c
  let p := if x.threads = 0 && fs.isEmpty then (firstStop x.takes p x.bodyEnd).getD x.bodyEnd else p
  let x := x.setCtx k { c with pc := BitVec.ofNat 11 p, loops := fs, c := cs, wait := none, first := if n = 0 then c.first else none }
  let x := { x with issued := true, gated := false, lastCtx := k }
  if x.threads = 0 then (if x.inBody && fs.isEmpty && p == x.bodyEnd then x.bodyDone else x)
  else { x with firing := x.firing + BitVec.ofNat 32 n, lastEnd := if n = 0 then x.lastEnd else x.cycle }

/-- Is firing n recorded (R53)? -/
def sampled (ctl : W32) (n : Nat) : Bool := bit ctl.toNat 31 && n % 2 ^ bits ctl.toNat 29 26 == 0

/-- WAIT_CYCLES of a firing that starts now (R54): 0 while the previous firing has not ended, and counted from the step's start for a step's
first firing (entry 38). -/
def Reed.waitCycles (x : Reed) : Nat := if x.ops.isEmpty then Nat.min (x.cycle - x.lastEnd) 4095 else 0

/-- A core-sample record (R54): the time base, the cause of the cycle before and WAIT_CYCLES at the firing's first cycle, and its number. -/
def State.record (s : State) (r : Nat) (time : W64) (prior : Cause) (wait n : Nat) : BitVec 128 :=
  BitVec.ofNat 128 (time.toNat * 2 ^ 64 + r * 2 ^ 51 + (s.epochOf r).toNat * 2 ^ 48 + prior.code * 2 ^ 44 + wait * 2 ^ 32 + n)

/-- A context of a threaded reed that issues inside a loop is in an iteration of its outermost one, which is a firing (R101): what a record
of that firing holds is taken in its first reed cycle. -/
def State.openIter (s : State) (r : RR) : State :=
  s.modReed r.reed.val (fun x => x.modCtx r.ctx.val (fun c =>
    if x.threads = 0 || c.loops.isEmpty || c.first.isSome then c
    else { c with first := some (s.timeBase, x.prior, x.waitCycles, x.csCtl) }))

/-- Queues the core-sample record of an iteration that ended, where its first cycle selects it (R53, R101); its number is the one with
which it ends. -/
def State.closeIter (s t : State) (r : RR) : State :=
  let x := s.reed r.reed.val
  match (x.context r.ctx.val).first with
  | some (time, prior, wait, ctl) =>
    if x.threads != 0 && (t.reed r.reed.val).firing != x.firing && sampled ctl x.firing.toNat then
      t.modReed r.reed.val (fun y => { y with samples := y.samples ++ [s.record r.reed.val time prior wait x.firing.toNat] })
    else t
  | none => t

/-- The advance past one instruction; a body that ends is progress (R408). -/
def State.advance (s : State) (r : RR) : State :=
  let s := s.openIter r
  let t := s.modReed r.reed.val (fun x => x.goTo r.ctx.val ((x.context r.ctx.val).pc.toNat + 1))
  let t := s.closeIter t r
  if (s.reed r.reed.val).inBody && !(t.reed r.reed.val).inBody then t.progress r.reed.val else t

/-- Records the cause of a wait in the issue slot (R93); in threaded mode the context is passed over in this cycle (R100). -/
def State.waits (s : State) (r : RR) (c : Cause) : State :=
  s.modReed r.reed.val (fun x => { (x.modCtx r.ctx.val (fun y => { y with wait := some c })) with passed := addOnce x.passed r.ctx.val })

/-- Would the next instruction of a threaded context start an iteration of its outermost loop, which is a firing (R101)? -/
def Reed.startsIter (x : Reed) (k : Nat) : Bool := x.threads != 0 && !(x.context k).loops.isEmpty && (x.context k).first.isNone

/-- What holds an instruction in the issue slot before its own effect is asked: an unfinished FENCE (R90), a source register whose result
is on its way (R93); in threaded mode a firing does not start under local emergency throttle (R337), or to be recorded while the trace
ring blocks (R55). -/
def State.issueWait (s : State) (r : RR) (srcs : List Nat) : Option Cause :=
  let x := s.reed r.reed.val
  let k := r.ctx.val
  if (x.context k).fence && x.writesOut then some (s.outCause r.reed.val)
  else if x.startsIter k && s.power.hold then some .throttleLocal
  else if x.startsIter k && x.ringBlocks && sampled x.csCtl x.firing.toNat then some .waitOutput
  else if x.ops.any (fun o => o.dst.any srcs.contains) then some .busy
  else none

/-- The state in which an instruction that issues has its effect: a FENCE before it is over (R90). -/
def State.unfenced (s : State) (r : RR) : State := s.modReed r.reed.val (fun x => x.modCtx r.ctx.val (fun y => { y with fence := false }))

/-- Issues one instruction of the execute engine: nothing where the engine may not issue, or where the instruction is not the one at its
program counter; a recorded wait; a section fault; or its effect and the advance of the program counter. -/
def State.issue (s : State) (r : RR) (i : Instr) (srcs : List Nat) (body : State → Issue) : State :=
  let x := s.reed r.reed.val
  if !x.canIssue r.ctx.val || !x.names r .exec i then s
  else match s.issueWait r srcs with
    | some c => s.waits r c
    | none =>
      let u := s.unfenced r
      match body u with
      | .go t => t.advance r
      | .wait c => u.waits r c
      | .lost t => t.waits r .arbBackoff
      | .fault t => t

/-- The context that issues. -/
def State.ctxOf (s : State) (r : RR) : Ctx := (s.reed r.reed.val).context r.ctx.val
/-- Changes the context that issues. -/
def State.modCtxOf (s : State) (r : RR) (f : Ctx → Ctx) : State := s.modReed r.reed.val (fun x => x.modCtx r.ctx.val f)
/-- Writes an S register of the context that issues. -/
def State.putS (s : State) (r : RR) (i : Nat) (w : W32) : State := s.modCtxOf r (fun c => c.setS i w)
/-- Writes a V register as the context names it. -/
def State.putV (s : State) (r : RR) (i : Nat) (w : VReg) : State := s.modReed r.reed.val (fun x => x.setV r.ctx.val i w)
/-- A V register as the context names it. -/
def State.v (s : State) (r : RR) (i : Nat) : VReg := (s.reed r.reed.val).getV r.ctx.val i
/-- The value of a scalar source (R440). -/
def Ctx.src (c : Ctx) : SSrc → W32
  | .s i => c.getS i.val
  | .zero => 0

/-- Registers an operation that completes later (R88). -/
def Reed.addOp (x : Reed) (kind : OpKind) (acks : Nat) (dst : List Nat) : Reed :=
  { x with ops := x.ops ++ [{ id := x.nextOp, kind := kind, acks := acks, dst := dst }], nextOp := x.nextOp + 1 }
/-- Registers an operation of a reed. -/
def State.addOp (s : State) (r : Nat) (kind : OpKind) (acks : Nat) (dst : List Nat) : State :=
  s.modReed r (fun x => x.addOp kind acks dst)
/-- Registers a store with the slots that it writes (R88, R93). -/
def State.addStore (s : State) (r : Nat) (acks : Nat) (sp : Space) (slot n : Nat) : State :=
  s.modReed r (fun x => { x with
    ops := x.ops ++ [{ id := x.nextOp, kind := .store, acks := acks, wr := some (sp, slot, n) }], nextOp := x.nextOp + 1 })

/-- The reed enters DRAIN once its last firing's operations have all completed (R87, R88). -/
def Reed.settle (x : Reed) : Reed :=
  if x.status == .running && x.ops.isEmpty then
    let x := if x.inBody then x else { x with lastEnd := x.cycle }
    let n := if x.threads = 0 then 1 else x.threads
    if (List.range n).all (fun k => (x.context k).ended) then { x with status := .drain } else x
  else x

/-- An operation completes (R88). -/
def Reed.finishOp (x : Reed) (id : Nat) : Reed :=
  { x with ops := x.ops.filter (fun o => o.id != id), blockOps := x.blockOps.filter (· != id) }.settle

/-- Does the fetch engine stop at a word (R90, R94)? Loops, marks, END, FDLD and writes of A registers. -/
def fetchWord (w : Nat) : Bool :=
  let op := bits w 63 56
  op == 0x01 || op == 0x02 || op == 0x04 || op == 0x30 || op == 0x1C || op == 0x1D || (op == 0x1B && bits w 55 53 == 1)

/-- Does the fetch engine take the word at an index (R94)? -/
def Reed.fetchTakes (x : Reed) (i : Nat) : Bool := fetchWord (x.word i)

/-- The fetch engine at an index outside every loop, in firing j of the block at b, moved to the next word that it takes: in the rest of
the body, in the body again for the next firing, or in the blocks that follow, up to END (R94). A block is at least three words, so the
length of program memory bounds the blocks that are passed. -/
def Reed.fetchSeek (x : Reed) : Nat → Nat → Nat → Nat → Nat × Nat × Nat
  | 0, b, j, pc => (b, j, pc)
  | n + 1, b, j, pc =>
    match x.fireAt b with
    | none => (b, 0, b)
    | some h =>
      let start := b + 2 + h.guards
      match firstStop x.fetchTakes pc (start + h.body) with
      | some i => (b, j, i)
      | none =>
        match (if j + 1 < h.count then firstStop x.fetchTakes start (start + h.body) else none) with
        | some i => (b, j + 1, i)
        | none =>
          let b' := start + h.body
          x.fetchSeek n b' 0 (match x.fireAt b' with | some g => b' + 2 + g.guards | none => b')

/-- The fetch engine moved to an index: past the words that are not its own, its loops unwound, and past the body to the next firing or
block (R94). -/
def Reed.fetchTo (x : Reed) (pc : Nat) : Reed :=
  let f := x.fetch
  let (p, fs, cs, _) := unwind x.fetchTakes f.loops pc f.c
  let (b, j, p) := if fs.isEmpty then x.fetchSeek 2048 f.block f.j p else (f.block, f.j, p)
  { x with fetch := { f with pc := BitVec.ofNat 11 p, loops := fs, c := cs, block := b, j := j } }

/-- May the fetch engine issue (R92, R94, R96)? It is idle in threaded mode (R100). -/
def Reed.fetchCan (x : Reed) : Bool :=
  x.status == .running && x.threads == 0 && !x.fetch.ended && !x.fetch.issued && x.streamHalts.isEmpty

/-- One instruction of the fetch engine: nothing where it may not issue, where the instruction is not the one at its program counter, or
where it must wait; its waits count nothing (R94). -/
def State.fetchIssue (s : State) (r : RR) (i : Instr) (body : State → Option State) : State :=
  let x := s.reed r.reed.val
  if !x.fetchCan || !x.names r .fetch i then s
  else match body s with
    | none => s
    | some t => t.modReed r.reed.val (fun x =>
        let y := x.fetchTo (x.fetch.pc.toNat + 1)
        { y with fetch := { y.fetch with issued := true } })

/-- Where an engine stands in the order of the program (R93): block, firing, for each loop around it, the outermost first, its index and
iteration, and its index. -/
def progPos (block j pc : Nat) (loops : List Frame) : List Nat :=
  [block, j] ++ loops.reverse.flatMap (fun f => [f.start - 1, f.iter]) ++ [pc]

/-- Does one place come before another in the order of the program? -/
def before : List Nat → List Nat → Bool
  | [], _ => false
  | _ :: _, [] => false
  | a :: s, b :: t => decide (a < b) || (decide (a = b) && before s t)

/-- The place of the execute engine's next instruction of a context. -/
def Reed.execPos (x : Reed) (k : Nat) : List Nat :=
  progPos x.block x.j.toNat (x.context k).pc.toNat (x.context k).loops

/-- The place of the fetch engine's next instruction. -/
def Reed.fetchPos (x : Reed) : List Nat := progPos x.fetch.block x.fetch.j x.fetch.pc.toNat x.fetch.loops

/-- The next mark is met once every write the execute engine issued before it is acknowledged (R95). -/
def Reed.markReady (x : Reed) : Option (Mark × List Mark) :=
  match x.marks with
  | [] => none
  | m :: t => if m.writes.any (fun i => x.ops.any (fun o => o.id == i)) then none else some (m, t)

/-- Records a dependence mark (R95). -/
def Reed.mark (x : Reed) (v : Option W32) : Reed :=
  { x with marks := x.marks ++ [{ writes := (x.ops.filter (fun o => o.kind == .store)).map (·.id), value := v }] }

end Sys2Proof.Machine
end

