-- ==== Sys2Proof/Machine/Tile.lean ====
section
/-! DEFINITION. The tile slot: header, elements, scales, CRC and the transposing mover (R111, R126 to R134, R145). -/
namespace Sys2Proof

/-- The fields of a tile header (R127). -/
structure TileHdr where
  tensor : W32 := 0
  row : W32 := 0
  col : W32 := 0
  fmt : Nat := 0
  epoch : Nat := 0
  sealed_ : Bool := false
  scaled : Bool := false
  krows : Bool := false
  vrows : Nat := 0
  vcols : Nat := 0
  crc : W32 := 0
  nonfinite : Bool := false
  residue : Nat := 0
  wseq : W64 := 0
  rsvd : Nat := 0
  tag : Nat := 0
  deriving DecidableEq, Repr

/-- Reads the header of a tile (R127). -/
def TileHdr.ofTile (t : List Byte) : TileHdr :=
  let n := leNat (t.take 64)
  { tensor := BitVec.ofNat 32 n, row := BitVec.ofNat 32 (n >>> 32), col := BitVec.ofNat 32 (n >>> 64),
    fmt := bits n 99 96, epoch := bits n 109 107, sealed_ := bit n 106, scaled := bit n 105, krows := bit n 104,
    vrows := bits n 119 112, vcols := bits n 127 120, crc := BitVec.ofNat 32 (n >>> 128), nonfinite := bit n 191,
    residue := bits n 190 160, wseq := BitVec.ofNat 64 (n >>> 192),
    rsvd := bits n 103 100 + bits n 111 110 + bits n 383 256, tag := bits n 511 384 }

/-- The 64 bytes of a header (R127). -/
def TileHdr.bytes (h : TileHdr) : List Byte :=
  leBytes 64 (h.tensor.toNat + h.row.toNat * 2 ^ 32 + h.col.toNat * 2 ^ 64 + h.fmt * 2 ^ 96 + h.epoch * 2 ^ 107
    + b2n h.sealed_ * 2 ^ 106 + b2n h.scaled * 2 ^ 105 + b2n h.krows * 2 ^ 104 + h.vrows * 2 ^ 112 + h.vcols * 2 ^ 120
    + h.crc.toNat * 2 ^ 128 + h.residue * 2 ^ 160 + b2n h.nonfinite * 2 ^ 191 + h.wseq.toNat * 2 ^ 192 + h.tag * 2 ^ 384)

/-- The CRC-32C of a tile: bytes 0 to 4,415, the CRC and AUTH_TAG bytes taken as zero (R131). -/
def tileCrc (t : List Byte) : W32 :=
  crc32c (t.take 16 ++ rep 4 0 ++ (t.drop 20).take 28 ++ rep 16 0 ++ (t.drop 64).take 4352)

/-- A tile of a header and its data and scale areas, with a fresh CRC; the reserved end is zero (R126, R131). -/
def mkTile (h : TileHdr) (body : List Byte) : List Byte :=
  let body := (body ++ rep 4352 0).take 4352
  let t0 := { h with crc := 0 }.bytes ++ body
  { h with crc := tileCrc t0 }.bytes ++ body ++ rep 192 0

/-! ### AES-256-GCM and the sealed form (R225, R354) -/

/-- Bytes encrypted, or decrypted, with the AES-256 counter keystream of a key and a nonce. -/
def gcmXor (key : BitVec 256) (nonce : List Byte) (b : List Byte) : List Byte :=
  ((List.range b.length).zip b).map (fun e => e.2 ^^^ Config.gcmStream key nonce e.1)
/-- Does a 16-byte tag verify for additional data and ciphertext? -/
def gcmOk (key : BitVec 256) (nonce aad cipher tag : List Byte) : Bool := leNat tag == (Config.gcmTag key nonce aad cipher).toNat

/-- A tile with SEALED, WRITE_SEQ and a zero AUTH_TAG in its header (R127). -/
def withSeal (t : List Byte) (sealed_ : Bool) (seq : W64) : List Byte :=
  leBytes 48 (putBits (putBits (leNat (t.take 48)) 106 1 (b2n sealed_)) 192 64 seq.toNat) ++ rep 16 0 ++ t.drop 64
/-- A tile with a fresh CRC (R131). -/
def withCrc (t : List Byte) : List Byte := leBytes 48 (putBits (leNat (t.take 48)) 128 32 (tileCrc t).toNat) ++ t.drop 48
/-- The data and scale areas of a tile. -/
def tileAreas (t : List Byte) : List Byte := (t.drop 64).take 4352
/-- The nonce of a sealed tile (R354): 0x00000001, then WRITE_SEQ, most significant byte first. -/
def tileNonce (t : List Byte) : List Byte := [0, 0, 0, 1] ++ ((t.drop 24).take 8).reverse
/-- A tile sealed under a key with a WRITE_SEQ (R225, R354): header bytes 0 to 47 in clear and authenticated, the areas encrypted, the tag in
AUTH_TAG. -/
def sealBytes (key : BitVec 256) (seq : W64) (t : List Byte) : List Byte :=
  let u := withSeal t true seq
  let c := gcmXor key (tileNonce u) (tileAreas u)
  u.take 48 ++ leBytes 16 (Config.gcmTag key (tileNonce u) (u.take 48) c).toNat ++ c ++ u.drop 4416
/-- Does a sealed tile's tag verify under a key (R225)? -/
def sealOk (key : BitVec 256) (t : List Byte) : Bool := gcmOk key (tileNonce t) (t.take 48) (tileAreas t) ((t.drop 48).take 16)
/-- A sealed tile opened under a key (R225): decrypted, with SEALED, WRITE_SEQ and AUTH_TAG zero. -/
def openBytes (key : BitVec 256) (t : List Byte) : List Byte :=
  withSeal (t.take 64 ++ gcmXor key (tileNonce t) (tileAreas t) ++ t.drop 4416) false 0

/-- Rows and columns of a tile by its format (R128); none for a format that no tile holds. -/
def Fmt.shape : Fmt → Option (Nat × Nat)
  | .e2m1 | .int4 => some (64, 128)
  | .e3m2 | .e2m3 | .e5m2 | .e4m3 | .int8 => some (64, 64)
  | .bf16 | .fp16 => some (64, 32)
  | .fp32 | .int32 | .idx32 => some (32, 32)
  | _ => none

/-- The column count of a tile of a format (R128, R184). -/
def Fmt.cols (f : Fmt) : Nat := match f.shape with | some (_, c) => c | none => 1

/-- Is a format a matrix input (R135, R136)? Its T_BLK in reed cycles, if so. -/
def Fmt.tBlk : Fmt → Option Nat
  | .e2m1 | .int4 => some 64
  | .e5m2 | .e4m3 | .e3m2 | .e2m3 | .int8 => some 128
  | .bf16 | .fp16 => some 256
  | _ => none

/-- K-blocks per tile along the reduction dimension (R128). -/
def Fmt.kPerTile (f : Fmt) (krows : Bool) : Nat :=
  match f.width with
  | 4 => if krows then 2 else 4
  | 6 => 2
  | 8 => 2
  | 16 => if krows then 0 else 1
  | _ => 0

/-- The bits of element (r, c) in a tile's data area (R129). -/
def tileElem (f : Fmt) (t : List Byte) (r c : Nat) : Nat :=
  let at_ (o n : Nat) : Nat := leNat ((t.drop (64 + o)).take n)
  match f.width with
  | 32 => at_ (128 * r + 4 * c) 4
  | 16 => at_ (64 * r + 2 * c) 2
  | 8 => at_ (64 * r + c) 1
  | 4 => (at_ (64 * r + c / 2) 1 >>> (4 * (c % 2))) % 16
  | 6 => (at_ (48 * r + 6 * c / 8) 2 >>> (6 * c % 8)) % 64
  | _ => 0

/-- The scale code of a row or column and K-block (R130); 1.0 when the tile carries none. -/
def tileScale (f : Fmt) (t : List Byte) (h : TileHdr) (i b : Nat) : Nat :=
  if !h.scaled then 127
  else
    let o := if h.krows then f.cols * b + i else f.kPerTile false * i + b
    leNat ((t.drop (4160 + o)).take 1)

/-- The header checks of a consumer (R134): format, orientation, seal, scales, extents, reserved fields. -/
def headerOk (h : TileHdr) (f : Fmt) (krows : Bool) : Bool :=
  h.fmt == f.code && h.krows == krows && !h.sealed_ && !(h.scaled && f.width == 16) && h.rsvd == 0 &&
  (match f.shape with | some (r, c) => decide (h.vrows ≤ r) && decide (h.vcols ≤ c) | none => false)

/-- A data area of elements of n bytes each, listed in address order. -/
def packElems (n : Nat) (l : List Nat) : List Byte := l.flatMap (leBytes n)

/-- Transposes one 32-bit tile (R111): rows and columns, coordinates and extents exchanged, a fresh CRC. -/
def transpose32 (t : List Byte) : List Byte :=
  let h := TileHdr.ofTile t
  let d := packElems 4 ((List.range 1024).map (fun i => tileElem .fp32 t (i % 32) (i / 32)))
  mkTile { h with row := h.col, col := h.row, vrows := h.vcols, vcols := h.vrows } (d ++ (t.drop 4160).take 256)

/-- Transposes a 64 × 64 block held as two consecutive 16-bit tiles (R111). DEDUCED (entry 23): the block's tile row is
half the tile column and its tile columns are twice the tile row, because a 16-bit tile has half as many columns as rows. -/
def transpose16 (a b : List Byte) : List (List Byte) :=
  let ha := TileHdr.ofTile a
  let hb := TileHdr.ofTile b
  let el (r c : Nat) : Nat := if c < 32 then tileElem .bf16 a r c else tileElem .bf16 b r (c - 32)
  let vc := ha.vcols + hb.vcols
  (List.range 2).map (fun k =>
    let h := if k = 0 then ha else hb
    let d := packElems 2 ((List.range 2048).map (fun i => el (i % 32 + 32 * k) (i / 32)))
    mkTile { h with row := BitVec.ofNat 32 (ha.col.toNat / 2), col := BitVec.ofNat 32 (2 * ha.row.toNat + k),
                    vrows := vc, vcols := Nat.min 32 (ha.vrows - 32 * k) } (d ++ (a.drop 4160).take 256))

/-- The header checks of the transposing mover, which no instruction names a format for (R134): a format of R128, seal, scales, extents,
reserved fields. -/
def moverHeaderOk (h : TileHdr) : Bool :=
  match Fmt.ofCode h.fmt with
  | some f => headerOk { h with krows := false } f false
  | none => false

/-- What the transposing mover makes of source tiles (R111, R112, R133, R134): the destination bytes, a CRC failure, a format it does not
take, or a header that is not as R134 asks. -/
inductive Moved where
  | ok (bytes : List Byte)
  | crc (i : Nat)
  | shape
  | format (i : Nat)
  deriving DecidableEq, Repr

/-- Cuts a byte list into tiles of 4,608 bytes. -/
def tilesOf : Nat → List Byte → List (List Byte)
  | 0, _ => []
  | n + 1, l => l.take 4608 :: tilesOf n (l.drop 4608)

/-- Pairs of consecutive 16-bit tiles transposed; none where one is left over. -/
def transposePairs : List (List Byte) → Option (List Byte)
  | [] => some []
  | [_] => none
  | a :: b :: t => (transposePairs t).map (fun r => (transpose16 a b).flatten ++ r)

/-- The transposing mover over whole source tiles (R111): CRC checks first, then the headers, then whether it takes the formats.
DESIGN CHOICE (entry 133): tiles of 32 bits beside tiles of 16 bits, or of BF16 beside FP16, are not source tiles of one descriptor. -/
def transposeTiles (ts : List (List Byte)) : Moved :=
  match ts.findIdx? (fun t => tileCrc t != (TileHdr.ofTile t).crc), ts.findIdx? (fun t => !moverHeaderOk (TileHdr.ofTile t)) with
  | some i, _ => .crc i
  | none, some i => .format i
  | none, none =>
    let fs := ts.map (fun t => (TileHdr.ofTile t).fmt)
    if fs.all (fun f => f == 1 || f == 12 || f == 13) then .ok (ts.map transpose32).flatten
    else if fs.all (fun f => f == 2 || f == 3) && decide (fs.eraseDups.length ≤ 1) then
      match transposePairs ts with
      | some l => .ok l
      | none => .shape
    else .shape

end Sys2Proof
end

