-- ==== Sys2Proof/Machine/Merge.lean ====
section
/-! DEFINITION. Descriptor reads (R103, R105, R111, R113): read requests, merge groups, responses and their landing. -/
namespace Sys2Proof.Machine

/-- A descriptor in progress by its number. -/
def State.xfer? (s : State) (id : Nat) : Option Xfer := s.xfers.find? (fun x => x.id == id)
/-- Changes a descriptor in progress. -/
def State.modXfer (s : State) (id : Nat) (f : Xfer → Xfer) : State :=
  { s with xfers := s.xfers.map (fun x => if x.id = id then f x else x) }
/-- A descriptor leaves: from the list, from its reed's descriptor queue. -/
def State.dropXfer (s : State) (x : Xfer) : State :=
  ({ s with xfers := s.xfers.filter (fun y => y.id != x.id) }).modReed x.reed (fun r => { r with descq := r.descq.filter (· != x.id) })

/-- Sends the read request of a descriptor to the memory that holds its source (R113, R246). -/
def State.startRead (s : State) (x : Xfer) : State :=
  s.inject (x.dstBase % 2) (tusNode (tusOf x.reed)) (x.src.node (tusOf x.reed)) (3 * localOf x.reed + b2n (x.kind == .move)) x.src.port x.dstBase
    (.readReq x.id)

/-- Sends one slot's fill write of a reed to a space, with the acknowledgement that goes back (R88, R103). -/
def State.sendFill (s : State) (reed : Nat) (w : FillW) (xfer : Option Nat) (idx : Nat) : State :=
  s.inject (w.slot % 2) (tusNode (tusOf reed)) (w.space.node (tusOf reed)) (3 * localOf reed + 1) w.space.port w.slot (.fill w xfer idx)

/-- The first number above the reeds', by which an acknowledgement names a crossbar half's sump (R298). -/
def sumpAck (h : Nat) : Nat := 6144 + h
/-- The number by which an acknowledgement names a window put of a partition (R285). -/
def windowAck (p : Nat) : Nat := 8192 + p

/-- The crossbar half of a node's fen. -/
def Node.halfOf : Node → Node
  | .tus t => halfNode (fenOf t.val)
  | .hbm i => halfNode (i.val / 4)
  | .half h => .half h

/-- Acknowledges one write to a reed's operation, to a window put or to a sump's landing (R88, R104, R285, R298): by a packet on the write's
plane (R246), and from an HBM4 controller on the column of the write's slot (R245). Behind the crossbar the acknowledgement finds its unit
over the trunk (R19). -/
def State.sendAck (s : State) (src : Node) (plane slot : Nat) (ack : Option (Nat × Nat)) : State :=
  match ack with
  | none => s
  | some (r, op) =>
    if 6144 ≤ r then s.inject plane src src.halfOf 73 33 slot (.ack r op)
    else s.inject plane src (tusNode (tusOf r)) 73 (localOf r) slot (.ack r op)

/-- One of a store's acknowledgements has come (R88); with the last the operation completes. -/
def State.ackOp (s : State) (r op : Nat) : State :=
  s.modReed r (fun x =>
    let left := (x.ops.find? (fun o => o.id == op)).map (·.acks)
    match left with
    | none => x
    | some n => if n ≤ 1 then x.finishOp op
        else { x with ops := x.ops.map (fun o => if o.id = op then { o with acks := n - 1 } else o) })

/-- Does a one-slot transfer travel on the trickle path (R229): both ends scratchpads or pools? -/
def Xfer.trickles (x : Xfer) : Bool :=
  x.slots == 1 && (match x.src with | .spad _ | .pool _ => true | _ => false) && (match x.dst with | .spad _ | .pool _ => true | _ => false)

/-- Sends a closed trickle batch as one packet on plane DEST_X mod 2 (R229, R246). -/
def State.closeBatch (s : State) (t dest : Nat) : State :=
  match Tbl.lk? (s.tus1 t).batches dest with
  | none => s
  | some (_, ws) =>
    (s.modTus t (fun x => { x with batches := Tbl.del x.batches dest })).inject ((dest / 16) % 2) (tusNode t) (tusNode dest)
      74 24 0 (.trickle ws)

/-- Adds a transfer to the batch for its destination tussock, which notes when its first came; the sixteenth closes it (R229). -/
def State.trickle (s : State) (t : Nat) (w : FillW) : State :=
  let dest := match w.space with | .pool u => u | .spad q => tusOf q | _ => t
  let (t0, ws) := Tbl.lk (s.timeBase, []) (s.tus1 t).batches dest
  let s := s.modTus t (fun x => { x with batches := Tbl.up x.batches dest (t0, ws ++ [w]) })
  if 16 ≤ ws.length + 1 then s.closeBatch t dest else s

/-- Sends what was read of slot idx to one member of a group or a list of members in one tussock (R113). A move sends
fill writes to its destination. -/
def State.respond (s : State) (src : Node) (members : List Nat) (idx : Nat) (data : List Byte) : State :=
  let xs := members.filterMap s.xfer?
  let loads := xs.filter (fun x => x.kind == .load || x.mode == 2)
  let tus := (loads.map (fun x => tusOf x.reed)).eraseDups
  let s := tus.foldl (fun s t =>
    match loads.filter (fun x => tusOf x.reed == t) with
    | [] => s
    | [x] => s.inject (x.dstSlot idx % 2) src (tusNode t) 73 (localOf x.reed) (x.dstSlot idx) (.readResp x.id idx data)
    | x :: l => s.inject (x.dstSlot idx % 2) src (tusNode t) 73 (localOf x.reed) (x.dstSlot idx)
        (.merged ((x :: l).map (·.id)) idx data)) s
  (xs.filter (fun x => x.kind == .move && x.mode != 2)).foldl (fun s x =>
    let w : FillW := { space := x.dst, slot := x.dstSlot idx, data := data, ack := some (x.reed, x.op), resupply := x.resupplied }
    match src with
    | .tus t => if x.trickles then (s.trickle t.val w).dropXfer x
        else s.inject (w.slot % 2) src (x.dst.node (tusOf x.reed)) 73 x.dst.port w.slot (.fill w (some x.id) idx)
    | _ => s.inject (w.slot % 2) src (x.dst.node (tusOf x.reed)) 73 x.dst.port w.slot (.fill w (some x.id) idx)) s

/-- A closed group reads its slots in ascending order, one bank access each, as far as they are FULL, none of their words is under
correction, and their banks are free (R105, R110, R113, R114). -/
def serveGroup (node : Node) (sp : Space) : Nat → State → Group → State × Group
  | 0, s, g => (s, g)
  | n + 1, s, g =>
    if g.next < g.slots && (s.notTag sp (g.slot g.next) 1 .full).isNone && !s.corrects sp (g.slot g.next) then
      match s.bankAsk sp (256 * g.slot g.next) 256 sp.readRank with
      | .granted u =>
        serveGroup node sp n (u.respond node g.members g.next (u.bytes sp (256 * g.slot g.next) 256)) { g with next := g.next + 1 }
      | .lost u => (u, g)
    else (s, g)

/-- Serves every closed group of a pool as far as its slots are FULL, and removes those that are done (R113). -/
def State.servePool (s : State) (t : Nat) : State :=
  (s.tus1 t).groups.foldl (fun s g =>
    if g.isOpen then s
    else
      let (s, g') := serveGroup (tusNode t) (.pool t) (g.slots - g.next) s g
      s.modTus t (fun x => { x with groups := if g'.slots ≤ g'.next then x.groups.filter (fun h => h.id != g.id)
                                            else x.groups.map (fun h => if h.id = g.id then g' else h) })) s

/-- Serves a group at an HBM4 controller; HBM4 carries no tags (R218). -/
def State.serveStack (s : State) (i : Nat) (g : Group) : State :=
  let (s, _) := serveGroup (hbmNode i) (.hbm i) (g.slots - g.next) s g
  s.modStack i (fun x => { x with groups := x.groups.filter (fun h => h.id != g.id) })

/-- Does a descriptor read what a group reads, within its window (R113): the same slots in the same mode and stride, no tag changed since? -/
def Group.takes (g : Group) (x : Xfer) (now : Nat) : Bool :=
  g.isOpen && decide (now < g.until_) && g.next == x.sent && g.base == x.srcBase && g.slots == x.slots && g.mode == x.mode && g.run == x.run
    && g.stride == x.stride && !g.changed

/-- Fills one slot of a scratchpad or pool (R103): the data, and the tag FULL, which readers see from the next reed cycle on (R105). -/
def State.fillSlot (s : State) (w : FillW) : State :=
  let s := (s.putBytes w.space (256 * w.slot) w.data).setTag w.space w.slot .full
  match w.space with
  | .spad r => s.modReed r (fun x => { x with gated := false })
  | _ => s

/-- A slot of a load lands in the scratchpad (R103): FULL, and the descriptor completes with its last slot. -/
def State.landSlot (s : State) (x : Xfer) (idx : Nat) (data : List Byte) : State :=
  let w : FillW := { space := x.dst, slot := x.dstSlot idx, data := data, resupply := x.resupplied }
  let s := s.fillSlot w
  let x' := { x with got := addOnce x.got idx, done := Nat.max x.done (idx + 1) }
  let s := s.modXfer x.id (fun _ => x')
  if x.slots ≤ x'.got.length then s.dropXfer x' else s

/-- The transposing mover once every source slot of a descriptor is staged (R111, R133, R134): the tiles are checked, transposed and written,
a load's as far as the tags of its slots allow (R103); a store on a privileged channel takes its turn there (R226). A CRC failure leaves the
tiles staged for their re-read. -/
def State.moverDone (s : State) (x : Xfer) : State :=
  let n := x.slots / 18
  let src := tilesOf n ((upto 0 x.slots).flatMap (fun i => Tbl.lk (rep 256 0) x.stage i))
  match transposeTiles src with
  | .shape => s.reedFault x.reed .descriptorShape x.pc []
  | .crc _ => s.modReed x.reed (fun r => { r with correcting := true })
  | .format i =>
    let h := TileHdr.ofTile (src.getD i [])
    s.reedFault x.reed .tileFormat x.pc [(16, x.reed), (32, h.tensor.toNat), (32, h.row.toNat), (32, h.col.toNat)]
  | .ok b =>
    let part := fun (i : Nat) => (b.drop (256 * i)).take 256
    if x.chan = 2 then s.modXfer x.id (fun y => { y with mode := 0, sent := 0, stage := (upto 0 x.slots).map (fun i => (i, part i)) })
    else (upto 0 x.slots).foldl (fun s i =>
      let d := part i
      match x.kind with
      | .load => match s.xfer? x.id with
        | some y => if !y.got.contains i && s.writable { space := y.dst, slot := y.dstSlot i, data := d, resupply := y.resupplied } then s.landSlot y i d else s
        | none => s
      | _ => s.sendFill x.reed { space := x.dst, slot := x.dstSlot i, data := d, ack := some (x.reed, x.op) } (some x.id) i) s

/-- Have all slots of a descriptor before one reached their destination, so that it may set its tag (R105)? -/
def Xfer.inTurn (x : Xfer) (idx : Nat) : Bool := (List.range idx).all x.got.contains

/-- One read slot reaches the reed of its descriptor: landed as a fill write, staged for the mover, or left where its turn, its tag or its
banks forbid it (R103, R105, R110). -/
def State.arriveSlot (s : State) (x : Xfer) (idx : Nat) (data : List Byte) : BankTry :=
  if x.mode = 2 then
    let x' := { x with stage := Tbl.up x.stage idx data }
    let s := s.modXfer x.id (fun _ => x')
    .granted (if x.slots ≤ x'.stage.length then s.moverDone x' else s)
  else if x.inTurn idx && s.writable { space := x.dst, slot := x.dstSlot idx, data := data, resupply := x.resupplied } then
    match s.bankAsk x.dst (256 * x.dstSlot idx) 256 x.dst.fillRank with
    | .granted u => .granted (u.landSlot x idx data)
    | .lost u => .lost u
  else .lost s

/-- The k-th packet delivered to a node, unless one before it in its crossing still waits there: a crossing passes its entries in order (R246,
R251; entry 138). -/
def State.arrival (s : State) (n : Node) (k : Nat) : Option Pkt :=
  ((s.arrivals n)[k]?).bind (fun p => if ((s.arrivals n).take k).any (fun q => q.inOrder p) then none else some p)

end Sys2Proof.Machine
end

