-- ==== Sys2Proof/Machine/ReedQueues.lean ====
section
/-! DEFINITION. Queue, tag and sluice instructions and the movement of tokens (R97 to R99, R103, R112, R117 to R125). -/
namespace Sys2Proof.Machine

/-- A token tag (R117). -/
def tokTag (last null ctl : Bool) (epoch : BitVec 3) (seq : BitVec 24) : W32 :=
  BitVec.ofNat 32 (2 ^ 31 + b2n last * 2 ^ 30 + b2n null * 2 ^ 29 + b2n ctl * 2 ^ 28 + epoch.toNat * 2 ^ 25 + seq.toNat)

/-- LAST of a token (R117). -/
def Token.last (t : Token) : Bool := t.tag.getLsbD 30
/-- EPOCH of a token (R117). -/
def Token.epoch (t : Token) : BitVec 3 := BitVec.ofNat 3 (bits t.tag.toNat 27 25)
/-- SEQ of a token (R117). -/
def Token.seq (t : Token) : BitVec 24 := BitVec.ofNat 24 t.tag.toNat

/-- An endpoint of a sluice (R122): valid, reed number, queue. -/
structure Endpoint where
  valid : Bool
  reed : Nat
  queue : Nat
  deriving DecidableEq, Repr

/-- Reads an endpoint entry (R122). -/
def Endpoint.ofBits (w : W32) : Endpoint :=
  { valid := bit w.toNat 31, reed := 24 * bits w.toNat 30 23 + bits w.toNat 22 18, queue := bits w.toNat 17 15 }

/-- Endpoint e of a tussock. -/
def State.endpoint (s : State) (t e : Nat) : Endpoint := Endpoint.ofBits (Tbl.lk 0 (s.tus1 t).eps e)
/-- A sluice path of a tussock. -/
def State.path (s : State) (t p : Nat) : Path := Tbl.lk {} (s.tus1 t).paths p
/-- Changes a sluice path. -/
def State.modPath (s : State) (t p : Nat) (f : Path → Path) : State :=
  s.modTus t (fun x => { x with paths := Tbl.mod {} x.paths p f })

/-- A token enters a sluice buffer (R121). -/
def SBuf.push (b : SBuf) (t : Token) : SBuf := { b with toks := b.toks ++ [t], wr := b.wr + 1, wr2 := b.wr2 + 1 }
/-- So many tokens leave a sluice buffer (R121). -/
def SBuf.drop (b : SBuf) (n : Nat) : SBuf :=
  { b with toks := b.toks.drop n, rd := b.rd + BitVec.ofNat 6 n, rd2 := b.rd2 + BitVec.ofNat 6 n }

/-- The endpoint numbers a path sends to, and those it takes data from (R122). -/
def Path.dests (p : Path) : List Nat := match p.mode with
  | .split => upto p.epBase (p.fanM1 + 1) | .select => [p.epOne] | .off => []
/-- The endpoints of a path's data inputs (R122). -/
def Path.inputs (p : Path) : List Nat := match p.mode with
  | .split => [p.epOne] | .select => upto p.epBase (p.fanM1 + 1) | .off => []

/-- Returns n credits for tokens that left a queue (R118): to the output queue, or to the sluice path for the endpoint
that names the consuming queue. A producer across a lode is answered by the lode's own credits (R274). -/
def State.credit (s : State) (f : Feeder) (reed q n : Nat) : State :=
  match f with
  | .queue r p => s.modReed r (fun x => { x with qo := Tbl.mod {} x.qo p (fun o =>
      { o with cr := Nat.min 32 (o.cr + n), cr2 := Nat.min 32 (o.cr2 + n) }) })
  | .sluice t p =>
    let ds := (s.path t p).dests
    match ds.findIdx? (fun e => s.endpoint t e == { valid := true, reed := reed, queue := q }) with
    | some i => s.modPath t p (fun x => { x with cr := Tbl.mod 32 x.cr i (fun c => Nat.min 32 (c + n)),
                                                 cr2 := Tbl.mod 32 x.cr2 i (fun c => Nat.min 32 (c + n)) })
    | none => s
  | _ => s

/-- An input queue of a reed. -/
def State.inq (s : State) (r q : Nat) : InQ := Tbl.lk {} (s.reed r).qi q
/-- Changes an input queue. -/
def State.modInq (s : State) (r q : Nat) (f : InQ → InQ) : State :=
  s.modReed r (fun x => { x with qi := Tbl.mod {} x.qi q f, gated := false })

/-- Writes a token into an input queue (R97, R118, R121); a token of a dropped packet is discarded and its credit
returned (R119). -/
def State.enqueue (s : State) (r q : Nat) (t : Token) : State :=
  let x := s.inq r q
  if x.dropping then
    (s.modInq r q (fun x => if t.last then { x with dropping := false, inPacket := false } else x)).credit x.feeder r q 1
  else (s.modInq r q (fun x => { x with toks := x.toks ++ [t], wr := x.wr + 1, wr2 := x.wr2 + 1, fresh := x.fresh + 1 })).progress r

/-- How many tokens of an input queue the reed sees: those that arrived before this reed cycle (R87, R97). -/
def InQ.seen (x : InQ) : Nat := x.toks.length - x.fresh
/-- The head of an input queue, if the reed sees it. -/
def InQ.head (x : InQ) : Option Token := if x.seen = 0 then none else x.toks.head?

/-- Pops the head of an input queue (R97) and returns its credit (R118). -/
def State.popTok (s : State) (r q : Nat) (t : Token) : State :=
  let x := s.inq r q
  ((s.modInq r q (fun x => { x with toks := x.toks.tail, rd := x.rd + 1, rd2 := x.rd2 + 1, inPacket := !t.last })).progress r).credit
    x.feeder r q 1

/-- The cause a reed counts while it waits on an empty input queue (R51, R87): the peer device that feeds it, or an on-die producer. -/
def State.queueCause (s : State) (r q : Nat) : Cause :=
  match (s.inq r q).feeder with
  | .lode dev _ _ => s.peerCause (· == dev)
  | _ => .waitInput

/-- The 64 bytes of a half of a V register (R89). -/
def vHalf (w : VReg) (hi : Bool) : BitVec 512 := if hi then BitVec.ofNat 512 (w.toNat / 2 ^ 512) else BitVec.ofNat 512 w.toNat
/-- Replaces a half of a V register. -/
def vPutHalf (w : VReg) (hi : Bool) (d : BitVec 512) : VReg :=
  if hi then BitVec.ofNat 1024 (w.toNat % 2 ^ 512 + d.toNat * 2 ^ 512)
  else BitVec.ofNat 1024 (w.toNat / 2 ^ 512 * 2 ^ 512 + d.toNat)

/-- QPOP (R97): waits while the queue is empty, then takes one token into a half of a V register. -/
def execQpop (r : RR) (reg : Fin 32) (hi : Bool) (q : Fin 8) (s : State) : Host.Outcome State Fault Refusal :=
  .next (s.issue r (.qpop r reg hi q) [spV (s.reed r.reed.val) r.ctx.val reg.val] (fun t =>
    match (t.inq r.reed.val q.val).head with
    | none => .wait (t.queueCause r.reed.val q.val)
    | some k => .go ((t.popTok r.reed.val q.val k).putV r reg.val (vPutHalf (t.v r reg.val) hi k.data))))

/-- QPOPNB (R98): never waits, on its queue or on a register; FLAG tells whether a token was taken. -/
def execQpopnb (r : RR) (reg : Fin 32) (hi : Bool) (q : Fin 8) (flag : Fin 16) (s : State) : Host.Outcome State Fault Refusal :=
  .next (s.issue r (.qpopnb r reg hi q flag) [] (fun t =>
    match (t.inq r.reed.val q.val).head with
    | none => .go (t.putS r flag.val 0)
    | some k => .go (((t.popTok r.reed.val q.val k).putV r reg.val (vPutHalf (t.v r reg.val) hi k.data)).putS r flag.val 1)))

/-- A token enters a data input of a sluice path. -/
def State.pathTok (s : State) (t p i : Nat) (tok : Token) : State :=
  s.modPath t p (fun x => { x with data := Tbl.mod {} x.data i (·.push tok) })

/-- Sends a token or a null packet on its way (R118, R125, R246): within the tussock it is written at once; to another
tussock it is a packet on plane DEST_X mod 2; to another device it goes to the crossbar half (R271). -/
def State.sendTok (s : State) (t leaf : Nat) (d : Dest) (tok : Token) : State :=
  match d with
  | .none => s
  | .queue r q => if tusOf r = t then s.enqueue r q tok
      else s.inject ((tusOf r / 16) % 2) (tusNode t) (tusNode (tusOf r)) leaf (localOf r) 0 (.token tok d)
  | .sluice u p i => if u = t then s.pathTok u p i tok
      else s.inject ((u / 16) % 2) (tusNode t) (tusNode u) leaf 25 0 (.token tok d)
  | .lode .. => s.inject (fenOf t) (tusNode t) (halfNode (fenOf t)) leaf 33 0 (.token tok d)

/-- An output queue of a reed. -/
def State.outq (s : State) (r q : Nat) : OutQ := Tbl.lk {} (s.reed r).qo q

/-- Pushes 64 bytes (R118): stamps LAST and SEQ, spends a credit, sends the token. -/
def State.push (s : State) (r q : Nat) (d : BitVec 512) : State :=
  let o := s.outq r q
  let last := decide (o.len ≤ o.tok + 1)
  let tok : Token := { tag := tokTag last false false (s.epochOf r) o.pkt, data := d }
  let o' := { o with cr := o.cr - 1, cr2 := o.cr2 - 1, tok := if last then 0 else o.tok + 1, pkt := if last then o.pkt + 1 else o.pkt }
  (s.modReed r (fun x => { x with qo := Tbl.up x.qo q o' })).sendTok (tusOf r) (3 * localOf r + 2) o.dest tok

/-- QPUSH (R97, R118): waits while no credit is left. -/
def execQpush (r : RR) (reg : Fin 32) (hi : Bool) (q : Fin 8) (s : State) : Host.Outcome State Fault Refusal :=
  .next (s.issue r (.qpush r reg hi q) [spV (s.reed r.reed.val) r.ctx.val reg.val] (fun t =>
    if (t.outq r.reed.val q.val).cr = 0 then .wait .waitOutput
    else .go (t.push r.reed.val q.val (vHalf (t.v r reg.val) hi))))

/-- How many tokens of the current packet are present, its last one included (R119). -/
def restOfPacket : List Token → Nat × Bool
  | [] => (0, false)
  | t :: ts => if t.last then (1, true) else let (n, b) := restOfPacket ts; (n + 1, b)

/-- QDROP (R98, R119): removes what is present of the current packet and discards the rest as it arrives; with no
current packet it has no effect. -/
def execQdrop (r : RR) (q : Fin 8) (s : State) : Host.Outcome State Fault Refusal :=
  .next (s.issue r (.qdrop r q) [] (fun t =>
    let x := t.inq r.reed.val q.val
    if x.inPacket then
      let (n, whole) := restOfPacket x.toks
      let m := BitVec.ofNat 6 n
      let y : InQ := { x with toks := x.toks.drop n, fresh := Nat.min x.fresh (x.toks.length - n), rd := x.rd + m, rd2 := x.rd2 + m, inPacket := !whole, dropping := !whole }
      .go ((t.modInq r.reed.val q.val (fun _ => y)).credit x.feeder r.reed.val q.val n)
    else .go t))

/-- The bound fault of R108: the reed, the handle and the offset are logged; the detail word is the instruction index. -/
def State.boundFault (s : State) (r : RR) (h off : Nat) : State :=
  s.reedFault r.reed.val .handleBound (s.ctxOf r).pc.toNat [(16, r.reed.val), (8, h), (32, off)]

/-- An operand address that breaks R439: the reed, the instruction index and the offset are logged. -/
def State.shapeFault (s : State) (r : RR) (c : SCause) (pc off : Nat) : State :=
  s.reedFault r.reed.val c pc [(16, r.reed.val), (16, pc), (32, off)]

/-- The slots that len bytes at an address touch: the first and how many. -/
def slotsOf (a len : Nat) : Nat × Nat := (a / 256, (a + len - 1) / 256 - a / 256 + 1)

/-- What becomes of an access of the execute engine to memory (R103): granted with its bank accesses made, a wait with its cause, a lost bank
arbitration (R110), or a fault. -/
inductive Access where
  | ok (s : State) (sp : Space) (a : Nat) (priv : Bool)
  | wait (c : Cause)
  | lost (s : State)
  | fault (s : State)
  deriving DecidableEq, Repr

/-- Is a word of a range of bytes under correction, or read a second time (R43, R114, R115)? -/
def State.correctsIn (s : State) (sp : Space) (a len : Nat) : Bool :=
  let within := fun (c : Tbl Nat) => c.any (fun e => decide (a / 64 ≤ e.1) && decide (e.1 ≤ (a + len - 1) / 64))
  match sp with
  | .spad r => within (s.reed r).corr
  | .pool t => within (s.tus1 t).corr
  | _ => false

/-- An access asks its banks (R110). -/
def State.accessBanks (s : State) (sp : Space) (a len rank : Nat) (priv : Bool) : Access :=
  match s.bankAsk sp a len rank with
  | .granted u => .ok u sp a priv
  | .lost u => .lost u

/-- Finds scratchpad bytes for reading, at a rank of R110: every slot touched must be FULL unless the buffer is PRIVATE, and no word under
correction. A buffer outside the scratchpad is out of bounds for these instructions (entry 21). -/
def State.spadRead (s : State) (r : RR) (h : Fin 64) (off len rank : Nat) : Access :=
  match s.locate r.reed.val h.val off len with
  | .at_ i (.spad q) a =>
    let (f, n) := slotsOf a len
    match if i.priv then none else s.notTag (.spad q) f n .full with
    | some sl => .wait (s.readCause q (.spad q) sl i.fill)
    | none => if s.correctsIn (.spad q) a len then .wait .waitCorrection else s.accessBanks (.spad q) a len rank i.priv
  | _ => .fault (s.boundFault r h.val off)

/-- Finds scratchpad bytes for a plain write: every slot touched must be EMPTY unless the buffer is PRIVATE. -/
def State.spadWrite (s : State) (r : RR) (h : Fin 64) (off len rank : Nat) : Access :=
  match s.locate r.reed.val h.val off len with
  | .at_ i (.spad q) a =>
    let (f, n) := slotsOf a len
    match if i.priv then none else s.notTag (.spad q) f n .empty with
    | some sl => .wait (s.writeCause (.spad q) sl)
    | none => s.accessBanks (.spad q) a len rank i.priv
  | _ => .fault (s.boundFault r h.val off)

/-- QPOPM (R97): waits for a token and for the plain write, then writes its 64 bytes. -/
def execQpopm (r : RR) (ha : HA) (q : Fin 8) (s : State) : Host.Outcome State Fault Refusal :=
  .next (s.issue r (.qpopm r ha q) [] (fun t =>
    match (t.inq r.reed.val q.val).head with
    | none => .wait (t.queueCause r.reed.val q.val)
    | some k => match t.spadWrite r ha.h ((t.ctxOf r).getA ha.a.val).toNat 64 5 with
      | .wait c => .wait c
      | .lost u => .lost u
      | .fault u => .fault u
      | .ok u sp a _ => .go ((u.popTok r.reed.val q.val k).putBytes sp a (leBytes 64 k.data.toNat))))

/-- QPUSHM (R97): waits for a credit and for the read, then pushes 64 bytes. -/
def execQpushm (r : RR) (ha : HA) (q : Fin 8) (s : State) : Host.Outcome State Fault Refusal :=
  .next (s.issue r (.qpushm r ha q) [] (fun t =>
    if (t.outq r.reed.val q.val).cr = 0 then .wait .waitOutput
    else match t.spadRead r ha.h ((t.ctxOf r).getA ha.a.val).toNat 64 5 with
      | .wait c => .wait c
      | .lost u => .lost u
      | .fault u => .fault u
      | .ok u sp a _ => .go (u.push r.reed.val q.val (BitVec.ofNat 512 (leNat (t.bytes sp a 64))))))

/-- The slots a tag instruction names. -/
inductive Slots where
  | ok (sp : Space) (slot : Nat)
  | fault (s : State)
  deriving DecidableEq, Repr

/-- The slots a tag instruction names (R89, R112): a shape fault where the offset is not a slot's, a bound fault past SIZE. -/
def State.tagSlots (s : State) (r : RR) (ha : HA) (n : Nat) : Slots :=
  let off := ((s.ctxOf r).getA ha.a.val).toNat
  match s.locate r.reed.val ha.h.val off (256 * n) with
  | .bound => .fault (s.boundFault r ha.h.val off)
  | .at_ _ sp a => if off % 256 ≠ 0 then .fault (s.reedFault r.reed.val .descriptorShape (s.ctxOf r).pc.toNat []) else .ok sp (a / 256)

/-- The scratchpad slots an unfinished matrix operation still has to read (R93). -/
def MatOp.reads (o : MatOp) : Nat × Nat :=
  match o.kind with
  | .mres sl _ f k _ => (sl, 18 * ceilDiv k (f.kPerTile false))
  | .mmac sl _ fa _ k _ _ tr _ => (sl, 18 * ceilDiv k (fa.kPerTile tr))
  | .mcfg _ _ a _ => (a / 256, 1)
  | _ => (0, 0)

/-- Do two ranges of slots meet? -/
def slotsMeet (a n b m : Nat) : Bool := decide (a < b + m) && decide (b < a + n)

/-- Does a descriptor still read some slot of a range? -/
def Xfer.stillReads (x : Xfer) (sp : Space) (slot n : Nat) : Bool :=
  x.kind == .move && x.src == sp && (List.range x.slots).any (fun i => !x.got.contains i && decide (slot ≤ x.srcSlot i) && decide (x.srcSlot i < slot + n))

/-- Does a load that comes earlier in the program still write some slot of a range (R93)? -/
def State.earlierLoad (s : State) (r : RR) (sp : Space) (slot n : Nat) (x : Xfer) : Bool :=
  let y := s.reed r.reed.val
  x.reed == r.reed.val && x.kind == .load && x.dst == sp && (y.threads != 0 || before x.pos (y.execPos r.ctx.val))
    && (List.range x.slots).any (fun i => !x.got.contains i && decide (slot ≤ x.dstSlot i) && decide (x.dstSlot i < slot + n))

/-- What keeps a tag instruction from taking effect (R93): an earlier read or write of the same reed on the named slots that has not
completed. The cause is that of the awaited resource; BUSY for the matrix engine's, as Issue.busy waits are. -/
def State.earlierUse (s : State) (r : RR) (sp : Space) (slot n : Nat) : Option Cause :=
  let q := r.reed.val
  let x := s.reed q
  if sp = .spad q ∧ x.matq.any (fun o => !o.done && slotsMeet o.reads.1 o.reads.2 slot n) = true then some .busy
  else if x.ops.any (fun o => match o.wr with | some (d, b, m) => d == sp && slotsMeet b m slot n | none => false) then some (s.outCause q)
  else if s.xfers.any (fun f => f.reed == q && f.stillReads sp slot n) then some .waitMemory
  else (s.xfers.find? (s.earlierLoad r sp slot n)).map (fun f => if f.halted then s.streamCause f else match f.src with | .host _ => .waitHost | _ => .waitMemory)

/-- TWAITF (R90, R103): waits until every named slot is FULL. -/
def execTwaitf (r : RR) (ha : HA) (n : Nat) (s : State) : Host.Outcome State Fault Refusal :=
  .next (s.issue r (.twaitf r ha n) [] (fun t => match t.tagSlots r ha n with
    | .fault u => .fault u
    | .ok sp sl => match t.notTag sp sl n .full with
      | some x => .wait (t.readCause r.reed.val sp x (t.handle r.reed.val ha.h.val).fill)
      | none => .go t))

/-- TSETE (R93, R103): FULL slots become EMPTY once earlier accesses to them have completed; others are unchanged. -/
def execTsete (r : RR) (ha : HA) (n : Nat) (s : State) : Host.Outcome State Fault Refusal :=
  .next (s.issue r (.tsete r ha n) [] (fun t => match t.tagSlots r ha n with
    | .fault u => .fault u
    | .ok sp sl => match t.earlierUse r sp sl n with
      | some c => .wait c
      | none => .go (t.setTags sp sl n .empty (fun g => g == .full))))

/-- TSETF (R93, R103): EMPTY slots become FULL once earlier accesses to them have completed; others are unchanged. -/
def execTsetf (r : RR) (ha : HA) (n : Nat) (s : State) : Host.Outcome State Fault Refusal :=
  .next (s.issue r (.tsetf r ha n) [] (fun t => match t.tagSlots r ha n with
    | .fault u => .fault u
    | .ok sp sl => match t.earlierUse r sp sl n with
      | some c => .wait c
      | none =>
        let u := t.setTags sp sl n .full (fun g => g == .empty)
        .go (match sp with | .pool p => u.servePool p | _ => u)))

/-- The path a reed's CTOK instructions drive (R122, R123). -/
def State.pathOf (s : State) (r : Nat) : Option Nat :=
  (List.range 16).find? (fun p => (s.path (tusOf r) p).mode != .off && (s.path (tusOf r) p).ctlReed == localOf r)

/-- CTOK (R99, R118, R125): waits while the path's control buffer of 32 is full, then sends the value with the next
control sequence number. -/
def execCtok (r : RR) (src : Fin 16) (s : State) : Host.Outcome State Fault Refusal :=
  .next (s.issue r (.ctok r src) [spS r.ctx.val src.val] (fun t =>
    let q := r.reed.val
    let x := t.reed q
    let tok : Token := { tag := tokTag false false true (t.epochOf q) x.ctokSeq, data := ((t.ctxOf r).getS src.val).zeroExtend 512 }
    let step (u : State) : State := u.modReed q (fun x => { x with ctokSeq := x.ctokSeq + 1 })
    match t.pathOf q with
    | none => .go (step t)
    | some p => if 32 ≤ (t.path (tusOf q) p).ctl.toks.length then .wait .waitOutput
        else .go (step (t.modPath (tusOf q) p (fun x => { x with ctl := x.ctl.push tok })))))

/-- The tokens of a null packet as the receiving queue holds them (R117, R125). -/
def nullToks (n : Nat) (epoch : BitVec 3) (seq : BitVec 24) : List Token :=
  (List.range n).map (fun i => { tag := tokTag (i + 1 == n) true false epoch seq, data := 0 })

/-- Writes a null packet into an input queue: PACKET_TOKENS entries at once (R125). -/
def State.enqueueNull (s : State) (r q n : Nat) (epoch : BitVec 3) (seq : BitVec 24) : State :=
  (nullToks n epoch seq).foldl (fun s t => s.enqueue r q t) s

/-- Sends a null packet to an endpoint (R125). -/
def State.sendNull (s : State) (t : Nat) (e : Endpoint) (n : Nat) (seq : BitVec 24) : State :=
  let ep := (s.tus1 t).epoch
  if tusOf e.reed = t then s.enqueueNull e.reed e.queue n ep seq
  else s.inject ((tusOf e.reed / 16) % 2) (tusNode t) (tusNode (tusOf e.reed)) 72 (localOf e.reed) 0
    (.null n seq (.queue e.reed e.queue))

/-- A section fault of the section that holds a tussock, raised by its sluice path (R124); the detail word names the path. -/
def State.sluiceFault (s : State) (t p : Nat) (c : SCause) : State :=
  s.reedFault (24 * t) c (16 * t + p) []

/-- The tokens of the current packet that have come to a data input and not left it (R125). -/
def Path.ready (x : Path) (i : Nat) : List Token := (Tbl.lk {} x.data i).toks.take (x.packetTokens - Tbl.lk 0 x.sent i)

/-- Forwards what has come of the packet in hand (R125): each token of the selected input leaves as it arrives, the other inputs' are
discarded, and the producers' credits return; once every input's packet has passed, the control token is popped and k rises (R124). -/
def State.pump (s : State) (t p sel : Nat) : State :=
  let x := s.path t p
  let ins := List.range x.inputs.length
  let took := fun (i : Nat) => (x.ready i).length
  let y : Path := { x with data := ins.foldl (fun d i => Tbl.mod {} d i (·.drop (took i))) x.data,
                           sent := ins.foldl (fun d i => Tbl.mod 0 d i (· + took i)) x.sent }
  let y : Path := if ins.all (fun i => decide (y.packetTokens ≤ Tbl.lk 0 y.sent i)) then
      { y with fwd := none, sent := [], ctl := x.ctl.drop 1, k := x.k + 1 } else y
  let s := s.modPath t p (fun _ => y)
  let s := (ins.zip x.inputs).foldl (fun s (i, e) =>
    let ep := s.endpoint t e
    if ep.valid then s.credit (.queue ep.reed ep.queue) 0 0 (took i) else s) s
  let (e, i) := match x.mode with | .split => (x.epBase + sel, 0) | _ => (x.epOne, sel)
  let d := s.endpoint t e
  (x.ready i).foldl (fun s k => s.sendTok t 72 (.queue d.reed d.queue) k) s

/-- SLUICE_PAIR (R124, R125): once a path's control head and every data head are present, the sequence numbers and the selector are checked,
the destinations' credits are spent and the null packets sent; from then on every token of the packet leaves as it comes. -/
def execSluicePair (t : Fin 256) (p : Fin 16) (s : State) : Host.Outcome State Fault Refusal :=
  let x := s.path t.val p.val
  let n := x.packetTokens
  let ins := List.range x.inputs.length
  let ds := List.range x.dests.length
  match x.mode, x.fwd, x.ctl.toks with
  | .off, _, _ => .next s
  | _, some sel, _ => .next (s.pump t.val p.val sel)
  | _, none, [] => .next s
  | _, none, c :: _ =>
    if ins.any (fun i => (x.ready i).isEmpty) then .next s
    else if c.seq ≠ x.k ∨ ins.any (fun i => (x.ready i).head?.any (fun d => d.seq != x.k)) then
      .next (s.sluiceFault t.val p.val .sluiceSequence)
    else
      let v := c.data.toNat % 2 ^ 32
      let sel := v % 16
      if v / 16 ≠ 0 ∨ sel > x.fanM1 then .next (s.sluiceFault t.val p.val .sluiceSelect)
      else if ds.any (fun i => decide (Tbl.lk 32 x.cr i < n)) then .next s
      else
        let spend := fun (m : Tbl Nat) => ds.foldl (fun m i => Tbl.mod 32 m i (· - n)) m
        let s := s.modPath t.val p.val (fun _ => { x with fwd := some sel, cr := spend x.cr, cr2 := spend x.cr2 })
        let s := match x.mode with
          | .split => (ds.filter (· != sel)).foldl (fun (s : State) i => s.sendNull t.val (s.endpoint t.val (x.epBase + i)) n x.k) s
          | _ => s
        .next (s.pump t.val p.val sel)

end Sys2Proof.Machine
end

