-- ==== Sys2Proof/Machine/ReedDesc.lean ====
section
/-! DEFINITION. The descriptor instructions FDLD, FDST and FDMV (R88, R90, R94, R111, R112, R218, R226, R229). -/
namespace Sys2Proof.Machine

/-- Does a space carry no tags, so that it moves whole tiles only (R218)? -/
def Space.untagged : Space → Bool
  | .hbm _ | .board _ | .host _ => true
  | _ => false

/-- A descriptor checked at issue: ready, or the fault it takes. -/
inductive DescCheck where
  | ok (x : Xfer)
  | bound (h off : Nat)
  | shape (off : Nat)
  deriving DecidableEq, Repr

/-- The number of source slots a strided descriptor reaches from its first slot. -/
def strideSpan (slots run stride : Nat) : Nat := (slots / run - 1) * stride + run

/-- The 64-bit word of a descriptor (R89). -/
def descWord (op : Nat) (d : Desc) : W64 :=
  let m := match d.mode with | .contiguous => 0 | .strided _ => 1 | .transposed => 2
  let sa := match d.mode with | .strided a => a.val | _ => 0
  BitVec.ofNat 64 (op * 2 ^ 56 + d.src.h.val * 2 ^ 50 + d.dst.h.val * 2 ^ 44 + d.src.a.val * 2 ^ 40 + d.dst.a.val * 2 ^ 36
    + d.slots * 2 ^ 24 + m * 2 ^ 20 + sa * 2 ^ 16)

/-- May a descriptor instruction name these spaces (R90)? A load fills the scratchpad, a store reads it, a move touches none. -/
def XferKind.spacesOk (k : XferKind) (src dst : Space) : Bool :=
  let inside := fun (sp : Space) => match sp with | .spad _ => true | _ => false
  match k with
  | .load => inside dst
  | .store => inside src
  | .move => !inside src && !inside dst

/-- The checks of a descriptor at issue (R90, R108, R112, R218) and its record. Where both faults apply, the lower cause code
is taken (R410); a handle of a space that the instruction does not take is out of bounds (entry 21). -/
def State.checkDesc (s : State) (q : Nat) (getA : Nat → W32) (kind : XferKind) (d : Desc) (op pc : Nat) (pos : List Nat) : DescCheck :=
  let so := (getA d.src.a.val).toNat
  let do_ := (getA d.dst.a.val).toNat
  let (mode, run, stride) := match d.mode with
    | .contiguous => (0, 0, 0)
    | .strided a => (1, bits (getA a.val).toNat 7 0, bits (getA a.val).toNat 31 8)
    | .transposed => (2, 0, 0)
  let badRun := mode == 1 && (run == 0 || d.slots % run != 0)
  let srcLen := if mode = 1 && !badRun then strideSpan d.slots run stride else d.slots
  match s.locate q d.src.h.val so (256 * srcLen), s.locate q d.dst.h.val do_ (256 * d.slots) with
  | .bound, _ => .bound d.src.h.val so
  | _, .bound => .bound d.dst.h.val do_
  | .at_ hs ss sa, .at_ hd ds da =>
    let un := ss.untagged || ds.untagged
    if !kind.spacesOk ss ds then .bound (if kind = .load then d.dst.h.val else d.src.h.val) (if kind = .load then do_ else so)
    else if so % 256 ≠ 0 ∨ (ss.untagged ∧ so % 4608 ≠ 0) then .shape so
    else if do_ % 256 ≠ 0 ∨ (ds.untagged ∧ do_ % 4608 ≠ 0) then .shape do_
    else if badRun ∨ (mode = 2 ∧ d.slots % 18 ≠ 0) ∨ (un ∧ d.slots % 18 ≠ 0)
        ∨ (un ∧ mode = 1 ∧ (run % 18 ≠ 0 ∨ stride % 18 ≠ 0)) then .shape so
    else .ok { id := s.nextXfer, reed := q, kind := kind, src := ss, srcBase := sa / 256, dst := ds, dstBase := da / 256,
               slots := d.slots, mode := mode, run := run, stride := stride,
               chan := if ss.untagged && hs.chan != 0 then hs.chan else if ds.untagged then hd.chan else 0,
               part := (s.tus1 (tusOf q)).owner.getD 0, word := descWord op d, pc := pc, firing := (s.reed q).firing,
               pos := pos }

/-- The tier space whose stream engine a privileged descriptor passes to (R226): the source of channels 1 and 3, the
destination of channel 2. -/
def Xfer.tier (x : Xfer) : Space := if x.chan = 2 then x.dst else x.src

/-- The descriptors a privileged channel of a partition holds at a port or controller, in order (R226). -/
def State.channel (s : State) (part : Nat) (tier : Space) (chan : Nat) : List Xfer :=
  s.xfers.filter (fun x => x.chan == chan && x.part == part && x.tier == tier)

/-- Enters a descriptor: an ordinary one occupies an entry of the reed's queue and its read request leaves at once; one
on a privileged channel passes to the stream engine (R94, R226), where it writes what the transposing mover has read and transposed (R111). -/
def State.enterXfer (s : State) (x : Xfer) : State :=
  let s := { s with xfers := s.xfers ++ [x], nextXfer := s.nextXfer + 1 }
  if x.chan ≠ 0 ∧ ¬(x.chan = 2 ∧ x.mode = 2) then s
  else
    let s := if x.kind = .load then s.modReed x.reed (fun r => { r with descq := r.descq ++ [x.id] }) else s
    if x.kind = .store then s else s.startRead x

/-- Must a load wait (R94, R226): 16 descriptors queued, 256 on its channel, or a destination slot that is not EMPTY? -/
def State.loadWaits (s : State) (x : Xfer) : Bool :=
  (if x.chan = 0 then decide (16 ≤ (s.reed x.reed).descq.length) else decide (256 ≤ (s.channel x.part x.tier x.chan).length))
    || (s.notTag x.dst x.dstBase x.slots .empty).isSome

/-- FDLD (R90, R94): the fetch engine issues a load; in threaded mode the execute engine does (R100). DESIGN CHOICE (entry 134): a threaded
reed that waits for its destination slots or a place in the queue counts WAIT_MEMORY. -/
def execFdld (r : RR) (d : Desc) (s : State) : Host.Outcome State Fault Refusal :=
  let q := r.reed.val
  if (s.reed q).threads = 0 then
    .next (s.fetchIssue r (.fdld r d) (fun t =>
      let f := (t.reed q).fetch
      match t.checkDesc q (fun i => Tbl.lk 0 f.a i) .load d 0x30 f.pc.toNat (t.reed q).fetchPos with
      | .bound h off => some (t.reedFault q .handleBound f.pc.toNat [(16, q), (8, h), (32, off)])
      | .shape _ => some (t.reedFault q .descriptorShape f.pc.toNat [])
      | .ok x => if t.loadWaits x then none else some (t.enterXfer x)))
  else
    .next (s.issue r (.fdld r d) [] (fun t =>
      let c := t.ctxOf r
      match t.checkDesc q c.getA .load d 0x30 c.pc.toNat ((t.reed q).execPos r.ctx.val) with
      | .bound h off => .fault (t.boundFault r h off)
      | .shape _ => .fault (t.reedFault r.reed.val .descriptorShape c.pc.toNat [])
      | .ok x => if t.loadWaits x then .wait .waitMemory else .go (t.enterXfer x)))

/-- The acknowledgements a store or move awaits (R88, R218): one per tile in the untagged tiers, else one per slot. -/
def Xfer.acks (x : Xfer) : Nat := if x.dst.untagged then x.slots / 18 else x.slots


/-- Sends the slots of a store, read from the scratchpad at issue; it stays in the list of descriptors until its destination has taken every
slot. One slot may travel on the trickle path (R229). The transposing mover works on them first (R111). -/
def State.sendStore (s : State) (x : Xfer) : State :=
  let data := (List.range x.slots).map (fun i => s.bytes x.src (256 * x.srcSlot i) 256)
  let ack := some (x.reed, x.op)
  if x.mode = 2 then
    let x := { x with stage := (List.range x.slots).zip data }
    ({ s with xfers := s.xfers ++ [x], nextXfer := s.nextXfer + 1 }).moverDone x
  else if x.chan ≠ 0 then
    { s with xfers := s.xfers ++ [{ x with stage := (List.range x.slots).zip data }], nextXfer := s.nextXfer + 1 }
  else
    let s := if x.trickles then s else { s with xfers := s.xfers ++ [x], nextXfer := s.nextXfer + 1 }
    ((List.range x.slots).zip data).foldl (fun s (i, d) =>
      let w : FillW := { space := x.dst, slot := x.dstSlot i, data := d, ack := ack }
      if x.trickles then s.trickle (tusOf x.reed) w
      else s.sendFill x.reed w (some x.id) i) s

/-- FDST (R88, R90): stores slots from the scratchpad; it waits until its source slots are FULL, and completes when the
last write is acknowledged. -/
def execFdst (r : RR) (d : Desc) (s : State) : Host.Outcome State Fault Refusal :=
  let q := r.reed.val
  .next (s.issue r (.fdst r d) [] (fun t =>
    let c := t.ctxOf r
    match t.checkDesc q c.getA .store d 0x31 c.pc.toNat ((t.reed q).execPos r.ctx.val) with
    | .bound h off => .fault (t.boundFault r h off)
    | .shape _ => .fault (t.reedFault r.reed.val .descriptorShape c.pc.toNat [])
    | .ok x =>
      let h := t.handle q d.src.h.val
      match if h.priv then none else (List.range x.slots).find? (fun i => (t.notTag x.src (x.srcSlot i) 1 .full).isSome) with
      | some i => .wait (t.readCause q x.src (x.srcSlot i) h.fill)
      | none =>
        if (List.range x.slots).any (fun i => t.corrects x.src (x.srcSlot i)) then .wait .waitCorrection
        else if x.chan ≠ 0 && decide (256 ≤ (t.channel x.part x.tier x.chan).length) then .wait (t.outCause q)
        else match t.bankAsk x.src (256 * x.srcSlot 0) 256 x.src.readRank with
          | .lost u => .lost u
          | .granted u =>
            let op := (u.reed q).nextOp
            .go ((u.addStore q x.acks x.dst x.dstBase x.slots).sendStore { x with op := op })))

/-- FDMV (R88, R90): moves slots between two handles outside the scratchpad. -/
def execFdmv (r : RR) (d : Desc) (s : State) : Host.Outcome State Fault Refusal :=
  let q := r.reed.val
  .next (s.issue r (.fdmv r d) [] (fun t =>
    let c := t.ctxOf r
    match t.checkDesc q c.getA .move d 0x32 c.pc.toNat ((t.reed q).execPos r.ctx.val) with
    | .bound h off => .fault (t.boundFault r h off)
    | .shape _ => .fault (t.reedFault r.reed.val .descriptorShape c.pc.toNat [])
    | .ok x =>
      if x.chan ≠ 0 && decide (256 ≤ (t.channel x.part x.tier x.chan).length) then
        .wait (if x.chan = 2 then .waitOutput else .waitMemory)
      else
        let op := (t.reed q).nextOp
        .go ((t.addStore q x.acks x.dst x.dstBase x.slots).enterXfer { x with op := op })))

end Sys2Proof.Machine
end

