-- ==== Sys2Proof/Machine/Tier.lean ====
section
/-! DEFINITION. The tiers outside the package: sealing and opening (R225, R354), tier reads and writes, page misses (R232,
R233), halted streams and their resumption (R234, R235), poisoning and resupply (R236 to R239). -/
namespace Sys2Proof.Machine

/-! ### Tiles of a placement (R220, R221) -/

/-- Rows and columns of tiles of a tensor in a format (R128). -/
def tileGrid (rows cols fmt : Nat) : Nat × Nat :=
  match (Fmt.ofCode fmt).bind Fmt.shape with
  | some (r, c) => (ceilDiv rows r, ceilDiv cols c)
  | none => (0, 0)
/-- Tiles of one instance of a placement. -/
def Placement.tiles (x : Placement) : Nat := let g := tileGrid x.rows x.cols x.fmt; g.1 * g.2
/-- Row and column of the tile at a tier address of a placement (R401: in the order of its slots). -/
def Placement.tileAt (x : Placement) (a : Nat) : Nat × Nat :=
  let g := tileGrid x.rows x.cols x.fmt
  let n := ((a - x.addr) / 4608) % (if g.1 * g.2 = 0 then 1 else g.1 * g.2)
  (n / (if g.2 = 0 then 1 else g.2), n % (if g.2 = 0 then 1 else g.2))
/-- The placement of a partition that holds a tier address. -/
def State.placedAt (s : State) (p : Nat) (sp : Space) (a : Nat) : Option Placement :=
  (s.part p).places.find? (fun x => x.space == some sp && decide (x.addr ≤ a) && decide (a < x.addr + x.size))
/-- The identifier a tile carries: the logical tensor of a ping-pong pair (R321), else the tensor itself. -/
def Part.logical (q : Part) (t : Nat) : Nat :=
  match q.manifest with
  | none => t
  | some m => match m.pairs.find? (fun x => x.copy0 == t || x.copy1 == t) with | some x => x.logical | none => t
/-- What an opener expects of the tile at a tier address (R225): TENSOR_ID, TILE_ROW, TILE_COL. -/
def State.expected (s : State) (p : Nat) (sp : Space) (a : Nat) : Option (Nat × Nat × Nat) :=
  (s.placedAt p sp a).map (fun x => let rc := x.tileAt a; ((s.part p).logical x.tensor, rc.1, rc.2))

/-! ### Sealing and opening -/

/-- Seals a tile under a partition's SEAL key (R225, R354); none once the counter would pass 2^48 - 1. -/
def State.sealTile (s : State) (p : Nat) (t : List Byte) : Option (State × Sealed) :=
  match (s.part p).sealKey with
  | none => none
  | some k =>
    if 2 ^ 48 ≤ k.ctr then none
    else
      let q : W64 := BitVec.ofNat 64 (k.sealer.toNat * 2 ^ 48 + k.ctr)
      let k' : TierKey := { k with ctr := k.ctr + 1 }
      let s := s.modPart p (fun x => { x with sealKey := some k' })
      some (s.bump 0x7400 8, { bytes := sealBytes k.key q (withCrc (withSeal t false 0)) })
/-- The key of a partition under which a sealed tile opens: its SEAL key, else its OPEN key (R354). -/
def Part.keyFor (q : Part) (t : Sealed) : Option (BitVec 256) :=
  ([q.sealKey, q.openKey].filterMap (fun k => k.map (fun y => y.key))).find? (fun k => sealOk k t.bytes)
/-- Does a tile name the one expected: TENSOR_ID, TILE_ROW, TILE_COL (R225)? -/
def Sealed.named (t : Sealed) (want : Option (Nat × Nat × Nat)) : Bool :=
  let h := TileHdr.ofTile t.bytes
  match want with | some w => h.tensor.toNat == w.1 && h.row.toNat == w.2.1 && h.col.toNat == w.2.2 | none => true
/-- Opens a sealed tile (R225): where a key's tag verifies and the tile is the one expected, its plaintext. -/
def State.openTile (s : State) (p : Nat) (want : Option (Nat × Nat × Nat)) (t : Sealed) : Option (State × List Byte) :=
  match (s.part p).keyFor t with
  | some k => if t.named want then some (s.bump 0x7400 9, openBytes k t.bytes) else none
  | none => none

/-- The sealed tile stored at an address of the board tier; none where nothing was written (entry 8). -/
def State.boardTile (s : State) (c a : Nat) : Option Sealed := Tbl.lk? (Tbl.lk [] s.board c) a
/-- Writes a sealed tile to the board tier. -/
def State.putBoard (s : State) (c a : Nat) (t : Sealed) : State := { s with board := Tbl.mod [] s.board c (fun b => Tbl.up b a t) }

/-! ### Pages of a host (R232) -/

/-- Does the port hold translations for every byte of a range, with the access that is needed (R232, R233)? -/
def Port.translated (p : Port) (a n : Nat) (write : Bool) : Bool :=
  let hit := fun (x : Nat) => p.atc.any (fun e => decide (e.1 ≤ x) && decide (x < e.1 + e.2.1) && (e.2.2 || !write))
  hit a && hit (a + n - 1)

/-! ### Reads of one tile -/

/-- What a read of one tile of a tier gives (R225, R233, R237). -/
inductive TierRead where
  | ok (s : State) (tile : List Byte)
  | miss
  | failed
  deriving DecidableEq, Repr

/-- Reads the tile at byte address a of a tier for a partition. -/
def State.tierRead (s : State) (p : Nat) (sp : Space) (a : Nat) (d : HostData) : TierRead :=
  let opened := fun (t : Sealed) => match s.openTile p (s.expected p sp a) t with
    | some (s, b) => TierRead.ok s b
    | none => .failed
  match sp with
  | .hbm i => .ok s ((s.stack i).mem.read a 4608)
  | .board c => match d with
    | .stored => (match s.boardTile c a with | some t => opened t | none => .failed)
    | _ => .failed
  | .host q =>
    if !(s.port q).translated a 4608 false then .miss
    else match d with
      | .tile t => opened t
      | _ => .failed
  | _ => .failed

/-- The tier address of slot i of a descriptor's source. -/
def Xfer.srcAddr (x : Xfer) (i : Nat) : Nat := 256 * x.srcSlot i
/-- The tier address of slot i of a descriptor's destination. -/
def Xfer.dstAddr (x : Xfer) (i : Nat) : Nat := 256 * x.dstSlot i

/-! ### Halts (R233 to R235, R238) -/

/-- Halts a descriptor's stream at a tile that it reads, at its first slot, or at one that it writes (R235): its own reed's fetch engine where
it travels on channel 0. -/
def State.haltXfer (s : State) (x : Xfer) (f : StreamFault) (addr wait : Nat) (at_ : Option Nat) : State :=
  let s := s.modXfer x.id (fun y => { y with halted := true, fault := f, tierAddr := addr, waitId := wait, sent := at_.getD y.sent, out := at_.isNone })
  if x.chan = 0 then s.modReed x.reed (fun r => { r with streamHalts := addOnce r.streamHalts x.id }) else s

/-- Sends the page requests that wait, in order, up to the host's allocation (R233). -/
def sendRequests (q : Nat) : Nat → State → State
  | 0, s => s
  | n + 1, s =>
    let p := s.port q
    let out := (p.reqs.filter (fun r => r.outstanding)).length
    match p.reqs.find? (fun r => !r.outstanding) with
    | none => s
    | some r =>
      if p.reqStop || decide (p.reqMax ≤ out) then s
      else
        let r' : PageReq := { r with outstanding := true, sent := s.timeBase, limit := s.get 0x4010 2 }
        let s := s.modPort q (fun p => { p with reqs := p.reqs.map (fun y => if y.xfer = r.xfer then r' else y) })
        let a := match s.xfer? r.xfer with | some x => x.tierAddr | none => 0
        sendRequests q n ((s.emit (.pageRequest q a r.group)).bump 0x7400 5)

/-- A translation miss (R233): the stream halts and a page request is sent, or waits its turn; a port whose host has
answered with a Response Failure sends none, and the fault ends in HOST_PAGE. -/
def State.pageMiss (s : State) (q : Nat) (x : Xfer) (addr : Nat) (at_ : Option Nat) : State :=
  let p := s.port q
  if p.reqStop then s.reedFault x.reed .hostPage x.pc []
  else
    let s := s.haltXfer x .translation addr p.nextGroup at_
    let s := s.modXfer x.id (fun y => { y with trans := false })
    let r : PageReq := { xfer := x.id, group := p.nextGroup, sent := s.timeBase, limit := s.get 0x4010 2, outstanding := false }
    let s := s.modPort q (fun p => { p with reqs := p.reqs ++ [r], nextGroup := (p.nextGroup + 1) % 512 })
    sendRequests q 64 s

/-- Asks the host to translate the first page of a tile that the port holds no translation for (R232): one to be read, at its first slot, or
one to be written; the descriptor awaits the completion. -/
def State.askPage (s : State) (q : Nat) (x : Xfer) (addr : Nat) (at_ : Option Nat) : State :=
  let a := if (s.port q).translated addr 1 at_.isNone then addr + 4607 else addr
  (s.modXfer x.id (fun y => { y with trans := true, sent := at_.getD y.sent, out := at_.isNone, tierAddr := addr })).emit (.atsRequest q a)

/-- The lowest index of 64 that no entry of a resupply table uses. -/
def freeIndex (l : List Resup) : Nat := ((List.range 64).find? (fun i => !l.any (fun e => e.idx == i))).getD 0

/-- KIND and TARGET of a tier space (R106). -/
def Space.kindTarget : Space → Nat × Nat
  | .hbm i => (3, i) | .board c => (4, c) | .host p => (5, p) | .spad _ => (1, 0) | .pool _ => (2, 0) | .window w => (6, w)

/-- The RESUPPLY_REQUEST of an entry (R398), with its deadline (R240, R404). -/
def Resup.request (e : Resup) (step : Nat) : Cpl :=
  let kt := e.space.kindTarget
  let body := cplBody [(8, 4, e.tag), (12, 4, e.tensor), (16, 4, e.row), (20, 4, e.col), (24, 1, kt.1), (25, 1, kt.2), (32, 8, e.addr),
    (40, 8, e.opened.toNat + msCycles e.limit), (48, 8, step)]
  { type := 5, body := body }

/-- Poisons a tile of a descriptor whose read has failed twice, with its HOST_AUTH set (R238, R239): every destination
slot awaiting it turns POISONED, the stream halts, and a resupply entry is joined or opened. -/
def State.poisonTile (s : State) (x : Xfer) (idx : Nat) (pl : Placement) : State :=
  let a := x.srcAddr idx
  let p := x.part
  if (s.part p).resupDone.contains (pl.tensor, a) then s.reedFault x.reed .resupplyFailed pl.tensor []
  else
    let awaiting := (upto idx 18).filter (fun i => decide (i < x.slots) && !x.got.contains i)
    let s := awaiting.foldl (fun s i => if s.tag x.dst (x.dstSlot i) = .empty then s.setTag x.dst (x.dstSlot i) .poisoned else s) s
    let rc := pl.tileAt a
    match (s.part p).resup.find? (fun e => e.tensor == pl.tensor && e.addr == a && e.space == x.src) with
    | some e =>
      let j := e.joined ++ [(x.id, idx)]
      (s.haltXfer x .poison a e.tag (some idx)).modPart p (fun q =>
        { q with resup := q.resup.map (fun y => if y.idx = e.idx then { y with joined := j } else y) })
    | none =>
      if 64 ≤ (s.part p).resup.length then s.reedFault x.reed .resupplyOverflow pl.tensor []
      else
        let lim := s.get 0x4010 1
        let i := freeIndex (s.part p).resup
        let e : Resup := { idx := i, serial := (s.part p).resupSerial, tensor := pl.tensor, row := rc.1, col := rc.2,
                           space := x.src, addr := a, opened := s.timeBase, limit := lim, joined := [(x.id, idx)] }
        let s := s.modPart p (fun q => { q with resup := q.resup ++ [e], resupSerial := (q.resupSerial + 1) % 2 ^ 26 })
        let s := s.haltXfer x .poison a e.tag (some idx)
        let s := (s.bump 0x7400 3).logEvent 8 0x0170 (some p) 0 e.tag [(32, pl.tensor), (64, a)]
        s.notifyPart p (e.request (s.stepOf x.reed))

/-- HOST_AUTH of a placement (R220). -/
def Placement.hostAuth (x : Placement) : Bool := bit x.word.toNat 54
/-- MIRROR_ID of a placement, 0 for none (R220). -/
def Placement.mirror (x : Placement) : Nat := bits x.word.toNat 31 0

/-- The fault of a tile that has failed twice and is not poisoned (R236, R237). -/
def Space.readFault : Space → SCause
  | .hbm _ => .hbmUncorrectable
  | .board _ => .boardUncorrectable
  | _ => .hostData

/-- What the fault of an HBM4 tile logs (R216, R236): stack, channel and address; the other tiers' rule names nothing. -/
def Space.readItems (sp : Space) (a : Nat) : List (Nat × Nat) :=
  match sp with
  | .hbm i => [(8, i), (8, a / 256 % 32), (64, a)]
  | _ => []

/-- A read that has failed twice with no mirror to help (R236 to R238), of the tile at slot idx and there at slot word: poisoned where the
host holds an authoritative copy, else a section fault. -/
def State.readLost (s : State) (x : Xfer) (idx word : Nat) : State :=
  let fault := s.reedFault x.reed x.src.readFault x.pc (x.src.readItems (x.srcAddr word))
  match s.placedAt x.part x.src (x.srcAddr idx) with
  | some pl => if pl.hostAuth then s.poisonTile x idx pl else fault
  | none => fault

/-- The tile of a mirror in HBM4 that holds the same tile (R237). -/
def State.mirrorTile (s : State) (p : Nat) (pl : Placement) (a : Nat) : Option (List Byte) :=
  if pl.mirror = 0 then none
  else match (s.part p).places.find? (fun x => x.tensor == pl.mirror) with
    | some m => match m.space with
      | some (.hbm i) => some ((s.stack i).mem.read (m.addr + (a - pl.addr)) 4608)
      | _ => none
    | none => none

/-- What the recovery of a board tile from its mirror gives (R237): its plaintext; nothing, for want of a mirror that can be read; or no
rewrite, for want of a write sequence number. -/
inductive Recovery where
  | ok (s : State) (tile : List Byte)
  | absent
  | exhausted
  deriving DecidableEq, Repr

/-- A board tile whose read has failed twice is read from its mirror, unless that read fails too, and rewritten from it, sealed afresh; the
event is counted (R237). -/
def State.recover (s : State) (p : Nat) (sp : Space) (a : Nat) (mirrorFails : Bool) : Recovery :=
  match sp, s.placedAt p sp a with
  | .board c, some pl => (match (if mirrorFails then none else s.mirrorTile p pl a) with
    | none => .absent
    | some b => match s.sealTile p b with
      | none => .exhausted
      | some (s, t) => .ok (((s.putBoard c a t).bump 0x7400 2).logEvent 8 0x0172 (some p) 0 0 [(64, a)]) b)
  | _, _ => .absent

/-! ### Serving a tier's read requests -/

/-- Records a failed read of a tile, which is retried once (R237). -/
def State.retryLater (s : State) (x : Xfer) (idx : Nat) : State :=
  { s.modXfer x.id (fun y => { y with retry := true, sent := idx }) with retries := s.retries ++ [{ xfer := x.id, idx := idx }] }

/-- Sends the 18 slots of one opened tile of a descriptor (R218). -/
def State.sendTile (s : State) (node : Node) (x : Xfer) (idx : Nat) (tile : List Byte) : State :=
  let s := (List.range 18).foldl (fun s i => s.respond node [x.id] (idx + i) ((tile.drop (256 * i)).take 256)) s
  s.modXfer x.id (fun y => { y with sent := idx + 18 })

/-- The data of one tile: what the command brings, else what the board stores, or a failed host read. -/
def dataOr (sp : Space) : List HostData → HostData
  | d :: _ => d
  | [] => match sp with | .board _ => .stored | _ => .failed

/-- Serves the tiles of an ordinary descriptor from a tier outside the package, in ascending order (R218, R225), until it
is done, a tile's page misses (R233), or a read fails and awaits its retry (R237). -/
def serveTier (node : Node) : Nat → State → Xfer → Nat → List HostData → State
  | 0, s, _, _, _ => s
  | n + 1, s, x, idx, ds =>
    if x.slots ≤ idx then s
    else match s.tierRead x.part x.src (x.srcAddr idx) (dataOr x.src ds) with
      | .ok t b => serveTier node n (t.sendTile node x idx b) x (idx + 18) ds.tail
      | .miss => (match x.src with | .host q => s.askPage q x (x.srcAddr idx) (some idx) | _ => s)
      | .failed => s.retryLater x idx

/-! ### Writes of one tile -/

/-- Writes one whole tile to a tier for a descriptor (R218, R225): sealed outside the package; none where the page of a
host misses. -/
def State.tierWrite (s : State) (x : Xfer) (idx : Nat) (tile : List Byte) : Option State :=
  let a := x.dstAddr idx
  let put := fun (f : State → Sealed → State) => match s.sealTile x.part tile with
    | some (s, t) => some ((f s t).ackOp x.reed x.op)
    | none => some (s.reedFault x.reed .sealExhausted x.pc [])
  match x.dst with
  | .hbm i => some ((s.putBytes (.hbm i) a tile).ackOp x.reed x.op)
  | .board c => put (fun s t => s.putBoard c a t)
  | .host q => if (s.port q).translated a 4608 true then put (fun s t => s.emit (.hostTile q a t)) else none
  | _ => some s

/-- The next tile of an ordinary store or move whose 18 slots have all arrived at the tier's unit is written (R218), tile by tile;
a missing page holds it (R233). The descriptor leaves with its last tile. -/
def flushTiles : Nat → State → Nat → State
  | 0, s, _ => s
  | n + 1, s, id =>
    match s.xfer? id with
    | none => s
    | some x =>
      let idx := x.done
      if x.halted || (x.trans && x.out) || decide (x.slots ≤ idx) || (upto idx 18).any (fun i => (Tbl.lk? x.stage i).isNone) then s
      else
        match s.tierWrite x idx ((upto idx 18).flatMap (fun i => Tbl.lk [] x.stage i)) with
        | none => (match x.dst with | .host q => s.askPage q x (x.dstAddr idx) none | _ => s)
        | some t =>
          let t := t.modXfer id (fun y => { y with done := idx + 18 })
          flushTiles n (if x.slots ≤ idx + 18 then t.dropXfer x else t) id

/-! ### Resumption (R235) -/

/-- A descriptor's read request waits at its tier again, from its first tile not delivered (R235). -/
def State.reRequest (s : State) (x : Xfer) : State :=
  let n := x.src.node (tusOf x.reed)
  s.deliver { src := tusNode (tusOf x.reed), dst := n, port := x.src.port, rsp := false, epoch := s.epochOf x.reed, age := s.stamp,
              flits := 1, pay := .readReq x.id }

/-- A halted stream resumes (R235): the fetch engine goes on, the tile at which it halted is read or written again. -/
def State.resumeXfer (s : State) (id : Nat) (resupplied : Bool) : State :=
  match s.xfer? id with
  | none => s
  | some x =>
    let s := s.modXfer id (fun y => { y with halted := false, fault := .none, trans := false, retry := false,
                                             resupplied := y.resupplied || resupplied })
    let s := s.modReed x.reed (fun r => { r with streamHalts := r.streamHalts.filter (· != id) })
    if x.chan ≠ 0 then s
    else if x.out then flushTiles (x.slots / 18) s id
    else s.reRequest x

end Sys2Proof.Machine
end

