-- ==== Sys2Proof/Machine/Windows.lean ====
section
/-! DEFINITION. The sender's side of windows and multicasts (R284 to R287): puts, their resumption, the multicast tree. -/
namespace Sys2Proof.Machine

/-! ### The multicast tree (R287) -/

/-- The numbers from a to b in either direction, both ends included. -/
def walk (a b : Nat) : List Nat := if a ≤ b then upto a (b + 1 - a) else (upto b (a + 1 - b)).reverse
/-- The devices on the way from a root to a target: along x, then y, then z. -/
def mcRoute (r t : Nat) : List Nat :=
  let xs := (walk (coord r 0) (coord t 0)).map (fun v => withCoord r 0 v)
  let c := withCoord r 0 (coord t 0)
  let ys := ((walk (coord r 1) (coord t 1)).map (fun v => withCoord c 1 v)).tail
  let e := withCoord c 1 (coord t 1)
  let zs := ((walk (coord r 2) (coord t 2)).map (fun v => withCoord e 2 v)).tail
  xs ++ ys ++ zs
/-- The element after the first occurrence of a device in a list. -/
def nextAfter (d : Nat) : List Nat → Option Nat
  | a :: b :: t => if a = d then some b else nextAfter d (b :: t)
  | _ => none
/-- The children of a device in the tree from a root to a box. -/
def mcKids (r : Nat) (box : List Nat) (d : Nat) : List Nat := ((boxDevs box).filterMap (fun t => nextAfter d (mcRoute r t))).eraseDups
/-- The parent of a device in the tree from a root to a box. -/
def mcParent (r : Nat) (box : List Nat) (d : Nat) : Option Nat :=
  ((boxDevs box).filterMap (fun t => nextAfter d (mcRoute r t).reverse)).head?

/-- The epoch of the packets a device sends down for a multicast: its sender's at the root. -/
def State.mcEpoch (s : State) (m : Mcast) : BitVec 3 := match m.reed with | some (r, _) => s.epochOf r | none => 0
/-- Sends a packet down to the children of a multicast; SRC_DEV stays the root (R287). -/
def State.mcDown (s : State) (m : Mcast) (ptype arg flits : Nat) (pay : LPay) : State :=
  m.kids.foldl (fun s d => s.hopSend d { s.mkPkt m.part d m.part ptype m.group arg pay flits with src := m.root, epoch := s.mcEpoch m }) s
/-- Sends a packet up to the parent of a multicast; ARG holds the sequence and the root (entry 45). -/
def State.mcUp (s : State) (m : Mcast) (ptype : Nat) : State :=
  match m.parent with
  | none => s
  | some d => s.hopSend d (s.mkPkt m.part d m.part ptype m.group (m.seq + m.root * 2 ^ 32) .none)
/-- Is a multicast the one of a partition, a group, a root and a sequence? -/
def Mcast.is (m : Mcast) (p group root seq : Nat) : Bool := m.part == p && m.group == group && m.root == root && m.seq == seq
/-- A multicast in progress. -/
def State.mcast? (s : State) (p group root seq : Nat) : Option Mcast := s.mcasts.find? (fun m => m.is p group root seq)
/-- Sets a multicast in progress. -/
def State.setMcast (s : State) (m : Mcast) : State :=
  { s with mcasts := s.mcasts.map (fun o => if o.is m.part m.group m.root m.seq then m else o) }
/-- A multicast leaves. -/
def State.dropMcast (s : State) (m : Mcast) : State :=
  { s with mcasts := s.mcasts.filter (fun o => !o.is m.part m.group m.root m.seq) }
/-- ARG of MC_RESERVE: slots, first slot in the window, sequence (entry 45). -/
def reserveArg (slots first seq : Nat) : Nat := slots % 65536 + (first % 65536) * 65536 + seq * 2 ^ 32

/-- The root starts a multicast once its whole descriptor is at the crossbar half (R287): MC_RESERVE goes down and the hold
timer starts. -/
def State.mcStart (s : State) (x : Xfer) (group : Nat) (bytes : List Byte) : State :=
  let box := Tbl.lk [] (s.part x.part).mboxes group
  let m : Mcast := { part := x.part, group := group, seq := s.nextMcast, slots := x.slots, parent := none,
                     kids := mcKids s.self box s.self, target := inBox box s.self, first := x.dstBase, reed := some (x.reed, x.op),
                     bytes := bytes, limitAt := s.timeBase.toNat + usCycles (s.get 0x3300 1), root := s.self }
  let s := { s with mcasts := s.mcasts ++ [m], nextMcast := s.nextMcast + 1 }
  s.mcDown m 8 (reserveArg x.slots x.dstBase m.seq) 1 .none

/-! ### Window puts (R285, R286) -/

/-- The put that carries a slot of a descriptor (R270): its tile of 18 slots, or the slot alone beyond the last whole tile. -/
def Xfer.putOf (x : Xfer) (idx : Nat) : Nat × Nat := if 18 * (idx / 18 + 1) ≤ x.slots then (18 * (idx / 18), 18) else (idx, 1)
/-- The put that begins at a slot leaves as a WIN_PUT with its descriptor's epoch once all its slots are at the crossbar half (R270,
R285). The destination partition has the sender's number (entry 44). -/
def State.sendPut (s : State) (x : Xfer) (dev win : Nat) (epoch : W16) (i n : Nat) : State :=
  if (upto i n).all (fun j => (Tbl.lk? x.stage j).isSome) then
    let b := (upto i n).flatMap (fun j => Tbl.lk [] x.stage j)
    s.lodeSend { s.mkPkt x.part dev x.part 3 win (256 * x.dstSlot i) (.slots b) (payFlits b.length) with
                 wepoch := epoch, epoch := s.epochOf x.reed }
  else s

/-- One slot of a store to a window reaches the crossbar half: a put to a unicast descriptor's owner unless its stream is
halted; a multicast starts when the last slot is present; a descriptor never set sends nothing. -/
def State.windowSlot (s : State) (x : Xfer) (idx : Nat) (data : List Byte) : State :=
  let x' : Xfer := { x with stage := Tbl.up x.stage idx data }
  let s := s.modXfer x.id (fun _ => x')
  match x.dst with
  | .window w => match Tbl.lk? (s.part x.part).peers w with
    | some (.unicast dev win e) => if x.halted then s else let b := x.putOf idx; s.sendPut x' dev win e b.1 b.2
    | some (.multicast g) =>
      if x.slots ≤ x'.stage.length then s.mcStart x' g ((upto 0 x.slots).flatMap (fun i => Tbl.lk [] x'.stage i)) else s
    | none => s
  | _ => s

/-- A put of a descriptor is acknowledged (R285): its slots are done, the sender's operation that many acknowledgements nearer. -/
def State.putDone (s : State) (x : Xfer) (idx : Nat) : State :=
  if x.got.contains idx then s
  else
    let is := let b := x.putOf idx; upto b.1 b.2
    let x' : Xfer := { x with got := is.foldl addOnce x.got, stage := is.foldl Tbl.del x.stage, done := x.done + is.length }
    let s := is.foldl (fun s _ => s.ackOp x.reed x.op) (s.modXfer x.id (fun _ => x'))
    if x.slots ≤ x'.got.length then s.dropXfer x' else s

/-- The descriptors of a partition that store to a device's window. -/
def State.putsTo (s : State) (p dev win : Nat) : List Xfer :=
  s.xfers.filter (fun x => x.part == p && (match x.dst with
    | .window w => (match Tbl.lk? (s.part p).peers w with | some (.unicast d v _) => d == dev && v == win | _ => false)
    | _ => false))

/-- A stream halted by WIN_CLOSED resumes with the new epoch: every put not acknowledged is sent again (R286). -/
def State.resumePuts (s : State) (x : Xfer) (dev win : Nat) (e : W16) : State :=
  let s := (s.modXfer x.id (fun y => { y with halted := false, fault := .none })).modReed x.reed
    (fun r => { r with streamHalts := r.streamHalts.filter (· != x.id) })
  ((x.stage.map (fun i => x.putOf i.1)).eraseDups).foldl (fun s b => s.sendPut x dev win e b.1 b.2) s

end Sys2Proof.Machine
end

