-- ==== Sys2Proof/Machine/Arrive.lean ====
section
/-! DEFINITION. What arrives over the dyke mesh at a tussock, an HBM4 controller or a crossbar half (R71, R88, R103, R104,
R113, R118, R125, R218, R229), and the pointer check of R121. -/
namespace Sys2Proof.Machine

/-! ### The epoch rule (R71) -/

/-- Counts a discarded token of a partition in 0x5010:02 and logs STALE_TOKEN with sender and epoch (R71). -/
def State.stale (s : State) (p : Option Nat) (sender : Nat) (epoch : BitVec 3) : State :=
  let s := match p with
    | some p =>
      let v := s.get 0x5010 2
      s.set 0x5010 2 (putBits v (32 * p) 32 (bits v (32 * p + 31) (32 * p) + 1))
    | none => s
  s.logEvent 11 0x01A0 p 0 sender [(16, sender), (3, epoch.toNat)]

/-- A token or write discarded at a tussock: it counts for the partition whose section holds the tussock, or in whose rectangle it lies. -/
def State.staleAt (s : State) (t sender : Nat) (epoch : BitVec 3) : State :=
  s.stale ((s.tus1 t).owner.orElse (fun _ => s.partOfTus t)) sender epoch

/-- Does a packet carry the epoch of the tussock where it arrives (R71)? One from an edge unit carries none (R243). -/
def State.fresh? (s : State) (p : Pkt) (t : Nat) : Bool :=
  match p.src with | .tus _ => p.epoch == (s.tus1 t).epoch | _ => true

/-- The number of the sender of a packet, for a log entry. -/
def Node.num : Node → Nat
  | .tus t => t.val | .hbm i => 256 + i.val | .half h => 264 + h.val

/-! ### Fill writes (R103, R104, R218) -/

/-- A slot of a descriptor has reached its destination: the descriptor leaves with its last slot. -/
def State.gotSlot (s : State) (id : Option Nat) (idx : Nat) : State :=
  match id.bind s.xfer? with
  | none => s
  | some x =>
    let x' : Xfer := { x with got := addOnce x.got idx, done := Nat.max x.done (idx + 1) }
    let s := s.modXfer x.id (fun _ => x')
    if x.slots ≤ x'.got.length then s.dropXfer x' else s

/-- A write proceeds at its slot: its bytes, its tag unless it is a plain write, its acknowledgement on its plane. -/
def State.applyFill (s : State) (n : Node) (w : FillW) : State :=
  let s := if w.plain then s.putBytes w.space (256 * w.slot + w.off) w.data else s.fillSlot w
  s.sendAck n w.plane w.slot w.ack

/-- The writes held at a memory (R104). -/
def State.holds (s : State) (sp : Space) : List FillW :=
  match sp with | .pool t => (s.tus1 t).hold | .spad r => (s.reed r).hold | _ => []

/-- Must a write wait for a lower slot of its own operation that is held, since a fill sets its tags in ascending order (R105)? -/
def State.heldBefore (s : State) (w : FillW) : Bool :=
  w.ack.isSome && (s.holds w.space).any (fun h => h.ack == w.ack && decide (h.slot < w.slot))

/-- May a write proceed at its slot, its tag and its order allowing it (R103, R105)? -/
def State.writeReady (s : State) (w : FillW) : Bool := s.writable w && !s.heldBefore w

/-- A write that may proceed asks its banks at a rank, and is made where they grant it (R110). -/
def State.tryFill (s : State) (n : Node) (w : FillW) (rank : Nat) : BankTry :=
  match s.bankAsk w.space (256 * w.slot + w.off) w.data.length rank with
  | .granted u => .granted (u.applyFill n w)
  | .lost u => .lost u

/-- Holds a fill write that may not proceed: 16 at a pool, 4 at a reed (R104); none where the buffer is full. -/
def State.holdFill (s : State) (w : FillW) : Option State :=
  match w.space with
  | .pool t => if (s.tus1 t).hold.length < 16 then some (s.modTus t (fun x => { x with hold := x.hold ++ [w] })) else none
  | .spad r => if (s.reed r).hold.length < 4 then some (s.modReed r (fun x => { x with hold := x.hold ++ [w] })) else none
  | _ => none

/-- A slot of a descriptor whose destination is HBM4 is written; each whole tile is acknowledged (R218). -/
def State.fillStack (s : State) (n : Node) (w : FillW) (id : Option Nat) (idx : Nat) : State :=
  let s := s.putBytes w.space (256 * w.slot) w.data
  match id.bind s.xfer? with
  | none => s.sendAck n w.plane w.slot w.ack
  | some x =>
    let got := addOnce x.got idx
    let whole := (upto (18 * (idx / 18)) 18).all got.contains
    let s := if whole then s.sendAck n w.plane w.slot w.ack else s
    s.gotSlot (some x.id) idx

/-- A slot of a store reaches the unit of a tier outside the package and is staged there until its tile is whole (R225). -/
def State.fillTier (s : State) (id : Option Nat) (idx : Nat) (data : List Byte) : State :=
  match id.bind s.xfer? with
  | none => s
  | some x => flushTiles (x.slots / 18) (s.modXfer x.id (fun y => { y with stage := Tbl.up y.stage idx data })) x.id

/-- Is it a slot's turn among those of its descriptor (R105)? -/
def State.slotTurn (s : State) (id : Option Nat) (idx : Nat) : Bool :=
  match id.bind s.xfer? with | some x => x.inTurn idx | none => true

/-- FILL_WRITE_ARRIVE (R103, R104): the k-th packet delivered to a node, if it is a fill write: its slot is filled, or the
write is held, or it waits in its crossing while its turn has not come, its banks are taken or the hold buffer is full. A tagged write of
another epoch is discarded (R71). -/
def execFillWriteArrive (n : Node) (k : Nat) (s : State) : Host.Outcome State Fault Refusal :=
  match s.arrival n k with
  | some p => match p.pay with
    | .fill v id idx =>
      let w := { v with plane := p.plane }
      let t := s.take n k
      match w.space with
      | .hbm _ => .next (t.fillStack n w id idx)
      | .board _ | .host _ => .next (t.fillTier id idx w.data)
      | .window _ => .next (match id.bind t.xfer? with | some x => t.windowSlot x idx w.data | none => t)
      | _ =>
        let d := match n with | .tus u => u.val | _ => 0
        if !s.fresh? p d then .next (t.staleAt d p.src.num p.epoch)
        else if !s.slotTurn id idx then .next s
        else if s.writeReady w then .next (match s.tryFill n w w.space.fillRank with
          | .granted u => (u.take n k).gotSlot id idx
          | .lost u => u)
        else if w.plain then .next s
        else match t.holdFill w with
          | some u => .next (u.gotSlot id idx)
          | none => .next s
    | _ => .next s
  | none => .next s

/-- HELD_FILL_RELEASE (R104): the k-th held write of a buffer proceeds once its slot and its banks allow it. -/
def execHeldFillRelease (u : HoldUnit) (k : Nat) (s : State) : Host.Outcome State Fault Refusal :=
  match u with
  | .pool t => match (s.tus1 t.val).hold[k]? with
    | some w => .next (if !s.writeReady w then s else match s.tryFill (.tus t) w 2 with
        | .granted v => v.modTus t.val (fun x => { x with hold := dropAt x.hold k })
        | .lost v => v)
    | none => .next s
  | .reed r => match (s.reed r.val).hold[k]? with
    | some w => .next (if !s.writeReady w then s else match s.tryFill (tusNode (tusOf r.val)) w 1 with
        | .granted v => v.modReed r.val (fun x => { x with hold := dropAt x.hold k })
        | .lost v => v)
    | none => .next s

/-! ### Descriptor reads (R103, R113) -/

/-- A new merge group with one member, whose window closes at a cycle (R113). -/
def Group.ofXfer (id : Nat) (x : Xfer) (until_ : Nat) : Group :=
  { id := id, base := x.srcBase, slots := x.slots, mode := x.mode, run := x.run, stride := x.stride, until_ := until_,
    members := [x.id], next := x.sent }

/-- Adds a read to the groups of a memory: it joins an open group of the same slots, and is counted, or opens one (R113). -/
def joinGroup (gs : List Group) (new : Nat) (x : Xfer) (now window : Nat) : List Group × Nat :=
  match gs.find? (fun g => g.takes x now) with
  | some g => (gs.map (fun h => if h.id = g.id then { h with members := h.members ++ [x.id] } else h), 1)
  | none => (gs ++ [Group.ofXfer new x (now + window)], 0)

/-- A descriptor's read reaches a pool: 4 reed cycles of its tussock are a group's window (R113). -/
def State.joinPool (s : State) (u : Nat) (x : Xfer) : State :=
  s.modTus u (fun y =>
    let (gs, n) := joinGroup y.groups y.nextGroup x y.cycles 4
    { y with groups := gs, nextGroup := y.nextGroup + 1, mergedReads := y.mergedReads + n })

/-- A descriptor's read reaches an HBM4 controller: 5 ns, 8 mesh cycles, are a group's window (R113). -/
def State.joinStack (s : State) (i : Nat) (x : Xfer) : State :=
  s.modStack i (fun y =>
    let (gs, n) := joinGroup y.groups y.nextGroup x s.meshNow 8
    { y with groups := gs, nextGroup := y.nextGroup + 1, mergedReads := y.mergedReads + n })

/-- READ_REQUEST_ARRIVE (R113, R218, R226): a descriptor's read reaches its memory: a pool or an HBM4 controller, where it
joins a merge group; or the crossbar half behind which a board-tier controller or a host port serves it, tile by tile, with
the data that the command brings. -/
def execReadRequestArrive (n : Node) (k : Nat) (host : List HostData) (s : State) : Host.Outcome State Fault Refusal :=
  match s.arrival n k with
  | some p => match p.pay with
    | .readReq id =>
      let t := s.take n k
      match t.xfer? id with
      | none => .next t
      | some x => match x.src with
        | .pool u => .next (t.joinPool u x)
        | .hbm i => .next (t.joinStack i x)
        | _ => .next (if x.halted then t else serveTier n (x.slots / 18) t x x.sent host)
    | _ => .next s
  | none => .next s

/-- MERGE_GROUP_CLOSE (R113): a group's window is over; it reads its slots as far as they are FULL, and waits for the rest. -/
def execMergeGroupClose (n : Node) (g : Nat) (s : State) : Host.Outcome State Fault Refusal :=
  match n with
  | .tus t =>
    let shut := fun (h : Group) => if h.id = g ∧ h.until_ ≤ (s.tus1 t.val).cycles then { h with isOpen := false } else h
    .next ((s.modTus t.val (fun y => { y with groups := y.groups.map shut })).servePool t.val)
  | .hbm i => match (s.stack i.val).groups.find? (fun h => h.id == g && decide (h.until_ ≤ s.meshNow)) with
    | some h => .next (s.serveStack i.val h)
    | none => .next s
  | .half _ => .next s

/-- READ_RESPONSE_ARRIVE (R103): a slot read for a descriptor lands, and its tag turns FULL. -/
def execReadResponseArrive (t : Fin 256) (k : Nat) (s : State) : Host.Outcome State Fault Refusal :=
  match s.arrival (.tus t) k with
  | some p => match p.pay with
    | .readResp id idx data => match s.xfer? id with
      | none => .next (s.take (.tus t) k)
      | some x => match s.arriveSlot x idx data with
        | .granted u => .next (u.take (.tus t) k)
        | .lost u => .next u
    | _ => .next s
  | none => .next s

/-- Lands one merged slot at each member in turn; the members that its turn, its tag or its banks hold back are left (R113). -/
def landMembers (idx : Nat) (data : List Byte) : List Nat → State → List Nat → State × List Nat
  | [], s, left => (s, left)
  | m :: t, s, left =>
    match s.xfer? m with
    | none => landMembers idx data t s left
    | some x => match s.arriveSlot x idx data with
      | .granted u => landMembers idx data t u left
      | .lost u => landMembers idx data t u (left ++ [m])

/-- Replaces the payload of the k-th packet delivered to a tussock. -/
def State.replacePay (s : State) (t k : Nat) (pay : Payload) : State :=
  s.modTus t (fun x => match x.arrived[k]? with
    | some p => { x with arrived := setAt x.arrived k { p with pay := pay } }
    | none => x)

/-- MERGED_READ_RESPONSE_ARRIVE (R113): a merged slot lands at each member of the tussock that its mask names. -/
def execMergedReadResponseArrive (t : Fin 256) (k : Nat) (s : State) : Host.Outcome State Fault Refusal :=
  match s.arrival (.tus t) k with
  | some p => match p.pay with
    | .merged ms idx data =>
      let (u, left) := landMembers idx data ms s []
      .next (if left.isEmpty then u.take (.tus t) k else u.replacePay t.val k (.merged left idx data))
    | _ => .next s
  | none => .next s

/-! ### Tokens (R71, R118, R125) -/

/-- Returns the credit of a token that leaves for another device to the output queue of its tussock that feeds that queue
(R271, R274). -/
def State.lodeCredit (s : State) (t : Nat) (d : Dest) : State :=
  let qs := (upto (24 * t) 24).flatMap (fun r => (List.range 8).map (fun q => (r, q)))
  match qs.find? (fun x => (s.outq x.1 x.2).dest == d && decide ((s.outq x.1 x.2).cr < 32)) with
  | some (r, q) => s.credit (.queue r q) 0 0 1
  | none => s

/-- TARGET of a TOKEN or BULK_PUT (R270): tussock, port, queue. -/
def tokenTarget (reed q : Nat) : Nat := tusOf reed * 256 + localOf reed * 8 + q

/-- QUEUE_TOKEN_ARRIVE (R118): a queue token from another tussock is written into its input queue or sluice buffer under
the epoch rule; at a crossbar half it leaves for another device as a TOKEN packet (R271). -/
def execQueueTokenArrive (n : Node) (k : Nat) (s : State) : Host.Outcome State Fault Refusal :=
  match s.arrival n k with
  | some p => match p.pay with
    | .token tok dest =>
      let t := s.take n k
      match n, dest with
      | .tus u, .queue r q => if s.fresh? p u.val then .next (t.enqueue r q tok)
          else .next (t.staleAt u.val p.src.num p.epoch)
      | .tus u, .sluice v a i => if s.fresh? p u.val then .next (t.pathTok v a i tok)
          else .next (t.staleAt u.val p.src.num p.epoch)
      | .half _, .lode dev r q =>
          let src := p.src.num
          let part := (t.tus1 src).owner.getD 0
          let m := t.mkPkt part dev part 1 (tokenTarget r q) 0 (.toks [tok])
          .next ((t.lodeSend { m with epoch := p.epoch }).lodeCredit src dest)
      | _, _ => .next t
    | _ => .next s
  | none => .next s

/-- NULL_PACKET_ARRIVE (R125): a null packet takes PACKET_TOKENS entries of its queue at once. -/
def execNullPacketArrive (t : Fin 256) (k : Nat) (s : State) : Host.Outcome State Fault Refusal :=
  match s.arrival (.tus t) k with
  | some p => match p.pay with
    | .null n seq (.queue r q) =>
      let u := s.take (.tus t) k
      if s.fresh? p t.val then .next (u.enqueueNull r q n p.epoch seq) else .next (u.staleAt t.val p.src.num p.epoch)
    | _ => .next s
  | none => .next s

/-! ### The trickle path (R229) -/

/-- The rank of a trickle write (R229): 5 at a pool, 4 at a scratchpad. -/
def Space.trickleRank : Space → Nat
  | .pool _ => 5
  | _ => 4

/-- Applies the transfers of a batch in order; one that can be neither written nor held keeps the rest waiting. -/
def applyTrickle (n : Node) (plane : Nat) : List FillW → State → State × List FillW
  | [], s => (s, [])
  | v :: t, s =>
    let w := { v with plane := plane }
    if s.writeReady w then
      match s.tryFill n w w.space.trickleRank with
      | .granted u => applyTrickle n plane t u
      | .lost u => (u, v :: t)
    else if w.plain then (s, v :: t)
    else match s.holdFill w with
      | some u => applyTrickle n plane t u
      | none => (s, v :: t)

/-- TRICKLE_BATCH_ARRIVE (R229): a batch reaches its tussock and its transfers are applied in order. -/
def execTrickleBatchArrive (t : Fin 256) (k : Nat) (s : State) : Host.Outcome State Fault Refusal :=
  match s.arrival (.tus t) k with
  | some p => match p.pay with
    | .trickle ws =>
      if !s.fresh? p t.val then .next ((s.take (.tus t) k).staleAt t.val p.src.num p.epoch)
      else
        let (u, left) := applyTrickle (.tus t) p.plane ws s
        .next (if left.isEmpty then u.take (.tus t) k else u.replacePay t.val k (.trickle left))
    | _ => .next s
  | none => .next s

/-- TRICKLE_BATCH_CLOSE (R229): 32 mesh cycles after its first transfer, a batch is sent as one packet. -/
def execTrickleBatchClose (t dest : Fin 256) (s : State) : Host.Outcome State Fault Refusal :=
  match Tbl.lk? (s.tus1 t.val).batches dest.val with
  | some (t0, _) => .next (if t0.toNat + 32 ≤ s.timeBase.toNat then s.closeBatch t.val dest.val else s)
  | none => .next s

/-! ### The pointer check (R121) -/

/-- Do two copies of two pointers pass the check of R121? -/
def pointersOk (wr wr2 rd rd2 : BitVec 6) : Bool := wr == wr2 && rd == rd2 && decide ((wr - rd).toNat ≤ 32)

/-- An input queue with nothing in it and its pointers at 0. -/
def InQ.cleared (x : InQ) : InQ :=
  { x with toks := [], fresh := 0, inPacket := false, dropping := false, wr := 0, wr2 := 0, rd := 0, rd2 := 0 }
/-- Empties the queue that a producer feeds, its pointers at 0 (R121); one of another device is not within reach. -/
def State.clearDest (s : State) (d : Dest) : State :=
  match d with
  | .queue r q => s.modInq r q InQ.cleared
  | .sluice t p i => s.modPath t p (fun x => { x with data := Tbl.up x.data i {} })
  | _ => s
/-- The endpoint of destination i of a sluice path. -/
def State.pathDest (s : State) (t p i : Nat) : Endpoint := s.endpoint t ((s.path t p).dests.getD i 0)

/-- QUEUE_POINTER (R121): the pointer copies that the check sees; for a credit count wr and wr2 are its copies. A check that
fails resets the queue: its pointers, its entries and its producer's credits; and faults the section with all four values logged. -/
def execQueuePointer (u : PtrUnit) (wr wr2 rd rd2 : BitVec 6) (s : State) : Host.Outcome State Fault Refusal :=
  let d (q : Nat) : List (Nat × Nat) := [(8, q), (6, wr.toNat), (6, wr2.toNat), (6, rd.toNat), (6, rd2.toNat)]
  let creditOk := wr == wr2 && decide (wr.toNat ≤ 32)
  let pathFault (s : State) (t : Fin 256) (p : Fin 16) (i : Nat) : State :=
    s.reedFault (24 * t.val) .queuePointer (16 * t.val + p.val) ((16, t.val) :: d i)
  match u with
  | .inQueue r q => if pointersOk wr wr2 rd rd2 then .next s
      else
        let t := (s.modInq r.val q.val InQ.cleared).credit (s.inq r.val q.val).feeder r.val q.val 32
        .next (t.reedFault r.val .queuePointer q.val ((16, r.val) :: d q.val))
  | .outCredit r q => if creditOk then .next s
      else
        let t := (s.modReed r.val (fun x => { x with qo := Tbl.mod {} x.qo q.val (fun o => { o with cr := 32, cr2 := 32 }) })).clearDest
          (s.outq r.val q.val).dest
        .next (t.reedFault r.val .queuePointer (8 + q.val) ((16, r.val) :: d (8 + q.val)))
  | .sluice t p i => if pointersOk wr wr2 rd rd2 then .next s
      else if i.val = 16 then .next (pathFault (s.modPath t.val p.val (fun x => { x with ctl := {} })) t p 16)
      else
        let e := s.endpoint t.val ((s.path t.val p.val).inputs.getD i.val 0)
        let v := s.clearDest (.sluice t.val p.val i.val)
        .next (pathFault (if e.valid then v.credit (.queue e.reed e.queue) 0 0 32 else v) t p i.val)
  | .pathCredit t p i => if creditOk then .next s
      else
        let e := s.pathDest t.val p.val i.val
        let v := s.modPath t.val p.val (fun x => { x with cr := Tbl.up x.cr i.val 32, cr2 := Tbl.up x.cr2 i.val 32 })
        .next (pathFault (if e.valid then v.clearDest (.queue e.reed e.queue) else v) t p (32 + i.val))

end Sys2Proof.Machine
end

