-- ==== Sys2Proof/Machine/Power.lean ====
section
/-! DEFINITION. Power, thermal and ageing (R25, R326 to R341): the power loop, the boundary choice of the operating point, the
emergency throttle, trims and energy. -/
namespace Sys2Proof.Machine

/-- Typical power of an operating point in W (R326). -/
def typicalW : Nat → Nat
  | 0 => 1570 | 1 => 1401 | 2 => 1242 | 3 => 1092 | 4 => 951 | 5 => 819 | 6 => 704 | _ => 598
/-- The predicted draw of a point (R329), in W × 65,536 (entry 40). -/
def State.predicted (s : State) (pt : Nat) : Nat := typicalW pt * s.power.ratio
/-- OP_MAX. -/
def State.opMax (s : State) : Nat := s.get 0x2000 4
/-- The lowest-numbered point, no lower than OP_MAX, whose predicted draw meets the active cap (R329); none under R330. -/
def State.feasible? (s : State) : Option Nat :=
  (List.range 8).find? (fun pt => decide (s.opMax ≤ pt) && decide (s.predicted pt ≤ 65536 * s.get 0x2000 2))
/-- The feasible point: P7 where no point meets the cap (R330). -/
def State.feasible (s : State) : Nat := s.feasible?.getD 7
/-- Bounds a ratio to 0.5 to 2.0 (R332). -/
def boundRatio (r : Nat) : Nat := Nat.min 131072 (Nat.max 32768 r)

/-! ### Operating points (R328 to R331, R335, R337) -/

/-- Is an emergency cause present (R336)? -/
def Power.anyCause (p : Power) : Bool := p.overCurrent || p.overTemp || p.brake

/-- Tells every member of the mire that this device enters or leaves emergency throttle (R283). -/
def State.announce (s : State) (on : Bool) : State :=
  s.mirePeers.foldl (fun s d => s.lodeSend (s.mkPkt 0 d 0 0x12 0 (b2n on) .none)) s

/-- Begins a change of point, or of voltage at one point (R331, R335): a slower point takes effect at once, a faster one or a
higher voltage once the regulators have settled. A throttled device stays at P7 (R337). -/
def State.changePoint (s : State) (pt : Nat) : State :=
  let cur := s.get 0x2000 3
  let trim := s.power.trimPending
  if s.power.throttled then s
  else
    let s := { s with power := { s.power with trimPending := 0 } }
    if pt < cur ∨ trim ≠ 0 then { s with power := { s.power with settling := some pt } }
  else s.set 0x2000 3 pt

/-- A boundary at which a step of a number is to start (R328, R330, R335, R337): a due cap request, a raised OP_MAX, the end of
a throttle whose causes have cleared, CAP_UNMET. -/
def State.atBoundary (s : State) (step : Nat) : State :=
  let req := s.get 0x2000 1
  let s := if s.power.capPending ∧ bits req 31 0 ≤ step then
      ({ s with power := { s.power with capPending := false } }).set 0x2000 2 (bits req 47 32) else s
  let s := if s.power.opMaxPending = 0 then s else
      ({ s with power := { s.power with opMaxPending := 0 } }).set 0x2000 4 (Nat.min 7 (s.opMax + s.power.opMaxPending))
  let s := if s.power.throttled ∧ !s.power.anyCause then
      ({ s with power := { s.power with throttled := false, stage2 := false, hold := false, p7At := none } }).announce false else s
  if s.feasible?.isNone then (s.logEvent 5 0x0140 none 0 (s.get 0x2000 2) []).bump 0x2030 4 else s

/-- OP_POINT_SETTLED (R331): the regulators report the higher voltage in regulation; the clocks are raised. -/
def execOpPointSettled (s : State) : Host.Outcome State Fault Refusal :=
  match s.power.settling with
  | none => .next s
  | some pt =>
    let t := { s with power := { s.power with settling := none } }
    .next (if t.power.throttled then t else t.set 0x2000 3 pt)

/-! ### The emergency throttle (R336 to R338) -/

/-- Stage 1 (R336): new firing starts are held, the clocks reach 400 MHz within 1 µs, THROTTLE is announced. -/
def State.throttle (s : State) : State :=
  if s.power.throttled then s
  else
    let at_ := s.timeBase + BitVec.ofNat 64 (1600)
    ({ s with power := { s.power with throttled := true, hold := true, p7At := some at_ } }).announce true

/-- Once P7 is reached the holds of stage 1 are released (R336). -/
def State.releaseHold (s : State) : State :=
  match s.power.p7At with
  | some t =>
    if s.power.hold ∧ !s.power.stage2 ∧ t.toNat ≤ s.timeBase.toNat then
      ({ s with power := { s.power with hold := false } }).set 0x2000 3 7
    else s
  | none => s

/-- When every cause has cleared, stage 2 ends; the device stays at P7 until a boundary (R337). -/
def State.causeGone (s : State) : State :=
  if s.power.anyCause ∨ !s.power.stage2 then s else { s with power := { s.power with stage2 := false, hold := false } }

/-- Over-current is detected (R336): counted once per emergency, its clearing time starts again. -/
def State.overCurrent (s : State) : State :=
  let t := if s.power.overCurrent then s else s.bump 0x2030 2
  ({ t with power := { t.power with overCurrent := true, ocClear := none } }).throttle

/-- POWER_ESTIMATE (R332, R336): the activity estimate of 1 µs in mW, weighted by the coefficients' scale, and the core-rail
current in A. -/
def execPowerEstimate (mw amps : Nat) (s : State) : Host.Outcome State Fault Refusal :=
  let lim := s.get 0x2000 5
  let est := mw * s.power.coeff / 65536
  let low := decide (10 * amps < 9 * lim) && !s.power.ocWarn
  let since := if low then (if s.power.ocClear.isSome then s.power.ocClear else some s.timeBase) else none
  let t := { s with power := { s.power with estSum := s.power.estSum + est, estCount := s.power.estCount + 1, amps := amps, ocClear := since } }
  .next (if lim < amps then t.overCurrent else t).releaseHold

/-- PMB_ALERT_N (R336): the regulators' alert, with or without an over-current warning. -/
def execPmbAlertN (warning : Bool) (s : State) : Host.Outcome State Fault Refusal :=
  let t := { s with power := { s.power with ocWarn := warning } }
  .next (if warning then t.overCurrent else t)

/-- DIPWELL_SAMPLE (R336, R341): the hottest dipwell in 1/16 °C. -/
def execDipwellSample (hot : BitVec 16) (s : State) : Host.Outcome State Fault Refusal :=
  let lim : Int := 16 * (s.get 0x2020 2 : Int)
  let t := s.set 0x2020 1 hot.toNat
  let low := decide (hot.toInt ≤ lim - 80)
  let since := if low then (if t.power.otClear.isSome then t.power.otClear else some t.timeBase) else none
  let t := { t with power := { t.power with otClear := since } }
  if lim ≤ hot.toInt then
    let t := if t.power.overTemp then t else t.bump 0x2030 3
    .next ({ t with power := { t.power with overTemp := true, otClear := none } }).throttle
  else .next t

/-- Has a time passed since an instant? -/
def State.past (s : State) (t : Option W64) (cycles : Nat) : Bool :=
  match t with | some t => decide (t.toNat + cycles ≤ s.timeBase.toNat) | none => false

/-- EMERGENCY_CLEAR (R336): a cause that has stayed below its clearing level for 1 ms clears. -/
def execEmergencyClear (temp : Bool) (s : State) : Host.Outcome State Fault Refusal :=
  let p := s.power
  if temp then
    (if p.overTemp && s.past p.otClear (msCycles 1) then .next ({ s with power := { p with overTemp := false } }).causeGone else .next s)
  else if p.overCurrent && !p.ocWarn && s.past p.ocClear (msCycles 1) then .next ({ s with power := { p with overCurrent := false } }).causeGone
  else .next s

/-- STAGE2_THROTTLE (R337): OVER_TEMP has not cleared 1 ms after the device reached P7. -/
def execStage2Throttle (s : State) : Host.Outcome State Fault Refusal :=
  if s.power.throttled && s.power.overTemp && s.past s.power.p7At (msCycles 1) then .next { s with power := { s.power with stage2 := true, hold := true } }
  else .next s

/-- STAGE2_HOLD (R337): in each 10 µs window of stage 2 new firing starts are held for the first 5 µs and then released. -/
def execStage2Hold (hold : Bool) (s : State) : Host.Outcome State Fault Refusal :=
  if s.power.stage2 then .next { s with power := { s.power with hold := hold } } else .next s

/-- BRAKE_N_ASSERT (R336, R338): BRAKE_N is accepted as asserted. -/
def execBrakeNAssert (s : State) : Host.Outcome State Fault Refusal :=
  if s.power.brake then .next s
  else
    let t := s.bump 0x2030 1
    .next ({ t with power := { t.power with brake := true, brakeAt := some t.timeBase, brakeHeld := false } }).throttle

/-- BRAKE_N_DEASSERT (R336, R338): accepted after 2 µs of stable high level. -/
def execBrakeNDeassert (s : State) : Host.Outcome State Fault Refusal :=
  .next ({ s with power := { s.power with brake := false, brakeAt := none, brakeHeld := false } }).causeGone

/-- BRAKE_HELD (R338): after 1 s of continuous assertion the event is raised, once, and counted. -/
def execBrakeHeld (s : State) : Host.Outcome State Fault Refusal :=
  if s.power.brake && !s.power.brakeHeld && s.past s.power.brakeAt (msCycles 1000) then
    .next ((({ s with power := { s.power with brakeHeld := true } }).bump 0x2030 1).logEvent 5 0x0145 none 0 0 [])
  else .next s

/-- THERMAL_TRIP (R339): THERMTRIP_N is asserted and every clock stops; nothing is recorded. -/
def execThermalTrip (s : State) : Host.Outcome State Fault Refusal := .next { s with power := { s.power with tripped := true } }

/-! ### The power loop (R332, R333) -/

/-- Sum of the regulators' last readings. -/
def Power.total (p : Power) : Nat := sumOf (p.watts.map (·.2))

/-- PMBUS_READ (R332, R333): a regulator's read completes with its power in W, or fails; the second failure in a row raises
PMBUS_FAULT. The numbers are those of PMBUS_MAP. -/
def execPmbusRead (reg : Fin 16) (w : Option Nat) (s : State) : Host.Outcome State Fault Refusal :=
  let p := s.power
  match w with
  | some v =>
    let p := { p with watts := Tbl.up p.watts reg.val v, failed := Tbl.up p.failed reg.val false, pmbusFault := false }
    .next (({ s with power := { p with measured := p.total } }).set 0x2010 4 (p.total % 65536))
  | none =>
    if Tbl.lk false p.failed reg.val then
      let addr := match s.boardRec.pmbusMap[reg.val]? with | some e => e.2 | none => reg.val
      .next (({ s with power := { p with failed := Tbl.up p.failed reg.val false, pmbusFault := true } }).logEvent 5 0x0142 none (regUnit addr) 0 [])
    else .next { s with power := { p with failed := Tbl.up p.failed reg.val true } }

/-- Charges energy in µJ to a counter in mJ, keeping the rest below 1 mJ (R340). -/
def State.charge (s : State) (k idx sub uj : Nat) : State :=
  let n := Tbl.lk 0 s.power.energyFrac k + uj
  ({ s with power := { s.power with energyFrac := Tbl.up s.power.energyFrac k (n % 1000) } }).bump idx sub (n / 1000)

/-- Divides the energy of a window (R340): the partitions' shares in µJ, then what remains to the device. -/
def chargeAll : List Nat → Nat → Nat → State → State
  | [], _, left, s => s.charge 8 0x2050 0 left
  | e :: t, p, left, s => chargeAll t (p + 1) (left - Nat.min e left) (s.charge p (0x2050 + p) 1 (Nat.min e left))

/-- The divergence check of R333 over the window's mean estimate and measurement in W. -/
def State.divergence (s : State) (est : Nat) : State :=
  let p := s.power
  let m := p.measured
  let d := if est < m then m - est else est - m
  if p.pmbusFault ∨ 100 * d ≤ s.get 0x2010 1 * m then { s with power := { p with diverge := [] } }
  else
    let l := p.diverge ++ [(m, est)]
    if l.length < s.get 0x2010 2 then { s with power := { p with diverge := l } }
    else
      let r := sumOf (l.map (fun e => if e.2 = 0 then 131072 else 65536 * e.1 / e.2)) / l.length
      let t := { s with power := { p with diverge := [], coeff := boundRatio (p.coeff * boundRatio r / 65536) } }
      (t.bump 0x2010 5).logEvent 5 0x0141 none 0 0 [(16, m), (16, est)]

/-- POWER_WINDOW (R332, R333, R340): the window of 100 µs ends. The operands are the energies that the estimate charges to the
partitions, in µJ: those of their islands, which the calibration ratio scales, and those of the fixed-clock blocks. -/
def execPowerWindow (islands fixed : List Nat) (s : State) : Host.Outcome State Fault Refusal :=
  let p := s.power
  let est := if p.estCount = 0 then 0 else p.estSum / p.estCount / 1000
  let figure := if p.pmbusFault ∨ !s.boardRec.recordOk then est * 5 / 4 else Nat.max est p.measured
  let r := if est = 0 then 65536 else 65536 * figure / est
  let l := (p.ratios ++ [r]).drop ((p.ratios.length + 1) - 64)
  let s := { s with power := { p with estSum := 0, estCount := 0, ratios := l, ratio := boundRatio (sumOf l / l.length) } }
  let s := (s.set 0x2010 3 (est % 65536)).divergence est
  let shares := (List.range 8).map (fun i => islands.getD i 0 * r / 65536 + fixed.getD i 0)
  .next (chargeAll shares 0 (100 * figure) s)

/-! ### Droop and ageing (R25, R334, R335) -/

/-- DROOP_DETECTED (R25, R334): the island's clock is stretched; no counter changes its meaning. -/
def execDroopDetected (t : Fin 256) (s : State) : Host.Outcome State Fault Refusal :=
  if (s.tus1 t.val).stretched then .next s else .next ((s.modTus t.val (fun x => { x with stretched := true })).bump 0x2040 4)

/-- SUPPLY_RECOVERY (R334): the stretching ends. -/
def execSupplyRecovery (t : Fin 256) (s : State) : Host.Outcome State Fault Refusal :=
  .next (s.modTus t.val (fun x => { x with stretched := false }))

/-- VOLTAGE_TRIM (R335): the worst margin, in ps, has fallen below the trim threshold: 5 mV more at every point while the total
is below 60 mV, else MARGIN_EXHAUSTED and OP_MAX rises at the next boundary. -/
def execVoltageTrim (margin : Nat) (s : State) : Host.Outcome State Fault Refusal :=
  let s := s.set 0x2040 2 (margin % 65536)
  let mv := s.get 0x2040 1
  if mv + 5 ≤ 60 then
    let s := ((s.set 0x2040 1 (mv + 5)).bump 0x2040 3).logEvent 5 0x0143 none 0 margin []
    .next { s with power := { s.power with trimPending := s.power.trimPending + 1 }, sedge := { s.sedge with dirty := true } }
  else .next ({ s with power := { s.power with opMaxPending := s.power.opMaxPending + 1 } }.logEvent 5 0x0144 none 0 margin [])

end Sys2Proof.Machine
end

