-- ==== Sys2Proof/Machine/Matrix.lean ====
section
/-! DEFINITION. The matrix engine (R126 to R149, R439): MRES, MMAC, MOUT, MSUMP, MCLR, MCFG and what completes them. -/
namespace Sys2Proof.Machine

/-- How many tiles an operand of K-blocks spans (R128, R137). -/
def operandTiles (f : Fmt) (krows : Bool) (kblk : Nat) : Nat := ceilDiv kblk (f.kPerTile krows)

/-- Valid positions of block b along an extent (R146). -/
def validIn (ext b : Nat) : Nat := Nat.min 32 (ext - 32 * b)

/-- The exact block sum of R140 under the special values of R141: products, then the two scales. -/
def blockSum (ps : List (Val × Val)) (sa sw : Nat) : Val :=
  let prods := ps.map (fun (a, w) => a.mul w)
  if sa = 255 ∨ sw = 255 ∨ prods.any Val.isNan then .nan
  else (prods.foldl Val.add (.zero false)).scale ((sa : Int) - 127 + (sw : Int) - 127)

/-- One rounding of the accumulator (R140, R141): a zero is +0, a NaN the written NaN. -/
def accRound (rnd : Rnd) (v : Val) : W32 := if v.isZero then 0 else BitVec.ofNat 32 (Fmt.fp32.encode rnd false v).bits

/-- Row i of the streamed operand in block b of a tile (R137): along its columns, or along its rows when transposed. -/
def streamRow (f : Fmt) (trans : Bool) (t : List Byte) (i b : Nat) : List Val :=
  (upto (32 * b) 32).map (fun k => f.decode (if trans then tileElem f t k i else tileElem f t i k))

/-- One K-block added to an accumulator tile (R140 to R143): streamed rows from row i0 on. -/
def addBlock (a : AccTile) (fa fb : Fmt) (trans : Bool) (ta tb : List Byte) (ba bb i0 : Nat) (rnd : Nat → Nat → Rnd) : AccTile :=
  let ha := TileHdr.ofTile ta
  let hb := TileHdr.ofTile tb
  let rows := (List.range 64).map (fun i => (streamRow fa trans ta (i0 + i) ba, tileScale fa ta ha (i0 + i) ba))
  let cols := (List.range 64).map (fun j => (streamRow fb false tb j bb, tileScale fb tb hb j bb))
  let el := (List.range 4096).filterMap (fun n =>
    let i := n / 64
    let j := n % 64
    let (ra, sa) := rows.getD i ([], 127)
    let (rb, sb) := cols.getD j ([], 127)
    let w := accRound (rnd i j) ((f32 (Tbl.lk 0 a.el n)).add (blockSum (ra.zip rb) sa sb))
    if w = 0 then none else some (n, w))
  { a with el := el, nblk := a.nblk + 1 }

/-- The rounding of element (i, j) in the next K-block (R140, R142, R143). -/
def State.accRnd (s : State) (r : Nat) (a : AccTile) (i j : Nat) : Rnd :=
  if 32 * (a.nblk + 1) > a.lsum.toNat then
    let d := a.desc
    .stoch (randWord (s.jobSeed r) ((64 * d.row.toNat + i) * d.rowElems.toNat + 64 * d.col.toNat + j) 1 a.nblk d.id (s.stepOf r))
  else .near

/-- An accumulator tile of a reed. -/
def Reed.accTile (x : Reed) (i : Nat) : AccTile := Tbl.lk {} x.acc i
/-- Changes an accumulator tile. -/
def State.modAcc (s : State) (r i : Nat) (f : AccTile → AccTile) : State :=
  s.modReed r (fun x => { x with acc := Tbl.mod {} x.acc i f })

/-- A tile cleared (R140): zero, n_blk 0, no extents; the threshold and descriptor stay (R142). -/
def AccTile.clear (a : AccTile) : AccTile := { a with el := [], nblk := 0, ext := none }

/-- What came of trying an issued matrix instruction: done, not ready, a CRC failure awaiting its re-read, a fault. -/
inductive MatTry where
  | done (s : State)
  | notReady
  | crc
  | fault (c : SCause) (t : TileHdr)
  deriving DecidableEq, Repr

/-- The operand tiles of an instruction once every slot is FULL and no word of them is under correction (R43, R103, R137). -/
def State.operands (s : State) (r slot : Nat) (priv : Bool) (n : Nat) : Option (List (List Byte)) :=
  if (!priv && (s.notTag (.spad r) slot (18 * n) .full).isSome) || s.correctsIn (.spad r) (256 * slot) (4608 * n) then none
  else some (tilesOf n ((s.reed r).spad.read (256 * slot) (4608 * n)))

/-- The checks of consumed tiles (R131 to R134): CRC first, then headers. -/
inductive TileCheck where
  | ok
  | crc
  | format (h : TileHdr)
  deriving DecidableEq, Repr

/-- Checks consumed tiles in order. -/
def checkTiles (f : Fmt) (krows : Bool) : List (List Byte) → TileCheck
  | [] => .ok
  | t :: ts =>
    let h := TileHdr.ofTile t
    if tileCrc t ≠ h.crc then .crc
    else if !headerOk h f krows then .format h
    else checkTiles f krows ts

/-- One accumulator tile's share of an MMAC: its K-blocks in ascending order (R140), from streamed row i0. -/
def State.runBlocks (s : State) (r acc : Nat) (fa fb : Fmt) (trans : Bool) (ta tb : List (List Byte)) (i0 : Nat) (kblk : Nat) : State :=
  (List.range kblk).foldl (fun s kb =>
    let a := (s.reed r).accTile acc
    let pa := fa.kPerTile trans
    let pb := fb.kPerTile false
    s.modAcc r acc (fun _ => addBlock a fa fb trans (ta.getD (kb / pa) []) (tb.getD (kb / pb) []) (kb % pa) (kb % pb) i0
      (s.accRnd r a))) s

/-- Do the operands agree on the valid positions of every K-block (R146)? -/
def kAgree (fa fb : Fmt) (trans : Bool) (ta tb : List (List Byte)) (kblk : Nat) : Bool :=
  (List.range kblk).all (fun kb =>
    let pa := fa.kPerTile trans
    let pb := fb.kPerTile false
    let ha := TileHdr.ofTile (ta.getD (kb / pa) [])
    let hb := TileHdr.ofTile (tb.getD (kb / pb) [])
    validIn (if trans then ha.vrows else ha.vcols) (kb % pa) == validIn hb.vcols (kb % pb))

/-- MMAC on verified operands (R137, R140, R146): clears, checks extents, accumulates; a 4-bit transposed operand fills
ACC and ACC + 1. -/
def State.runMmac (s : State) (r acc : Nat) (fa fb : Fmt) (kblk : Nat) (clear trans : Bool) (ta tb : List (List Byte)) : MatTry :=
  let h0 := TileHdr.ofTile (ta.headD [])
  let hb := TileHdr.ofTile (tb.headD [])
  let two := trans && fa.width == 4
  let m := if trans then h0.vcols else h0.vrows
  let parts := if two then [(acc, 0, (Nat.min 64 m, hb.vrows)), (acc + 1, 64, (m - 64, hb.vrows))] else [(acc, 0, (m, hb.vrows))]
  let s := if clear then parts.foldl (fun s (p : Nat × Nat × (Nat × Nat)) => s.modAcc r p.1 AccTile.clear) s else s
  if !kAgree fa fb trans ta tb kblk
      || parts.any (fun p => ((s.reed r).accTile p.1).ext.any (fun e => e != p.2.2)) then .fault .tileExtent h0
  else .done (parts.foldl (fun s p =>
      (s.runBlocks r p.1 fa fb trans ta tb p.2.1 kblk).modAcc r p.1 (fun a => { a with ext := some p.2.2 })) s)

/-- The tile as MOUT and MSUMP let it be seen: +0 outside its extents (R147). -/
def AccTile.padded (a : AccTile) : AccTile :=
  match a.ext with
  | none => a
  | some (vr, vc) => { a with el := a.el.filter (fun (n, _) => decide (n / 64 < vr) && decide (n % 64 < vc)) }

/-- The ACC320 integer of a finite FP32 value, I(x) = x × 2^160 (R148). -/
def accInt (w : W32) : Int :=
  match f32 w with
  | .fin neg m e _ => finInt neg m e (-160)
  | _ => 0

/-- Residue modulo 2^31 - 1, in the range 0 to 2^31 - 2 (R148). -/
def residueOf (i : Int) : Nat := (i % (2 ^ 31 - 1 : Int)).toNat

/-- Is an FP32 pattern infinite or NaN? -/
def nonFinite (w : W32) : Bool := !(f32 w).isFin

/-- The elements of quadrant (qr, qc) of an accumulator tile, row by row (R147). -/
def AccTile.quadrant (a : AccTile) (qr qc : Nat) : List W32 :=
  (List.range 1024).map (fun i => Tbl.lk 0 a.el (64 * (32 * qr + i / 32) + 32 * qc + i % 32))

/-- The exact sum of squares of finite elements, rounded once to FP32; NaN when an element is not finite (R189). -/
def sqNorm (ws : List W32) : W32 :=
  if ws.any nonFinite then 0x7FC00000
  else
    let v := (ws.map (fun w => (f32 w).mul (f32 w))).foldl Val.add (.zero false)
    if v.isZero then 0 else toF32 v

/-- The quadrant tile that MSUMP sends (R147, R148). -/
def State.quadTile (s : State) (r : Nat) (a : AccTile) (q : Nat) : List Byte :=
  let qr := q / 2
  let qc := q % 2
  let ws := a.quadrant qr qc
  let (vr, vc) := a.ext.getD (64, 64)
  let h : TileHdr := {
    tensor := a.desc.id, row := BitVec.ofNat 32 (2 * a.desc.row.toNat + qr),
    col := BitVec.ofNat 32 (2 * a.desc.col.toNat + qc), fmt := 1, epoch := (s.epochOf r).toNat,
    vrows := Nat.min 32 (vr - 32 * qr), vcols := Nat.min 32 (vc - 32 * qc),
    residue := residueOf ((ws.filter (fun w => !nonFinite w)).foldl (fun n w => n + accInt w) 0), nonfinite := ws.any nonFinite }
  mkTile h (packElems 4 (ws.map (·.toNat)))

/-- MSUMP sends four quadrant contributions to the crossbar half that adds them, with their squared norms (R147, R189), each as the 18 slots
of its tile and its record in fill-write packets (R293).-/
def State.sendQuads (s : State) (r op : Nat) (a : AccTile) (group : Nat) (sp : Space) (landing : Nat) : State :=
  (List.range 4).foldl (fun s q =>
    let t := s.quadTile r a q
    let norm := sqNorm (a.quadrant (q / 2) (q % 2))
    let at_ := landing + 18 * q
    (List.range 19).foldl (fun s i => s.inject ((at_ + i) % 2) (tusNode (tusOf r)) (halfNode (fenOf (tusOf r))) (3 * localOf r + 1) 33 (at_ + i)
      (.contribution t group norm r op q sp at_ (s.sumpHalfOf r group t) i)) s) s

/-- Tries the effect of an issued matrix instruction (R139, R140, R143, R147). -/
def State.tryMat (s : State) (r op : Nat) : MatKind → MatTry
  | .mres slot priv f kblk bank =>
    match s.operands r slot priv (operandTiles f false kblk) with
    | none => .notReady
    | some ts => match checkTiles f false ts with
      | .crc => .crc
      | .format h => .fault .tileFormat h
      | .ok => .done (s.modReed r (fun x => { x with banks := Tbl.up x.banks bank { fmt := f, kblk := kblk, tiles := ts } }))
  | .mmac slot priv fa fb kblk acc clear transp bank =>
    match bank.bind (fun b => Tbl.lk? (s.reed r).banks b) with
    | none => .fault .matrixShape {}
    | some bk =>
      if bk.kblk ≠ kblk ∨ bk.fmt ≠ fb then .fault .matrixShape {}
      else match s.operands r slot priv (operandTiles fa transp kblk) with
        | none => .notReady
        | some ts => match checkTiles fa transp ts with
          | .crc => .crc
          | .format h => .fault .tileFormat h
          | .ok => s.runMmac r acc fa fb kblk clear transp ts bk.tiles
  | .mout acc =>
    let a := ((s.reed r).accTile acc).padded
    let (vr, vc) := a.ext.getD (64, 64)
    let s := s.modAcc r acc (fun _ => { a with held := true })
    .done (s.modReed r (fun x => { x with fin := x.fin ++ [{ acc := acc, rows := vr, cols := vc, op := op }] }))
  | .msump acc group sp landing =>
    if !s.sumpAccepts r group then .notReady
    else
      let a := ((s.reed r).accTile acc).padded
      .done ((s.modAcc r acc (fun _ => { a with held := true })).sendQuads r op a group sp landing)
  | .mclr acc => .done (s.modAcc r acc AccTile.clear)
  | .mcfg acc th at_ priv =>
    if (!priv && (s.notTag (.spad r) (at_ / 256) 1 .full).isSome) || s.correctsIn (.spad r) at_ 64 then .notReady
    else
      let n := leNat ((s.reed r).spad.read at_ 64)
      let d : OutDesc := {
        id := BitVec.ofNat 32 n, row := BitVec.ofNat 32 (n >>> 32),
        col := BitVec.ofNat 32 (n >>> 64), rowElems := BitVec.ofNat 32 (n >>> 96) }
      .done (s.modAcc r acc (fun a => { a with lsum := th, desc := d }))

/-- Marks an entry of the matrix queue. -/
def State.markMat (s : State) (r op : Nat) (f : MatOp → MatOp) : State :=
  s.modReed r (fun x => { x with matq := x.matq.map (fun o => if o.op = op then f o else o) })

/-- Once its operand may be read, the matrix engine asks the banks (R110): 128 bytes at a time, of which the model arbitrates the first
(entry 135). -/
def State.matBanks (s : State) (r : Nat) (o : MatOp) : BankTry :=
  let priv := match o.kind with | .mres _ p _ _ _ => p | .mmac _ p _ _ _ _ _ _ _ => p | .mcfg _ _ _ p => p | _ => true
  if o.reads.2 = 0 ∨ (priv = false ∧ (s.notTag (.spad r) o.reads.1 o.reads.2 .full).isSome = true) then .granted s
  else s.bankAsk (.spad r) (256 * o.reads.1) 128 3

/-- Makes the effects of the queued matrix instructions in program order, as far as their operands are ready (R149); an instruction whose tile
is being read again holds what follows it (R133). -/
def State.runMats (s : State) (r : Nat) : List MatOp → State
  | [] => s
  | o :: t =>
    if o.done then s.runMats r t
    else if o.reread then s
    else match s.matBanks r o with
      | .lost u => u
      | .granted v => match v.tryMat r o.op o.kind with
      | .notReady => s
      | .crc => (v.markMat r o.op (fun o => { o with reread := true })).modReed r (fun x => { x with correcting := true })
      | .fault c _ => v.reedFault r c 0 []
      | .done u => (u.markMat r o.op (fun o => { o with done := true, reread := false })).runMats r t

/-- Makes what effects are ready. -/
def State.matrixRun (s : State) (r : Nat) : State := s.runMats r (s.reed r).matq

/-- Enters a matrix instruction into the engine's queue of four (R149), with FILL of the handle that names its operand (R104). A fifth waits:
what the reed counts is decided in each cycle by what the engine does (State.idleCause). -/
def State.enterMat (s : State) (r : RR) (k : MatKind) (fill : Nat := 0) : Issue :=
  let q := r.reed.val
  if 4 ≤ (s.reed q).matq.length then .wait .busy
  else
    let op := (s.reed q).nextOp
    .go (((s.addOp q .matrix 0 []).modReed q (fun x => { x with matq := x.matq ++ [{ op := op, kind := k, fill := fill }] })).matrixRun q)

/-- Is an accumulator tile held by MOUT or MSUMP (R149)? -/
def Reed.tileHeld (x : Reed) (acc : Nat) : Bool :=
  (x.accTile acc).held || x.matq.any (fun o => match o.kind with | .mout a => a == acc | .msump a _ _ _ => a == acc | _ => false)

/-- Is an accumulator tile still receiving an earlier MMAC (R149)? -/
def Reed.tileBusy (x : Reed) (acc : Nat) : Bool :=
  x.matq.any (fun o => match o.kind with
    | .mmac _ _ fa _ _ a _ tr _ => a == acc || (tr && fa.width == 4 && a + 1 == acc) | _ => false)

/-- The scratchpad operand of a matrix instruction. -/
inductive Operand where
  | ok (a : Nat) (priv : Bool)
  | fault (s : State)
  deriving DecidableEq, Repr

/-- The scratchpad operand an instruction names (R137, R439): bound first, then the alignment. -/
def State.matAddr (s : State) (r : RR) (ha : HA) (len align : Nat) : Operand :=
  let off := ((s.ctxOf r).getA ha.a.val).toNat
  match s.locate r.reed.val ha.h.val off len with
  | .at_ i (.spad _) a =>
    if off % align ≠ 0 then .fault (s.shapeFault r .descriptorShape (s.ctxOf r).pc.toNat off) else .ok a i.priv
  | _ => .fault (s.boundFault r ha.h.val off)

/-- Does a contribution of a reed wait above its group's window (R295)? Its MSUMP waits too. -/
def State.sumpWaits (s : State) (r : Nat) (op : Nat → Bool) : Bool := s.sump.any (fun h => h.2.waits.any (fun w => w.reed == r && op w.op))

/-- The cause a reed counts while an accumulator tile is held: WAIT_SUMP where its MSUMP waits for the window (R295). -/
def State.heldCause (s : State) (r : Nat) : Cause := if s.sumpWaits r (fun _ => true) then .waitSump else .busy

/-- What the engine's first instruction that has not gone through waits for (R93, R104, R133, R144, R147, R197): the cause of its first operand
slot that is not FULL, with the FILL of its handle, WAIT_CORRECTION while its tile is read again or an accumulator word is corrected,
WAIT_SUMP while the sump cannot accept its contributions; BUSY where it waits for nothing. -/
def State.tileCause (s : State) (r : Nat) : Cause :=
  let slots (sl n fill : Nat) (priv : Bool) : Cause :=
    match if priv then none else s.notTag (.spad r) sl n .full with
    | some x => s.readCause r (.spad r) x fill
    | none => if s.correctsIn (.spad r) (256 * sl) (256 * n) then .waitCorrection else .busy
  match (s.reed r).matq.find? (fun o => !o.done || s.sumpWaits r (· == o.op)) with
  | none => if (s.reed r).accCorr = 0 then .busy else .waitCorrection
  | some o =>
    if o.done then .waitSump
    else if o.reread || (s.reed r).accCorr != 0 then .waitCorrection
    else match o.kind with
      | .mmac sl priv fa _ k _ _ tr _ => slots sl (18 * operandTiles fa tr k) o.fill priv
      | .mres sl priv f k _ => slots sl (18 * operandTiles f false k) o.fill priv
      | .mcfg _ _ at_ priv => slots (at_ / 256) 1 o.fill priv
      | .msump _ g _ _ => if s.sumpAccepts r g then .busy else .waitSump
      | _ => .busy

/-- FILL of the handle an instruction names (R106). -/
def State.fillOf (s : State) (r : RR) (ha : HA) : Nat := (s.handle r.reed.val ha.h.val).fill

/-- MRES (R90, R139): enters the load of the next resident bank. -/
def execMres (r : RR) (ha : HA) (f : Fmt) (kblk : Nat) (s : State) : Host.Outcome State Fault Refusal :=
  .next (s.issue r (.mres r ha f kblk) [] (fun t => match t.matAddr r ha (4608 * operandTiles f false kblk) 256 with
    | .fault u => .fault u
    | .ok a priv =>
      let bank := (t.reed r.reed.val).nextBank
      match t.enterMat r (.mres (a / 256) priv f kblk bank) (t.fillOf r ha) with
      | .go u => .go (u.modReed r.reed.val (fun x => { x with nextBank := 1 - bank, curBank := some bank }))
      | o => o))

/-- MMAC (R90, R140): enters a streamed operand against the bank of the latest MRES. -/
def execMmac (r : RR) (ha : HA) (acc : Fin 4) (fa fb : Fmt) (kblk : Nat) (clear trans : Bool) (s : State) :
    Host.Outcome State Fault Refusal :=
  .next (s.issue r (.mmac r ha acc fa fb kblk clear trans) [] (fun t => match t.matAddr r ha (4608 * operandTiles fa trans kblk) 256 with
    | .fault u => .fault u
    | .ok a priv =>
      let x := t.reed r.reed.val
      if x.tileHeld acc.val || (trans && fa.width == 4 && x.tileHeld (acc.val + 1)) then .wait (t.heldCause r.reed.val)
      else t.enterMat r (.mmac (a / 256) priv fa fb kblk acc.val clear trans x.curBank) (t.fillOf r ha)))

/-- MOUT (R147): hands the tile to the queue of finished tiles when it is usable. -/
def execMout (r : RR) (acc : Fin 4) (s : State) : Host.Outcome State Fault Refusal :=
  .next (s.issue r (.mout r acc) [] (fun t => if (t.reed r.reed.val).tileHeld acc.val then .wait (t.heldCause r.reed.val) else t.enterMat r (.mout acc.val)))

/-- MSUMP (R147, R439): sends the tile to the sump, whose result returns to the landing address. -/
def execMsump (r : RR) (ha : HA) (acc : Fin 4) (group : Fin 16) (s : State) : Host.Outcome State Fault Refusal :=
  .next (s.issue r (.msump r ha acc group) [] (fun t =>
    let off := ((t.ctxOf r).getA ha.a.val).toNat
    match t.locate r.reed.val ha.h.val off (4 * 4608) with
    | .bound => .fault (t.boundFault r ha.h.val off)
    | .at_ _ sp a =>
      if off % 256 ≠ 0 then .fault (t.shapeFault r .descriptorShape (t.ctxOf r).pc.toNat off)
      else if (t.reed r.reed.val).tileHeld acc.val then .wait (t.heldCause r.reed.val)
      else if !t.sumpAccepts r.reed.val group.val then .wait .waitSump
      else t.enterMat r (.msump acc.val group.val sp (a / 256))))

/-- MCLR (R140, R149): zeroes the tile; waits while it is held or still receiving. -/
def execMclr (r : RR) (acc : Fin 4) (s : State) : Host.Outcome State Fault Refusal :=
  .next (s.issue r (.mclr r acc) [] (fun t =>
    let x := t.reed r.reed.val
    if x.tileHeld acc.val || x.tileBusy acc.val then .wait (t.heldCause r.reed.val) else t.enterMat r (.mclr acc.val)))

/-- MCFG (R143, R149, R439): sets the threshold and loads the output descriptor. -/
def execMcfg (r : RR) (ha : HA) (acc : Fin 4) (thresh : BitVec 24) (s : State) : Host.Outcome State Fault Refusal :=
  .next (s.issue r (.mcfg r ha acc thresh) [] (fun t => match t.matAddr r ha 64 64 with
    | .fault u => .fault u
    | .ok a priv =>
      let x := t.reed r.reed.val
      if x.tileHeld acc.val || x.tileBusy acc.val then .wait (t.heldCause r.reed.val)
      else t.enterMat r (.mcfg acc.val thresh a priv) (t.fillOf r ha)))

/-- OPERATION_COMPLETE (R88, R149): a vector operation's result is written; a matrix operation whose effect is made leaves
the engine, an MSUMP releasing its tile; a store completes by its acknowledgements (R104), a MOUT by its last piece. -/
def execOperationComplete (reed : Fin 6144) (op : Nat) (s : State) : Host.Outcome State Fault Refusal :=
  let r := reed.val
  let s := s.matrixRun r
  let x := s.reed r
  match x.ops.find? (fun o => o.id == op) with
  | none => .next s
  | some o => match o.kind with
    | .vector => .next (s.modReed r (fun x => x.finishOp op))
    | .store => .next (if o.acks = 0 then s.modReed r (fun x => x.finishOp op) else s)
    | .matrix => match x.matq with
      | [] => .next s
      | m :: _ =>
        if m.op ≠ op ∨ !m.done ∨ s.sumpWaits r (· == op) then .next s
        else
          let s := s.modReed r (fun x => { x with matq := x.matq.tail })
          match m.kind with
          | .mout _ => .next s
          | .msump acc _ _ _ => .next ((s.modAcc r acc (fun a => { a with held := false })).modReed r (fun x => x.finishOp op))
          | _ => .next (s.modReed r (fun x => x.finishOp op))

/-- The re-read of an operand tile at the matrix engine ends (R133): the tiles are checked again; a match is logged as
transient and the instruction proceeds, a second failure faults the section. -/
def State.matReread (s : State) (r : Nat) : State :=
  match (s.reed r).matq.find? (fun o => !o.done) with
  | none => s
  | some o =>
    match s.tryMat r o.op o.kind with
    | .notReady => s
    | .crc =>
      let h := match o.kind with
        | .mres sl _ f k _ => ((tilesOf (operandTiles f false k) ((s.reed r).spad.read (256 * sl) (4608 * operandTiles f false k))).find?
            (fun t => tileCrc t != (TileHdr.ofTile t).crc)).map TileHdr.ofTile
        | .mmac sl _ f _ k _ _ tr _ => ((tilesOf (operandTiles f tr k) ((s.reed r).spad.read (256 * sl) (4608 * operandTiles f tr k))).find?
            (fun t => tileCrc t != (TileHdr.ofTile t).crc)).map TileHdr.ofTile
        | _ => none
      let h := h.getD {}
      s.reedFault r .tileCrc 0 [(16, r), (32, h.tensor.toNat), (32, h.row.toNat), (32, h.col.toNat)]
    | _ => ((s.logEvent 0 0x0101 (s.tus1 (tusOf r)).owner (reedUnit r) 0 [(16, r)]).modReed r (fun x =>
        { x with correcting := false, matq := x.matq.map (fun m => if m.op = o.op then { m with reread := false } else m) })).matrixRun r

end Sys2Proof.Machine
end

