-- ==== Sys2Proof/Machine/ProgWord.lean ====
section
/-! DEFINITION. The check of program words at PREPARE (R79, R82 to R84, R86, R89 to R91, R100, R136 to R138, R179 to R197,
R440): which words hold a reserved encoding. -/
namespace Sys2Proof.Machine

/-! ### Formats of vector instructions (R179, R180, R184) -/

/-- Formats of the lanes that the arithmetic, compare and select instructions take. -/
def fmtArith : List Nat := [0, 1, 2, 3, 12, 13]
/-- Floating-point lane formats: FP64, FP32, BF16, FP16. -/
def fmtFloat : List Nat := [0, 1, 2, 3]
/-- Narrow formats of VPACK and VUNPK: codes 0x4 to 0xA. -/
def fmtNarrow : List Nat := [4, 5, 6, 7, 8, 9, 10]
/-- Is a register named for FP64 even (R180)? -/
def pairOk (f : Nat) (n : Nat) : Bool := f != 0 || n % 2 == 0
/-- RND: 3 is reserved, 1 is refused on an integer or FP64 target (R184), and a field that rounds nothing is zero. -/
def rndOk (w : Nat) (rounds : Bool) (target : Nat) : Bool :=
  wRnd w != 3 && (rounds || wRnd w == 0) && !(wRnd w == 1 && (target == 0 || target == 12 || target == 13))
    && (wRnd w == 1 || wSr w == 0)
/-- A vector instruction of V operands: class V throughout, unused fields zero. -/
def vRegs (w nsrc : Nat) : Bool :=
  isReg [2] (wDst w) && isReg [2] (wS1 w) && (if 2 ≤ nsrc then isReg [2] (wS2 w) else wS2 w == 0)
    && (if 3 ≤ nsrc then isReg [2] (wS3 w) else wS3 w == 0) && bits w 7 0 == 0
    && pairOk (wFmt w) (wDst w) && pairOk (wFmt w) (wS1 w) && (nsrc < 2 || pairOk (wFmt w) (wS2 w)) && (nsrc < 3 || pairOk (wFmt w) (wS3 w))
/-- Arithmetic over formats, with rounding where it rounds. -/
def vArith (w nsrc : Nat) (fs : List Nat) (rounds : Bool) : Bool :=
  vRegs w nsrc && fs.contains (wFmt w) && rndOk w rounds (wFmt w) && wMon w == 0
/-- The fields that a scalar instruction leaves: FMT as given, RND, SR and RSVD zero. -/
def sRest (w fmt : Nat) : Bool := bits w 23 0 == fmt * 2 ^ 20
/-- A scalar instruction of R440. -/
def sOp (w nsrc : Nat) : Bool :=
  isReg [0] (wDst w) && isReg [0, 7] (wS1 w) && isReg [0, 7] (wS2 w) && (if 3 ≤ nsrc then isReg [0, 7] (wS3 w) else wS3 w == 0)
/-- FMT_A and FMT_B of a matrix instruction: a matrix format (R135). -/
def matFmt (c : Nat) : Option Fmt := match Fmt.ofCode c with | some f => (if f.tBlk.isSome then some f else none) | none => none
/-- Is a matrix format an integer one (R136)? -/
def matInt (f : Fmt) : Bool := f == .int8 || f == .int4
/-- K-blocks that a resident bank holds (R138). -/
def residentCap (f : Fmt) : Nat := match f.width with | 4 => 32 | 16 => 8 | _ => 16

/-! ### One instruction (R89, R90) -/

/-- Is the word of a body instruction encoded as R89 and R90 allow? -/
def instrOk (w : Nat) : Bool :=
  let op := bits w 63 56
  let iRest := bits w 39 32 == 0
  let iNone := wDst w == 0 && wS1 w == 0 && iRest
  let mRest := bits w 21 20 == 0 && bits w 15 0 == 0
  let slots := bits w 35 24
  if op = 0x00 then iNone && bits w 31 0 == 0
  else if op = 0x01 then isReg [3] (wDst w) && decide (1 ≤ bits w 23 12) && decide (bits w 23 12 ≤ 2044) && bits w 11 0 == 0
  else if op = 0x02 ∨ op = 0x03 then iNone && bits w 31 0 == 0
  else if op = 0x05 then wDst w == 0xC0 && wS1 w == 0 && iRest && decide (1 ≤ bits w 31 0) && decide (bits w 31 0 ≤ 128)
  else if op = 0x06 then iNone && bits w 31 16 == 0
  else if op = 0x07 then
    let o := bits w 31 0
    let o8 := o / 8 * 8
    let r64 := o8 == 0 || o8 == 8 || o8 == 0x28 || (decide (0x40 ≤ o8) && decide (o8 ≤ 0xB8)) || (decide (0x100 ≤ o8) && decide (o8 ≤ 0x178))
      || o8 == 0x180 || o8 == 0x188
    let r32 := o == 0x10 || o == 0x18 || o == 0x20
    isReg [0] (wDst w) && wS1 w == 0 && iRest && (r32 || (r64 && o % 4 == 0))
  else if op = 0x08 then wDst w == 0 && isReg [0, 7] (wS1 w) && iRest && bits w 31 0 == 0x20
  else if 0x10 ≤ op ∧ op ≤ 0x17 then sOp w 2 && sRest w 0
  else if op = 0x18 then isReg [0] (wDst w) && wS1 w == 0 && iRest
  else if op = 0x19 then sOp w 3 && sRest w 0
  else if op = 0x1A then sOp w 2 && decide (wFmt w ≤ 3) && sRest w (wFmt w)
  else if op = 0x1B then isReg [0, 1, 6] (wDst w) && isReg [0, 1, 3, 6, 8] (wS1 w) && wS2 w == 0 && wS3 w == 0 && sRest w 0
  else if op = 0x1C then isReg [1] (wDst w) && isReg [1, 7] (wS1 w) && iRest
  else if op = 0x1D then isReg [1] (wDst w) && isReg [3] (wS1 w) && isReg [1] (wS2 w) && wS3 w == 0 && sRest w 0
  else if op = 0x20 then isReg [2] (wDst w) && isReg [4] (wS1 w) && wS2 w == 0 && bits w 30 0 == 0
  else if op = 0x21 then isReg [2] (wDst w) && isReg [4] (wS1 w) && isReg [0] (wS2 w) && bits w 30 0 == 0
  else if op = 0x22 then isReg [2] (wDst w) && isReg [5] (wS1 w) && wS2 w == 0 && bits w 30 0 == 0
  else if op = 0x23 then wDst w == 0 && isReg [4] (wS1 w) && wS2 w == 0 && bits w 31 0 == 0
  else if op = 0x24 then wDst w == 0 && isReg [4] (wS1 w) && wS2 w == 0 && bits w 31 30 == 0 && bits w 19 0 == 0
  else if op = 0x25 then wDst w == 0 && isReg [5] (wS1 w) && wS2 w == 0 && bits w 31 30 == 0 && bits w 19 0 == 0
  else if 0x26 ≤ op ∧ op ≤ 0x28 then decide (1 ≤ bits w 45 34) && bits w 33 0 == 0
  else if op = 0x29 then isReg [0] (wDst w) && bits w 47 0 == 0
  else if 0x30 ≤ op ∧ op ≤ 0x32 then
    decide (1 ≤ slots) && decide (bits w 23 20 ≤ 2) && (bits w 23 20 == 1 || bits w 19 16 == 0) && bits w 15 0 == 0
  else if op = 0x40 then match matFmt (bits w 43 40) with
    | some f => bits w 45 44 == 0 && bits w 39 36 == 0 && bits w 23 22 == 0 && bits w 19 16 == 0 && mRest
        && decide (1 ≤ slots) && slots % f.kPerTile false == 0 && decide (slots ≤ residentCap f)
    | none => false
  else if op = 0x41 then match matFmt (bits w 43 40), matFmt (bits w 39 36) with
    | some fa, some fb =>
      let tr := bit w 22
      mRest && bits w 19 16 == 0 && matInt fa == matInt fb && !(tr && fa.width == 16) && decide (1 ≤ slots)
        && !(tr && fa.width == 4 && bits w 44 44 == 1) && decide (0 < fa.kPerTile tr) && slots % fa.kPerTile tr == 0
    | _, _ => false
  else if op = 0x42 ∨ op = 0x44 then bits w 55 46 == 0 && bits w 43 0 == 0
  else if op = 0x43 then bits w 43 20 == 0 && bits w 15 0 == 0
  else if op = 0x45 then bits w 43 24 == 0
  else if 0x50 ≤ op ∧ op ≤ 0x52 then vArith w 2 fmtArith (decide (wFmt w ≤ 3))
  else if op = 0x53 then vArith w 3 fmtFloat true
  else if op = 0x54 then vArith w 2 fmtFloat true
  else if op = 0x55 then vArith w 1 fmtFloat true
  else if op = 0x56 ∨ op = 0x57 then vArith w 2 fmtArith false
  else if op = 0x58 then
    let src := wS2 w
    isReg [2] (wDst w) && isReg [2] (wS1 w) && fmtArith.contains (wFmt w) && fmtArith.contains src && src != wFmt w && wS3 w == 0
      && pairOk (wFmt w) (wDst w) && pairOk src (wS1 w) && rndOk w true (wFmt w) && wSr w == 0 && bits w 7 0 == 0
      && (decide (8 ≤ wMon w) || wMon w == 0)
  else if op = 0x59 then isReg [2] (wDst w) && isReg [2] (wS1 w) && isReg [2] (wS2 w) && decide (wS3 w ≤ 3) && fmtArith.contains (wFmt w)
      && pairOk (wFmt w) (wDst w) && pairOk (wFmt w) (wS1 w) && pairOk (wFmt w) (wS2 w) && rndOk w false 0 && bits w 11 0 == 0
  else if op = 0x5A then isReg [2] (wDst w) && isReg [2] (wS1 w) && isReg [2] (wS2 w) && isReg [2] (wS3 w)
      && [0, 1, 2, 3, 4, 5, 9, 12, 13].contains (wFmt w) && pairOk (wFmt w) (wDst w) && pairOk (wFmt w) (wS1 w)
      && pairOk (wFmt w) (wS2 w) && pairOk (wFmt w) (wS3 w) && rndOk w false 0 && bits w 11 0 == 0
  else if op = 0x5B then isReg [2] (wDst w) && isReg [0] (wS1 w) && wS2 w == 0 && wS3 w == 0 && [1, 2, 3, 12, 13].contains (wFmt w)
      && rndOk w false 0 && bits w 11 0 == 0
  else if op = 0x5C then isReg [0] (wDst w) && isReg [2] (wS1 w) && decide (wS2 w ≤ 2) && wS3 w == 0 && [1, 2, 3].contains (wFmt w)
      && rndOk w false 1 && bits w 7 0 == 0 && (decide (8 ≤ wMon w) || wMon w == 0)
  else if op = 0x5D then isReg [2] (wDst w) && isReg [2] (wS1 w) && decide (wS2 w ≤ 2) && wS3 w == 0 && [1, 2, 3].contains (wFmt w)
      && rndOk w false 0 && bits w 7 0 == 0 && (wMon w == 0 || (decide (8 ≤ wMon w) && wS2 w == 1))
  else if op = 0x5E then isReg [2] (wDst w) && isReg [0] (wS1 w) && isReg [0] (wS2 w) && isReg [0] (wS3 w) && wFmt w == 1
      && rndOk w false 0 && bits w 11 0 == 0
  else if 0x60 ≤ op ∧ op ≤ 0x64 then vRegs w 1 && wFmt w == 1 && rndOk w false 0 && wMon w == 0
  else if op = 0x65 then
    let k := wS3 w % 4
    wFmt w == 1 && rndOk w false 0 && bits w 11 0 == 0 && decide (wS3 w < 32)
      && (if k = 2 then isReg [0] (wDst w) && wS1 w == 0 && isReg [2] (wS2 w)
          else isReg [2] (wDst w) && (if k = 0 then wS1 w == 0 else isReg [2] (wS1 w)) && (if k = 3 then isReg [2] (wS2 w) else wS2 w == 0))
  else if op = 0x66 then vRegs w 2 && [1, 2, 3, 4, 5, 9, 12, 13].contains (wFmt w) && rndOk w false 0 && wMon w == 0
  else if op = 0x67 then isReg [2] (wDst w) && isReg [2] (wS1 w) && isReg [2] (wS2 w) && isReg [0] (wS3 w)
      && [1, 2, 3, 4, 5, 9, 12, 13].contains (wFmt w) && rndOk w false 0 && bits w 11 0 == 0
  else if op = 0x68 then isReg [2] (wDst w) && isReg [2] (wS1 w) && wS1 w % 4 == 0 && wS2 w == 0 && isReg [0] (wS3 w)
      && fmtNarrow.contains (wFmt w) && wRnd w != 3 && !(wRnd w == 1 && (wFmt w == 9 || wFmt w == 10)) && wSr w == 0 && bits w 7 0 == 0 && (decide (8 ≤ wMon w) || wMon w == 0)
  else if op = 0x69 then isReg [2] (wDst w) && wDst w % 4 == 0 && isReg [2] (wS1 w) && wS2 w == 0 && isReg [0] (wS3 w)
      && fmtNarrow.contains (wFmt w) && rndOk w false 0 && bits w 11 0 == 0
  else if op = 0x6A then isReg [2] (wDst w) && bits w 36 32 == 0
  else if op = 0x6B then isReg [2] (wDst w) && bits w 37 32 == 0
  else if op = 0x6C then isReg [0, 2] (wDst w) && bits w 47 0 == 0
  else false

/-- Is a word a guard as R86 and R89 allow? -/
def guardOk (w : Nat) : Bool :=
  let op := bits w 63 56
  if op = 0xF2 then isReg [4] (wDst w) && decide (1 ≤ bits w 47 40) && decide (bits w 47 40 ≤ 32) && bits w 39 0 == 0
  else if op = 0xF3 then isReg [5] (wDst w) && decide (1 ≤ bits w 47 40) && decide (bits w 47 40 ≤ 32) && bits w 39 0 == 0
  else if op = 0xF4 ∨ op = 0xF5 then decide (1 ≤ bits w 45 34) && bits w 33 0 == 0
  else false

/-! ### Loops and blocks (R83, R90, R91) -/

/-- Do the loops of a body nest: each inside its enclosing body, at most eight deep, no counter twice? The stack holds the
ends and counters of the open loops, innermost first. The answer is the index of the first word at fault. -/
def loopsBad (i : Nat) (open_ : List (Nat × Nat)) : List Nat → Option Nat
  | [] => none
  | w :: t =>
    let st := open_.filter (fun e => decide (i < e.1))
    if bits w 63 56 = 0x01 then
      let stop := i + 1 + bits w 23 12
      let c := wDst w
      let outer := match st with | e :: _ => e.1 | [] => i + 1 + t.length
      if outer < stop ∨ 8 ≤ st.length ∨ st.any (fun e => e.2 == c) then some i else loopsBad (i + 1) ((stop, c) :: st) t
    else loopsBad (i + 1) st t

/-- The first word at fault in a straight run of body instructions from index i. -/
def bodyBad (i : Nat) (ws : List Nat) : Option Nat :=
  match (ws.findIdx? (fun w => !instrOk w)), loopsBad i [] ws with
  | some k, some l => some (Nat.min (i + k) l)
  | some k, none => some (i + k)
  | none, r => r

/-- What the check of a program finds: it is well formed, or the first word at fault, or it is too long. -/
inductive ProgCheck where
  | ok
  | bad (i : Nat)
  | tooLong
  deriving DecidableEq, Repr

/-- What an END word and the words after it break (R83): its own reserved bits, or the first word after it. -/
def endBad (i w : Nat) (rest : List Nat) : Option Nat :=
  if w ≠ 0x04 * 2 ^ 56 then some i else if rest.isEmpty then none else some (i + 1)

/-- Checks the blocks from an index on (R83, R84): fuel bounds the number of blocks. A program has one block at least. -/
def blocksBad : Nat → Nat → List Nat → Option Nat
  | 0, i, _ => some i
  | n + 1, i, ws =>
    match ws with
    | [] => some i
    | w :: t =>
      if bits w 63 56 = 0x04 then (if i = 0 then some 0 else endBad i w t)
      else if bits w 63 56 ≠ 0xF0 ∨ bits w 5 0 ≠ 0 ∨ bits w 47 24 = 0 ∨ bits w 23 12 = 0 ∨ 2044 < bits w 23 12 then some i
      else match t with
        | [] => some (i + 1)
        | f :: r =>
          let g := bits w 11 6
          let b := bits w 23 12
          if bits f 63 56 ≠ 0xF1 then some (i + 1)
          else if r.length < g + b + 1 then some (i + 2 + r.length)
          else match (r.take g).findIdx? (fun x => !guardOk x) with
            | some k => some (i + 2 + k)
            | none => match bodyBad (i + 2 + g) ((r.drop g).take b) with
              | some k => some k
              | none => blocksBad n (i + 2 + g + b) (r.drop (g + b))

/-- Does an instruction name a vector register above V7, which no context has (R100; entry 141)? -/
def highV (w : Nat) : Bool :=
  let op := bits w 63 56
  let high := fun (n : Nat) => isReg [2] n && decide (8 ≤ n % 32)
  (decide (0x20 ≤ op) && decide (op ≤ 0x22) && high (wDst w)) || (decide (0x50 ≤ op) && decide (op ≤ 0x69) && [wDst w, wS1 w, wS2 w, wS3 w].any high)
    || (decide (0x6A ≤ op) && decide (op ≤ 0x6C) && high (wDst w))

/-- The words of a template that fill a context's quarter beyond its END: where another context follows, zeros (entry 142). -/
def padding (last : Bool) (ws : List Nat) : List Nat := if last then ws else ws.dropWhile (· == 0)

/-- Checks one context's program of a threaded reed (R83, R91, R100): straight code to END, no headers or guards; V0 to V7; matrix
instructions in context 0 alone; nothing after END. -/
def contextBad (k : Nat) (last : Bool) (ws : List Nat) : Option Nat :=
  match ws.findIdx? (fun w => bits w 63 56 == 0x04) with
  | none => some (512 * k + ws.length)
  | some e =>
    let body := ws.take e
    let bad := fun (w : Nat) => highV w || (k != 0 && decide (0x40 ≤ bits w 63 56) && decide (bits w 63 56 ≤ 0x45))
    match bodyBad (512 * k) body, (body.findIdx? bad).map (512 * k + ·) with
    | some i, some j => some (Nat.min i j)
    | some i, none => some i
    | none, some j => some j
    | none, none => endBad (512 * k + e) (ws.getD e 0) (padding last (ws.drop (e + 1)))

/-- The check of a reed's program at PREPARE (R83, R91, R100). -/
def checkProg (g : ReedProg) : ProgCheck :=
  let ws := g.words.map (·.toNat)
  if 2048 < ws.length then .tooLong
  else if 4 < g.threads then .bad 0
  else if g.threads = 0 then (match blocksBad 2048 0 ws with | some i => .bad i | none => .ok)
  else match (List.range g.threads).filterMap (fun k => contextBad k (k + 1 == g.threads) ((ws.drop (512 * k)).take (if k + 1 = g.threads then 2048 else 512))) with
    | i :: _ => .bad i
    | [] => .ok

/-! ### What a program does per step -/

/-- The blocks of a program: index of the FIRE word, COUNT, SLACK, NOM_BASE, NOM_PERIOD, guards, body. -/
structure Block where
  at_ : Nat
  count : Nat
  slack : Nat
  base : Nat
  period : Nat
  guards : List Nat
  body : List Nat
  deriving DecidableEq, Repr

/-- The blocks of a checked program. -/
def blocksOf : Nat → Nat → List Nat → List Block
  | 0, _, _ => []
  | n + 1, i, ws =>
    match ws with
    | w :: f :: r =>
      if bits w 63 56 ≠ 0xF0 then []
      else
        let g := bits w 11 6
        let b := bits w 23 12
        let blk : Block := { at_ := i, count := bits w 47 24, slack := bits w 55 48, base := bits f 55 24, period := bits f 23 0,
                             guards := r.take g, body := (r.drop g).take b }
        blk :: blocksOf n (i + 2 + g + b) (r.drop (g + b))
    | _ => []

/-- The blocks of a reed's program; a threaded one has none. -/
def ReedProg.blocks (g : ReedProg) : List Block := if g.threads = 0 then blocksOf 2048 0 (g.words.map (·.toNat)) else []
/-- The outermost LOOPs of a context's code, each with its bound and its body; fuel bounds their number. -/
def outerLoops : Nat → List Nat → List (Nat × List Nat)
  | 0, _ => []
  | _, [] => []
  | n + 1, w :: t =>
    if bits w 63 56 = 0x01 then (bits w 47 24, t.take (bits w 23 12)) :: outerLoops n (t.drop (bits w 23 12)) else outerLoops n t
/-- What a program fires per step, each with its count and body (R62): the blocks, and of a threaded program the outermost LOOPs of its
contexts, an iteration of which is a firing (R101). -/
def ReedProg.fires (g : ReedProg) : List (Nat × List Nat) :=
  if g.threads = 0 then g.blocks.map (fun b => (b.count, b.guards ++ b.body))
  else (List.range g.threads).flatMap (fun k =>
    outerLoops 512 (((g.words.map (·.toNat)).drop (512 * k)).take 512 |>.takeWhile (fun w => bits w 63 56 != 0x04)))
/-- Does an instruction or guard take tokens of an input queue? -/
def takesQueue (q w : Nat) : Bool :=
  let op := bits w 63 56
  (op == 0xF2 && bits w 50 48 == q) || ([0x20, 0x21, 0x23, 0x24].contains op && bits w 42 40 == q)
/-- Does an instruction or guard use space of an output queue? -/
def givesQueue (q w : Nat) : Bool :=
  let op := bits w 63 56
  (op == 0xF3 && bits w 50 48 == q) || ([0x22, 0x25].contains op && bits w 42 40 == q)
/-- Firings per step of the blocks, or of the threaded firings, that a test of a word picks. -/
def ReedProg.firingsBy (g : ReedProg) (uses : Nat → Bool) : Nat := sumOf ((g.fires.filter (fun f => f.2.any uses)).map (·.1))
/-- Every instruction of a program with its index. -/
def ReedProg.instrs (g : ReedProg) : List (Nat × Nat) :=
  if g.threads = 0 then g.blocks.flatMap (fun b => (upto (b.at_ + 2 + b.guards.length) b.body.length).zip b.body)
  else (upto 0 g.words.length).zip (g.words.map (·.toNat))

/-- The handles that an instruction names as a source and as a destination of a write. -/
def instrHandles (w : Nat) : List Nat × List Nat :=
  let op := bits w 63 56
  if 0x30 ≤ op ∧ op ≤ 0x32 then ([bits w 55 50], [bits w 49 44])
  else if op = 0x24 then ([], [bits w 29 24])
  else if op = 0x25 then ([bits w 29 24], [])
  else if 0x26 ≤ op ∧ op ≤ 0x28 then ([bits w 55 50], [])
  else if op = 0x40 ∨ op = 0x41 ∨ op = 0x45 then ([bits w 55 50], [])
  else if op = 0x43 then ([], [bits w 55 50])
  else if op = 0x6A then ([bits w 47 42], [])
  else if op = 0x6B then ([], [bits w 47 42])
  else ([], [])

end Sys2Proof.Machine
end

