-- ==== Sys2Proof/Machine/Chooser.lean ====
section
/-! DEFINITION. The tile chooser (R200 to R214): candidates, scratchpad plans, cost, and the choice record. -/
namespace Sys2Proof.Machine

/-- The rate of a tier that an operand is fetched from (R211): a key by which bytes of one tier add up, and the rate as a
fraction in bytes per reed cycle. -/
structure TierRate where
  key : Nat
  num : Nat
  den : Nat
  deriving DecidableEq, Repr

/-- What the chooser makes of one MATOP record: a choice, or a load status (R68) with OP_ID. -/
inductive Chosen where
  | choice (c : Choice) (nest : List NestRun)
  | refuse (code : Nat)
  deriving DecidableEq, Repr

/-- The dimensions of an operation with one operand resident (R203, R205). -/
structure Dims where
  /-- Tiles of 64 columns along the resident operand, units of 64w rows along the streamed one, K-blocks. -/
  nt : Nat
  mu : Nat
  kb : Nat
  w : Nat
  /-- K-blocks per tile of the resident operand, formats, orientation of the streamed one, products under BATCH. -/
  kpt : Nat
  res : Fmt
  str : Fmt
  trans : Bool
  batch : Nat
  deriving DecidableEq, Repr

/-- One candidate with its plan and cost. -/
structure Cand where
  resident : Nat
  order : Nat
  g : Nat
  chains : List Nat
  flags : Nat
  spad : Nat
  e : Nat
  mres : Nat
  bytes : Nat
  bound : Nat
  deriving DecidableEq, Repr

/-- KiB of a number of tiles, rounded up (R209). -/
def kib (tiles : Nat) : Nat := ceilDiv (tiles * 4608) 1024

/-- The chains along K (R206), in K-blocks; none where PIN_KBLK breaks its rule. -/
def chainsOf (d : Dims) (pin : Nat) : Option (List Nat) :=
  let cap := residentCap d.res
  if pin = 0 then
    let c := ceilDiv d.kb cap
    let u := d.kb / d.kpt
    if c = 0 then some [] else
      let q := u / c
      let r := u % c
      some ((List.range c).map (fun i => (if i < r then q + 1 else q) * d.kpt))
  else if pin % d.kpt ≠ 0 ∨ cap < pin then none
  else some ((List.range (ceilDiv d.kb pin)).map (fun i => Nat.min pin (d.kb - i * pin)))

/-- The T_BLK of an operation: that of the slower class (R135, R136). -/
def tBlkOf (a b : Fmt) : Nat := Nat.max (a.tBlk.getD 0) (b.tBlk.getD 0)

/-- The sizes of the groups of units (R207): the last holds the remainder. -/
def groupsOf' (mu g : Nat) : List Nat := (List.range (ceilDiv mu g)).map (fun i => Nat.min g (mu - i * g))

/-- The chains with the K-block each starts at. -/
def chainStarts (k : Nat) : List Nat → List (Nat × Nat)
  | [] => []
  | c :: t => (k, c) :: chainStarts (k + c) t

/-- The loop nest of an order (R207): groups in ascending unit order, the last with the remainder; repeated for each item under BATCH. -/
def nest (d : Dims) (order g : Nat) (chains : List Nat) : List NestRun :=
  let run := fun (item n m units : Nat) (c : Nat × Nat) =>
    ({ item := item, n := n, k := c.1, kblk := c.2, m := m, units := units, clear := c.1 == 0 } : NestRun)
  let cs := chainStarts 0 chains
  let groups := (List.range (ceilDiv d.mu g)).zip (groupsOf' d.mu g)
  (List.range d.batch).flatMap (fun item =>
    if order = 0 then (List.range d.nt).flatMap (fun n => (cs.take 1).map (run item n 0 d.mu))
    else if order = 1 then (List.range d.nt).flatMap (fun n => groups.flatMap (fun u => cs.map (run item n (u.1 * g) u.2)))
    else groups.flatMap (fun u => (List.range d.nt).flatMap (fun n => cs.map (run item n (u.1 * g) u.2))))

/-- The accumulator tiles that the output tiles of a nest take (R207, R208), by unit of a run: tiles 0 to A_avail − 1 in rotation from tile 0, in
steps of w; every run of a first chain takes the next ones, and a later chain of the same group those of the first. -/
def nestTiles (avail w : Nat) : Nat → List NestRun → List NestRun
  | _, [] => []
  | next, r :: t =>
    let from_ := if r.clear then next else next - r.units
    { r with tiles := (List.range r.units).map (fun i => (from_ + i) % (avail / w) * w) } :: nestTiles avail w (from_ + r.units) t

/-- The MRES instructions of a nest, in order: their tiles, and the MMAC cycles of the run that follows each (R207, R210). -/
def nestRuns (d : Dims) (order g : Nat) (chains : List Nat) (tblk : Nat) : List (Nat × Nat) :=
  (nest d order g chains).map (fun r => (r.kblk / d.kpt, r.units * r.kblk * tblk * d.w))

/-- T_res (R210): what each MRES after the first exposes beyond the run before it. -/
def tRes : List (Nat × Nat) → Nat
  | a :: b :: t => (36 * b.1 + 4 - a.2) + tRes (b :: t)
  | _ => 0

/-- The fetch time (R210): bytes per tier over its rate, summed over tiers; bytes of one tier add up. -/
def fetchTime (fs : List (Option TierRate × Nat)) : Nat :=
  let known := fs.filterMap (fun f => f.1.map (fun r => (r, f.2)))
  let keys := (known.map (fun f => f.1.key)).eraseDups
  sumOf (keys.map (fun k =>
    let l := known.filter (fun f => f.1.key == k)
    match l with | (r, _) :: _ => ceilDiv (sumOf (l.map (·.2)) * r.den) r.num | [] => 0))

/-- A candidate's plan and cost (R209, R210); none where its minimum plan does not fit. -/
def candidate (m : Matop) (d : Dims) (resident order g : Nat) (chains : List Nat) (spadKib : Nat)
    (rateRes rateStr : Option TierRate) : Option Cand :=
  let free := spadKib - m.spadFixed
  let kMax := maxOf chains
  let strTiles := fun (k : Nat) => operandTiles d.str d.trans k
  let resBuf := kib (kMax / d.kpt)
  let strBuf := kib (strTiles kMax)
  if free < 2 * resBuf + 2 * strBuf then none
  else
    let resWhole := kib (d.kb / d.kpt)
    let strWhole := kib (g * sumOf (chains.map strTiles))
    let hasRes := order != 2 && decide (resWhole + 2 * strBuf ≤ free)
    let hasStr := order == 2 && decide (strWhole + 2 * resBuf ≤ free)
    let base := if hasRes then resWhole + 2 * strBuf else if hasStr then strWhole + 2 * resBuf else 2 * resBuf + 2 * strBuf
    let extra := if hasStr then resBuf else strBuf
    let more := if extra = 0 then 0 else Nat.min 2 ((free - base) / extra)
    let tblk := tBlkOf d.res d.str
    let runs := nestRuns d order g chains tblk
    let tiles := d.nt * d.mu * d.w * d.batch
    let strAll := d.mu * sumOf (chains.map strTiles) * 4608
    let resAll := (d.kb / d.kpt) * 4608
    let strBytes := d.batch * (if order = 2 ∧ hasStr then strAll else strAll * d.nt)
    let resBytes := if hasRes then d.batch * d.nt * resAll else sumOf (runs.map (fun r => r.1 * 4608))
    let sump := bit m.flags 1
    let h := if sump then 0 else 128 * m.vecC
    let tEng := tiles * d.kb * tblk + (if sump then 144 * tiles else 0)
    let tVec := if sump then 0 else tiles * 128 * m.vecC
    let avail := 4 - m.accHeld
    let boundaries := if order = 0 then tiles - 1 else (groupsOf' d.mu g).length * d.nt * d.batch - 1
    let tight := if order = 0 then avail == d.w else d.w * g == avail
    let tAcc := if tight then boundaries * (h + 24 - (g - 1) * chains.getLastD 0 * tblk * d.w) else 0
    let eng := tEng + tRes runs + tAcc
    let fetch := fetchTime [(rateRes, resBytes), (rateStr, strBytes)]
    let top := Nat.max eng (Nat.max tVec fetch)
    let start := 36 * (match runs with | r :: _ => r.1 | [] => 0) + 40
    let flags := b2n hasRes + 2 * b2n hasStr + 8 * b2n (decide (0 < tAcc))
    let bound := if top = eng then 0 else if top = tVec then 1 else 2
    some { resident := resident, order := order, g := g, chains := chains, flags := flags, spad := m.spadFixed + base + more * extra,
           e := start + top + 24, mres := runs.length, bytes := strBytes + resBytes, bound := bound }

/-- Does candidate a rank before candidate b (R212)? -/
def Cand.before (a b : Cand) : Bool :=
  let key := fun (c : Cand) => [c.e, c.bytes, c.mres, c.resident, c.order, 4 - c.g]
  let rec lt : List Nat → List Nat → Bool
    | x :: s, y :: t => decide (x < y) || (x == y && lt s t)
    | _, _ => false
  lt (key a) (key b)
/-- The candidate the chooser keeps. -/
def bestOf : List Cand → Option Cand
  | [] => none
  | c :: t => match bestOf t with | none => some c | some b => if b.before c then some b else some c

/-- The dimensions with one operand resident, 1 for B and 2 for A; none where the stored orientations forbid it (R203, R205). -/
def dimsOf (m : Matop) (shape : Nat → Nat) (resident : Nat) : Option Dims := do
  let fa ← matFmt (m.fmt / 16)
  let fb ← matFmt (m.fmt % 16)
  let f := shape (m.fold % 64)
  let kind := m.fold / 64
  let me := shape m.dimM * (if kind = 1 then f else 1)
  let ne := shape m.dimN * (if kind = 2 then f else 1)
  let (r, s, rk, sk, cols, rows) := if resident = 1 then (fb, fa, bit m.flags 3, bit m.flags 2, ne, me)
    else (fa, fb, bit m.flags 2, bit m.flags 3, me, ne)
  if rk || (sk && s.width == 16) then none
  else
    let kpt := r.kPerTile false
    let w := if s.width = 4 ∧ sk then 2 else 1
    some { nt := ceilDiv cols 64, mu := ceilDiv rows (64 * w), kb := ceilDiv (ceilDiv (shape m.dimK) 32) kpt * kpt, w := w, kpt := kpt,
           res := r, str := s, trans := sk, batch := if kind = 3 then f else 1 }

/-- Is a MATOP record in range (R202)? -/
def Matop.ok (m : Matop) (shapes : Nat) : Bool :=
  decide (m.opId < 65536) && decide (m.templatePc < 2 ^ 32) && decide (m.reed ≤ 23) && decide (m.flags < 16) && decide (m.dimM < shapes) && decide (m.dimN < shapes) && decide (m.dimK < shapes)
    && decide (m.fold < 256) && (m.fold / 64 == 0 || decide (m.fold % 64 < shapes))
    && (match matFmt (m.fmt / 16), matFmt (m.fmt % 16) with | some a, some b => matInt a == matInt b | _, _ => false)
    && decide (m.vecC ≤ 255) && !(bit m.flags 1 && m.vecC != 0) && decide (m.accHeld ≤ 3) && decide (m.spadFixed ≤ 255)
    && decide (m.pinRes ≤ 2) && decide (m.pinOrder ≤ 2) && decide (m.pinG ≤ 4) && decide (m.pinKblk ≤ 255) && decide (m.aHandle ≤ 63)
    && decide (m.bHandle ≤ 63) && decide (m.outHandle ≤ 63) && m.rsvd == 0

/-- The candidates of one resident choice, or the status that refuses it. -/
def residentCands (m : Matop) (d : Dims) (resident spadKib : Nat) (rr rs : Option TierRate) : List (Option Cand) ⊕ Nat :=
  match chainsOf d m.pinKblk with
  | none => .inr 0x04
  | some chains =>
    let avail := 4 - m.accHeld
    if chains.length ≤ 1 then
      if m.pinOrder ≠ 0 ∨ m.pinG ≠ 0 then .inr 0x04
      else if avail < d.w then .inr 0x0C
      else .inl [(candidate m d resident 0 1 chains spadKib rr rs).map (fun c => { c with g := 0 })]
    else
      let gMax := Nat.min 4 (Nat.min d.mu (avail / d.w))
      if gMax = 0 ∨ gMax < m.pinG then .inr 0x0C
      else
        let orders := if m.pinOrder = 0 then [1, 2] else [m.pinOrder]
        let gs := if m.pinG = 0 then upto 1 gMax else [m.pinG]
        .inl (orders.flatMap (fun o => gs.map (fun g => candidate m d resident o g chains spadKib rr rs)))

/-- The chooser for one MATOP record (R205 to R212): count is the firings per step of the block it lies in. Where several
resident choices are refused, the lowest status counts (R68). -/
def choose (m : Matop) (shapes : List W64) (count spadKib : Nat) (rate : Nat → Option TierRate) : Chosen :=
  let shape := fun (i : Nat) => (shapes.getD i 0).toNat
  if !m.ok shapes.length then .refuse 0x04
  else
    let rs := (if bit m.flags 0 then [1, 2] else [1]).filter (fun r => m.pinRes == 0 || m.pinRes == r)
    let ds := rs.filterMap (fun r => (dimsOf m shape r).map (fun d => (r, d)))
    if ds.isEmpty then .refuse 0x04
    else
      let outs := ds.map (fun e => residentCands m e.2 e.1 spadKib (rate (if e.1 = 1 then m.bHandle else m.aHandle))
        (rate (if e.1 = 1 then m.aHandle else m.bHandle)))
      let cands := outs.flatMap (fun o => match o with | .inl l => l | .inr _ => [])
      let bad := outs.filterMap (fun o => match o with | .inr c => some c | .inl _ => none)
      match bestOf (cands.filterMap id) with
      | some c =>
        let pinned := m.pinRes != 0 || m.pinOrder != 0 || m.pinG != 0 || m.pinKblk != 0
        let d := (ds.find? (fun e => e.1 == c.resident)).map (·.2)
        let runs := match d, d.bind (fun d => chainsOf d m.pinKblk) with
          | some d, some chains => nestTiles (4 - m.accHeld) d.w 0 (nest d c.order (Nat.max 1 c.g) chains)
          | _, _ => []
        .choice { opId := m.opId, reed := m.reed, resident := c.resident, order := c.order, g := c.g, chains := c.chains.length,
                  kblk := c.chains.headD 0, flags := c.flags + 4 * b2n pinned, candidates := cands.length, spadKib := c.spad, e := c.e,
                  mresCount := c.mres * count, fetchBytes := c.bytes * count, bound := c.bound } runs
      | none => .refuse ((minOf? (bad ++ (if cands.isEmpty then [] else [0x0B]))).getD 0x04)

/-- A choice record as 32 bytes (R215). -/
def Choice.bytes (c : Choice) : List Byte :=
  leBytes 2 c.opId ++ leBytes 1 c.reed ++ leBytes 1 c.resident ++ leBytes 1 c.order ++ leBytes 1 c.g ++ leBytes 1 c.chains
    ++ leBytes 1 c.kblk ++ leBytes 1 c.flags ++ leBytes 1 c.candidates ++ leBytes 2 c.spadKib ++ leBytes 4 c.e ++ leBytes 4 c.mresCount
    ++ leBytes 8 c.fetchBytes ++ leBytes 1 c.bound ++ leBytes 3 0

end Sys2Proof.Machine
end

