-- ==== Sys2Proof/Machine/Firing.lean ====
section
/-! DEFINITION. The sequencer (R83 to R88), its guards (R86), core sampling (R53 to R55), idle causes (R50, R51, R441),
snapshots (R52), and the start of a step (R42, R78). -/
namespace Sys2Proof.Machine

/-- What a guard finds. -/
inductive Guard where
  | holds
  | unmet (c : Cause)
  | fault (c : SCause) (h off : Nat)
  deriving DecidableEq, Repr

/-- Evaluates a guard word with the execute engine's A registers as they stand (R86, R108, R112); a token or a tag change of this reed cycle
is not seen yet (R87). -/
def State.guard (s : State) (r w : Nat) : Guard :=
  let op := bits w 63 56
  let n := bits w 47 40
  let q := bits w 50 48
  if op = 0xF2 then (if n ≤ (s.inq r q).seen then .holds else .unmet (s.queueCause r q))
  else if op = 0xF3 then (if n ≤ (s.outq r q).cr then .holds else .unmet .waitOutput)
  else
    let h := bits w 55 50
    let off := (((s.reed r).context 0).getA (bits w 49 46)).toNat
    let slots := bits w 45 34
    match s.locate r h off (256 * slots) with
    | .bound => .fault .handleBound h off
    | .at_ i sp a =>
      if off % 256 ≠ 0 then .fault .descriptorShape h off
      else if op = 0xF4 then
        (match s.guardTag sp (a / 256) slots .full with | none => .holds | some k => .unmet (s.readCause r sp k i.fill))
      else (match s.guardTag sp (a / 256) slots .empty with | none => .holds | some k => .unmet (s.writeCause sp k))

/-- What the guard words of a block find together: the first fault, or the unmet cause that counts (R51, R87). -/
def State.guards (s : State) (r : Nat) : List Nat → Guard → Guard
  | [], g => g
  | w :: t, g =>
    match s.guard r w, g with
    | .fault c h o, _ => .fault c h o
    | .unmet c, .unmet d => s.guards r t (.unmet (d.first c))
    | .unmet c, _ => s.guards r t (.unmet c)
    | .holds, g => s.guards r t g

/-- What keeps the next firing of a reed from starting, in the order of R441 (R87, R88): local emergency throttle, the operations of the
previous block, a guard or its fault, and for a firing to be recorded a record that the trace ring's own tags keep waiting (R55). -/
def State.firingWait (s : State) (r : Nat) (h : FireHdr) : Guard :=
  let x := s.reed r
  if s.power.hold then .unmet .throttleLocal
  else if x.nextJ = 0 ∧ x.blockOps ≠ [] then .unmet (if x.ops.all (fun o => o.kind == .store) then s.outCause r else .busy)
  else match s.guards r ((upto (x.block + 2) h.guards).map x.word) .holds with
    | .holds => if x.ringBlocks && sampled x.csCtl x.firing.toNat then .unmet .waitOutput else .holds
    | g => g

/-- Starts the next firing (R85, R87): its index, the slack check, the core-sample record, the body, which ends at once where it holds
nothing for the execute engine. DESIGN CHOICE (entry 136): records that await their ring are not limited in number. -/
def State.startFiring (s : State) (r : Nat) (h : FireHdr) : State :=
  let x := s.reed r
  let (base, period) := x.firetAt x.block
  let late := decide (base + x.nextJ * period + h.slack < x.cycle)
  let stop := x.block + 2 + h.guards + h.body
  let x := x.modCtx 0 (fun c => { c with pc := BitVec.ofNat 11 (x.bodyPc x.block), wait := none })
  let x := if sampled x.csCtl x.firing.toNat then
      { x with samples := x.samples ++ [s.record r s.timeBase x.prior x.waitCycles x.firing.toNat] } else x
  let x := { x with j := BitVec.ofNat 32 x.nextJ, inBody := true, bodyEnd := stop, started := true, gated := false }
  let x := if late then { x with slack := BitVec.ofNat 32 (satAdd 32 x.slack.toNat 1) } else x
  let x := if x.bodyPc x.block = stop then x.bodyDone else x
  (s.setReed r x).progress r

/-- FIRING_START (R87, R88): the sequencer starts the next firing of the block once every condition holds, in the reed cycle after the one in
which the last body instruction issued; an unmet condition is recorded as the reed's wait, and a guard's address may fault the section. -/
def execFiringStart (reed : Fin 6144) (s : State) : Host.Outcome State Fault Refusal :=
  let r := reed.val
  let x := s.reed r
  if x.status != .running || x.inBody || x.threads != 0 || x.issued || x.started then .next s
  else match x.fireAt x.block with
    | none => .next s
    | some h => match s.firingWait r h with
      | .holds => .next (s.startFiring r h)
      | .unmet c => .next (s.modReed r (fun x => x.modCtx 0 (fun y => { y with wait := some c })))
      | .fault c hd off => .next (s.reedFault r c 0 (if c = .handleBound then [(16, r), (8, hd), (32, off)] else []))

/-! ### Core sampling (R53, R55) -/

/-- Writes the oldest queued record to its ring as a plain write of 16 bytes (R55, R110), or drops it where the ring is full without WRAP; it
stays queued while the ring's own tag forbids the write or its bank is taken. A record for a pool travels on the trickle path (R229).
DESIGN CHOICE (entry 137): the counts of written and dropped records wrap at 32 bits. -/
def State.putSample (s : State) (r : Nat) : State :=
  let x := s.reed r
  match x.samples with
  | [] => if x.ringBlocks then s.setReed r { x with ringBlocks := false } else s
  | d :: t =>
    let ctl := x.csCtl.toNat
    let size := 16 * (bits ctl 15 0 + 1)
    if !bit ctl 30 && decide (size ≤ x.written.toNat) then s.setReed r { x with samples := t, dropped := x.dropped + 1, ringBlocks := false }
    else
      let off := 16 * (x.written.toNat % size)
      match s.locate r (bits ctl 21 16) off 16 with
      | .bound => s.reedFault r .handleBound 0 [(16, r), (8, bits ctl 21 16), (32, off)]
      | .at_ i sp a =>
        let done := fun (s : State) => s.modReed r (fun x => { x with samples := t, written := x.written + 1, ringBlocks := false })
        let w : FillW := { space := sp, slot := a / 256, data := leBytes 16 d.toNat, plain := true, off := a % 256 }
        match sp with
        | .spad _ =>
          if !i.priv && (s.notTag sp (a / 256) 1 .empty).isSome then s.setReed r { x with ringBlocks := !bit ctl 30 }
          else match s.bankAsk sp a 16 6 with
            | .lost u => u
            | .granted u => (done u).putBytes sp a w.data
        | .pool _ => (done s).trickle (tusOf r) w
        | _ => (done s).sendFill r w none 0

/-! ### Idle causes -/

/-- Does the matrix engine, or the vector engine, advance an operation (R50, R441)? A finished tile that awaits its pieces' consumer, or a
contribution that awaits the sump's window, advances nothing. -/
def State.advances (s : State) (r : Nat) : Bool :=
  let x := s.reed r
  x.ops.any (fun o => o.kind == .vector)
    || (x.accCorr == 0 && x.matq.any (fun m => m.done && (match m.kind with | .mout _ => false | _ => true) && !s.sumpWaits r (· == m.op)))

/-- The cause of a wait for an operation whose engine does not advance it (R93, R441): what the matrix engine waits for, else the
acknowledgements that are out. -/
def State.stallCause (s : State) (r : Nat) : Cause :=
  let c := s.tileCause r
  if c ≠ .busy then c else if (s.reed r).writesOut then s.outCause r else .arbBackoff
/-- A wait as it counts in a cycle in which no engine advances. -/
def State.settledCause (s : State) (r : Nat) (c : Cause) : Cause := if c = .busy then s.stallCause r else c

/-- What a running reed waits for next (R441): its next instruction's resource, the end of the operations that the next firing awaits, its
first unmet guard; in threaded mode the contexts' causes together (R100). -/
def State.waitCause (s : State) (r : Nat) : Cause :=
  let x := s.reed r
  if x.threads ≠ 0 then
    ((List.range x.threads).filterMap (fun k => (x.context k).wait.map (s.settledCause r))).foldl Cause.first (s.stallCause r)
  else if x.inBody then s.settledCause r (((x.context 0).wait).getD .busy)
  else match x.fireAt x.block with
    | none => s.stallCause r
    | some h => match s.firingWait r h with | .unmet c => s.settledCause r c | _ => .arbBackoff

/-- Has a drained reed no section any more: its partition runs none, and the load that was to follow it is gone (R51, R69)? -/
def State.leftOver (s : State) (r : Nat) : Bool :=
  match s.partOfTus (tusOf r) with
  | some p => (s.part p).run.isNone && (s.part p).staged.isNone
  | none => true

/-- The idle cause a reed counts in this cycle (R51, R441). DEDUCED (entry 38): a running reed for which no
command issued and no other cause holds counts ARB_BACKOFF, the cause of lowest rank. -/
def State.idleCause (s : State) (r : Nat) : Cause :=
  let x := s.reed r
  match x.status with
  | .unassigned | .stopped => .unassigned
  | .armed => .reconfig
  | .drain => if s.leftOver r then .unassigned else .drain
  | .running =>
    if !x.inBody && x.threads == 0 && s.power.hold then .throttleLocal
    else if x.issued || s.advances r then .busy
    else s.waitCause r

/-- One reed cycle of a reed's counters (R50): exactly one counter counts, modulo 2^56. -/
def State.countIdle (s : State) (r : Nat) : State :=
  let c := s.idleCause r
  s.modReed r (fun x => { x with idle := Tbl.up x.idle c.code (Tbl.lk 0 x.idle c.code + 1), prior := c })

/-- A reed cycle passes for words under correction or read a second time (R43): 0 marks one whose second read has no end yet. -/
def tickCorr (c : Tbl Nat) : Tbl Nat := c.filterMap (fun e => if e.2 = 0 then some e else if e.2 = 1 then none else some (e.1, e.2 - 1))

/-- The reed at the start of its next cycle (R87, R92, R97, R105): what arrived and changed in the cycle past is seen from now on. -/
def Reed.tick (x : Reed) : Reed :=
  { x with cycle := x.cycle + 1, issued := false, fetch := { x.fetch with issued := false }, started := false, passed := [], cswNow := false,
           csWait := [], tagWas := [], corr := tickCorr x.corr, accCorr := x.accCorr - 1,
           qi := x.qi.map (fun q => (q.1, { q.2 with fresh := 0 })) }

/-- The control core's writes of CORE_SAMPLE_CTL in the cycle past complete (R82): as overwritten where a CSW of the cycle stood over them.
The mark of an overwritten write is a free value of the detail word (entry 111). -/
def State.csDone (s : State) (r : Nat) : State :=
  let x := s.reed r
  x.csWait.foldl (fun s (c : Nat × Nat × Nat × W32) =>
    s.done { port := c.1, ring := c.2.1, part := c.2.2.1, id := c.2.2.2 } 0 (if x.cswNow then [(8, 4, (Config.detail 2).toNat)] else [])) s

/-- A transposed load's slots that their tags kept back are tried again (R103). -/
def State.moverOn (s : State) (r : Nat) : State :=
  (s.xfers.filter (fun x => x.reed == r && x.mode == 2 && x.kind == .load && decide (x.slots ≤ x.stage.length))).foldl (fun s x =>
    if (s.reed r).correcting then s else s.moverDone x) s

/-- The payload of the monitor record of a slot (R163, R164; entry 154): the slot above the reed, the tensor, its counts, low words first. -/
def MonSlot.words (m : MonSlot) (r slot : Nat) : List W32 :=
  BitVec.ofNat 32 (slot * 2 ^ 16 + r) :: m.tensor :: m.amax :: (w2 m.elems ++ w2 m.zeros ++ w2 m.unders ++ [m.overs, m.nonfin])
/-- A slot with its counts cleared. -/
def MonSlot.cleared (m : MonSlot) : MonSlot :=
  { m with amax := 0, elems := 0, zeros := 0, unders := 0, overs := 0, nonfin := 0 }

/-- At a drain a reed sends its bound slots, and what rows it counted, to its fen's control core over the rill, once (R164, R199). -/
def State.sendMon (s : State) (r : Nat) : State :=
  let x := s.reed r
  if x.status ≠ .drain ∨ x.told = true then s
  else
    let rows := if x.nanRows = 0 ∧ x.infRows = 0 then [] else [[BitVec.ofNat 32 r, x.nanRows, x.infRows]]
    let all := (x.mon.filter (fun e => e.2.bound)).map (fun e => e.2.words r e.1) ++ rows
    let s := all.foldl (fun s ws => s.rillSend { destT := 240 * fenOf (tusOf r), port := 26, type := 6, epoch := s.epochOf r, words := ws, srcT := tusOf r }) s
    s.modReed r (fun y => { y with told := true, mon := y.mon.map (fun e => (e.1, e.2.cleared)), nanRows := 0, infRows := 0 })

/-- A reed enters its next cycle: what its engines and its samples can do without an instruction is done. -/
def State.tickReed (s : State) (r : Nat) : State :=
  let s := s.csDone r
  ((((s.modReed r Reed.tick).putSample r).moverOn r).matrixRun r).sendMon r

/-- The tussock at the start of its next reed cycle: its banks are free again (R109). -/
def Tussock.tick (x : Tussock) : Tussock :=
  { x with cycles := x.cycles + 1, banks := [], tagWas := [], corr := tickCorr x.corr }

/-- Are the clocks of a fen's islands held (R418, R419): from step 1 of its recovery to step 5, and once it is out of service? -/
def State.fenHeld (s : State) (f : Nat) : Bool :=
  (match (s.fen f).recovering with | some r => decide (3 ≤ r.step) | none => false) || s.get 0x6020 (f + 1) == 2

/-- REED_CYCLE (R50): one reed cycle passes in a tussock island; its pool's merge groups read on (R113). The clocks of a fen under recovery are
held, and its reeds' counters stand still (R418). -/
def execReedCycle (t : Fin 256) (s : State) : Host.Outcome State Fault Refusal :=
  let rs := upto (24 * t.val) 24
  if s.fenHeld (fenOf t.val) then .next s
  else .next ((rs.foldl State.tickReed ((rs.foldl State.countIdle s).modTus t.val Tussock.tick)).servePool t.val)

/-! ### Snapshots and broadcasts (R52, R253) -/

/-- A reed latches its counters, and clears them where CLEAR is set; SLACK_OVERRUN is cleared at COMMIT alone (R44). -/
def Reed.latch (x : Reed) (time : W64) (clear : Bool) : Reed :=
  { x with idleSnap := x.idle, slackSnap := x.slack, snapTime := time, idle := if clear then [] else x.idle }

/-- Is a tussock within a snapshot's scope (R390): the device, a partition, the mire? -/
def State.inScope (s : State) (v : Nat) (t : Nat) : Bool :=
  bits v 30 29 != 1 || (s.rect (bits v 28 26)).has t && s.defined (bits v 28 26)

/-- Has the APPLY of a broadcast come (R253)? Bits [31:0] of the time base, compared within half their range. -/
def State.due (s : State) (apply : W32) : Bool := decide ((BitVec.ofNat 32 s.timeBase.toNat - apply).toNat < 2 ^ 31)

/-- The time a snapshot's counters are latched with (R52): that at which it was issued. -/
def State.snapTime (s : State) : W64 := match s.snap with | some k => k.issued | none => s.timeBase

/-- What a tussock does on a broadcast: type 4 latches its reeds (R52); an armed notice is acknowledged to the control core that sent it (R72),
whose fen, partition and epoch its value holds. -/
def State.actOn (s : State) (t ty : Nat) (v : W64) : State :=
  if ty = 4 ∧ s.inScope (v.toNat / 2 ^ 32) t then
    (upto (24 * t) 24).foldl (fun u r => u.modReed r (fun x => x.latch s.snapTime (bit v.toNat 63))) s
  else if ty = 1 ∧ (s.tus1 t).owner = some (v.toNat % 8) then
    s.rillSend { destT := 240 * bits v.toNat 3 3, port := 26, type := 1, epoch := (s.tus1 t).epoch, words := [BitVec.ofNat 32 (8 * t + v.toNat % 8)], srcT := t }
  else s

/-- A tussock acts on the broadcasts it holds that are due (R253); its section's start token stays until it takes effect (R87). -/
def State.applyBcast (s : State) (t : Nat) : State :=
  let l := (s.tus1 t).bcasts
  let acts := fun (b : W32 × Nat × W64) => s.due b.1 && (b.2.1 != 0 || (s.tus1 t).owner != some (b.2.2.toNat % 8))
  if l.any acts then
    (l.filter acts).foldl (fun s b => s.actOn t b.2.1 b.2.2) (s.modTus t (fun x => { x with bcasts := l.filter (fun b => !acts b) }))
  else s

/-- Is a snapshot's broadcast still on the rill, or held by a tussock (R253)? -/
def State.snapPending (s : State) : Bool :=
  s.tus.any (fun t => t.2.bcasts.any (fun b => b.2.1 == 4)) || s.rillq.any (fun q => q.2.any (fun m => m.type == 4))

/-- Once a snapshot's broadcast has been acted on everywhere, the host command that issued it is done (R397). -/
def State.snapLatched (s : State) : State :=
  let waits := s.snapPending
  match s.snap with
  | some k =>
    match k.cmd with
    | some (q, r, p, id) =>
      if waits then s else ({ s with snap := some { k with cmd := none } }).done { port := q, ring := r, part := p, id := id } 0
    | none => s
  | none => s

/-- BROADCAST_APPLY (R253): a tussock acts on a received broadcast in its first reed cycle at or after APPLY. -/
def execBroadcastApply (t : Fin 256) (s : State) : Host.Outcome State Fault Refusal := .next (s.applyBcast t.val).snapLatched

/-- RILL_SNAPSHOT (R52): every tussock in scope latches its reeds' counters once the snapshot broadcast is due. -/
def execRillSnapshot (s : State) : Host.Outcome State Fault Refusal := .next ((upto 0 256).foldl State.applyBcast s).snapLatched

/-- A control core broadcasts a message to the die (R253): its first word is APPLY. -/
def State.castOut (s : State) (core type : Nat) (apply v : W64) : State :=
  s.rillSend { destT := 0xFF, port := 26, type := type, epoch := 0, words := BitVec.ofNat 32 apply.toNat :: w2 v, srcT := 240 * core, edge := true }
/-- Broadcasts a snapshot of a SNAPSHOT_CMD value to the die, with its APPLY (R52, R253). -/
def State.castSnap (s : State) (v : W32) (apply : W64) : State := s.castOut 0 4 apply (BitVec.ofNat 64 (v.toNat * 2 ^ 32))

/-- Issues a snapshot of a SNAPSHOT_CMD value (R52, R253, R316, R390): it waits while another is still being summed. In the mire
scope the master sends it to every member with an APPLY of START_LEAD mesh cycles, else APPLY is 64 mesh cycles away. -/
def State.issueSnap (s : State) (v : W32) (cmd : Option (Nat × Nat × Nat × W32)) : State :=
  match s.snap with
  | some _ => { s with snapWait := s.snapWait ++ [(v, cmd)] }
  | none =>
    let mire := bits v.toNat 30 29 == 2 && s.inMire && s.master == s.self
    let at_ := s.timeBase + BitVec.ofNat 64 (if mire then s.get 0x3400 4 else 64)
    let k : Snap := { value := v, issued := s.timeBase, apply := at_, cmd := cmd }
    let m := fun (d : Nat) => ({ destT := 0, port := 26, type := 4, epoch := 0, words := [BitVec.ofNat 32 (8 * s.self), v] ++ w2 at_, srcT := 0, dev := d } : RillMsg)
    let s := if mire then s.mirePeers.foldl (fun s d => s.rillExt (m d)) s else s
    ({ s with snap := some k }).castSnap v at_

/-- The reeds of a rectangle. -/
def Rect.reeds (r : Rect) : List Nat := r.tussocks.flatMap (fun t => upto (24 * t) 24)
/-- The sum of a snapshot counter over reeds. -/
def State.sumSnap (s : State) (rs : List Nat) (n : Nat) : Nat := sumOf (rs.map (fun r => (Tbl.lk 0 (s.reed r).idleSnap n).toNat))

/-- The totals of a snapshot (R390): over its scope, and over the reeds of each partition within it. -/
def State.totalSnap (s : State) (v : Nat) : State :=
  let ts := (List.range 256).filter (s.inScope v)
  let rs := ts.flatMap (fun t => upto (24 * t) 24)
  let s := (List.range 16).foldl (fun s n => s.set 0x7010 (n + 1) (s.sumSnap rs n % 2 ^ 64)) s
  let s := s.set 0x7010 17 (sumOf (rs.map (fun r => (s.reed r).slackSnap.toNat)) % 2 ^ 64)
  (List.range 8).foldl (fun s p =>
    if bits v 30 29 = 1 ∧ bits v 28 26 ≠ p then s
    else (List.range 16).foldl (fun s n => s.set (0x7020 + p) (n + 1) (s.sumSnap (s.rect p).reeds n % 2 ^ 64)) s) s

/-- SNAPSHOT_COMPLETED (R390): the summing of the latched counters ends, SNAPSHOT_SEQ rises, and the oldest snapshot that waits is
issued. -/
def execSnapshotCompleted (s : State) : Host.Outcome State Fault Refusal :=
  match s.snap with
  | none => .next s
  | some k =>
    if s.snapPending then .next s
    else
      let s := (s.snapLatched).totalSnap k.value.toNat
      let s := ((s.bump 0x7000 2).set 0x7000 3 k.issued.toNat).set 0x7000 4 (b2n k.unlocked)
      let s := { s with snap := none }
      match s.snapWait with
      | [] => .next s
      | (v, c) :: t => .next (({ s with snapWait := t }).issueSnap v c)

/-! ### The start of a step (R42, R78, R87) -/

/-- The reed at cycle 0 of a step (R78, R94, R99, R139); in threaded mode the rotation begins with context 0 (R100). -/
def Reed.start (x : Reed) : Reed :=
  let n := if x.threads = 0 then 1 else x.threads
  let b := match x.fireAt 0 with | some h => 2 + h.guards | none => 0
  let x : Reed := { x with ctx := (List.range n).map (fun k => (k, { pc := BitVec.ofNat 11 (512 * k) })), fetch := {}, v := [] }
  let x : Reed := { x with status := .running, j := 0, nextJ := 0, block := 0, inBody := false, cycle := 0, lastEnd := 0, issued := false,
                           started := false, passed := [] }
  let x : Reed := { x with banks := [], nextBank := 0, curBank := none, ctokSeq := 0, marks := [], blockOps := [], lastCtx := n - 1 }
  let zero := fun (q : OutQ) => { q with tok := 0, pkt := 0 }
  let x : Reed := { x with qo := x.qo.map (fun q => (q.1, zero q.2)), gated := false }
  let x : Reed := if x.threads = 0 then x.modCtx 0 (fun c => { c with pc := BitVec.ofNat 11 (x.bodyPc 0) }) else x
  x.fetchTo b

/-- Every reed of a section that holds a program starts its step, every sluice path's k is 0 (R124). -/
def State.startStep (s : State) (p : Nat) : State :=
  match (s.part p).run with
  | none => s
  | some r =>
    let s := r.sec.reeds.foldl (fun s q => s.modReed q Reed.start) s
    let s := r.sec.tussocks.foldl (fun s t => s.modTus t (fun x => { x with
      paths := x.paths.map (fun q => (q.1, { q.2 with k := 0, fwd := none, sent := [] })), bcasts := x.bcasts.filter (fun b => b.2.1 != 0) })) s
    s.modPart p (fun x => { x with run := some { r with phase := .running, progress := s.timeBase, tick := none, reported := false, ended := none } })

/-- May a section start its step (R28, R74, R87, R331)? -/
def State.mayStart (s : State) (r : Run) : Bool :=
  r.phase == .waitStart && !r.cplWait && s.power.settling.isNone && (match r.tick with | some t => decide (t.toNat ≤ s.timeBase.toNat) | none => false)

/-- Does every tussock of a partition's section hold its start token (R253)? -/
def State.tokenHeld (s : State) (p : Nat) (x : Sect) : Bool :=
  x.tussocks.all (fun t => (s.tus1 t).bcasts.any (fun b => b.2.1 == 0 && b.2.2.toNat % 8 == p))

/-- START_TOKEN (R74, R87, R253): the start token that the control core broadcast takes effect, at its APPLY, in every reed of the section,
outside a mire. -/
def execStartToken (part : Fin 8) (s : State) : Host.Outcome State Fault Refusal :=
  match (s.part part.val).run with
  | some r => if s.mayStart r && !s.inMire && s.tokenHeld part.val r.sec then .next (s.startStep part.val) else .next s
  | none => .next s

/-! ### Clock gating (R327) -/

/-- CLOCK_GATE (R327): a unit that has had no operation for 4 cycles stops its own clock. A reed or matrix engine with an
operation does not; nothing but the unit's gate changes, and no counter stops. -/
def execClockGate (u : GateUnit) (s : State) : Host.Outcome State Fault Refusal :=
  match u with
  | .reed r => .next (s.modReed r.val (fun x => if x.issued || s.advances r.val then x else { x with gated := true }))
  | .matrix r => .next (s.modReed r.val (fun x => if x.matq.isEmpty then { x with matGated := true } else x))
  | .bank t b => .next (s.modTus t.val (fun x => { x with gatedBanks := addOnce x.gatedBanks b.val }))
  | .path t p => .next (s.modTus t.val (fun x =>
      if (Tbl.lk {} x.paths p.val).ctl.toks.isEmpty then { x with gatedPaths := addOnce x.gatedPaths p.val } else x))

end Sys2Proof.Machine
end

