-- ==== Sys2Proof/Machine/TierCmds.lean ====
section
/-! DEFINITION. Error correction and scrubbing (R114 to R116), retries of tier reads (R236, R237), host pages (R232, R233),
regulated streams (R226, R227), and the limits of resupply and zeroing (R239, R357). -/
namespace Sys2Proof.Machine

/-! ### Checked memories (R114 to R116) -/

/-- The tussock, the unit taken out if the word fails its test, the cause, and the logged location of a checked word (R115). -/
def EccLoc.info : EccLoc → Nat × Nat × SCause × List (Nat × Nat)
  | .spad r w => (tusOf r.val, reedUnit r.val, .spadUncorrectable, [(16, r.val), (16, w)])
  | .pool t w => (t.val, poolUnit t.val, .poolUncorrectable, [(16, t.val), (16, w)])
  | .acc r w => (tusOf r.val, reedUnit r.val, .accUncorrectable, [(16, r.val), (16, w)])

/-- A word is under correction, or read a second time, for so many reed cycles more; 0 where the end of its second read is not known yet
(R114, R115; entry 139). -/
def State.correctWord (s : State) (l : EccLoc) (n : Nat) : State :=
  match l with
  | .spad r w => s.modReed r.val (fun x => { x with corr := Tbl.up x.corr w n })
  | .pool t w => s.modTus t.val (fun x => { x with corr := Tbl.up x.corr w n })
  | .acc r _ => s.modReed r.val (fun x => { x with accCorr := Nat.max x.accCorr n })

/-- The reed cycles from a second read's grant until its data is usable (R115). -/
def EccLoc.usable : EccLoc → Nat
  | .pool .. => 6
  | _ => 3

/-- ECC_RETRY_READ (R115): the second read of an uncorrectable word is granted: it is transient and counted, its data usable some reed cycles
later; or it fails, and the section faults with the word's location. -/
def execEccRetryRead (l : EccLoc) (ok : Bool) (s : State) : Host.Outcome State Fault Refusal :=
  let (t, unit, c, d) := l.info
  let part := (s.tus1 t).owner
  let s := s.correctWord l l.usable
  if ok then .next (s.logEvent 0 0x0100 part unit 0 d)
  else match part with
    | some p => .next (s.sectionFault p c unit 0 d)
    | none => .next s

/-- MEMORY_RETEST (R115, R236): before a later load the reeve tests a failed word or region; one that passes on a run
stays in service and is counted as transient, one that fails both takes its reed, tussock or region out of service. -/
def execMemoryRetest (l : RetestLoc) (passed : Bool) (s : State) : Host.Outcome State Fault Refusal :=
  let unit := match l with
    | .word w => w.info.2.1
    | .hbmRegion i r => hbmUnit i.val r
  .next (if passed then s.logEvent 0 0x0100 none unit 0 [] else s.takeOut unit none)

/-- Does a slot lie in a PRIVATE buffer of a reed of its tussock (R106, R116)? -/
def State.inPrivate (s : State) (sp : Space) (slot : Nat) : Bool :=
  let t := match sp with | .spad r => tusOf r | .pool t => t | _ => 0
  (upto (24 * t) 24).any (fun r => (List.range 64).any (fun h =>
    let i := s.handle r h
    let e := s.extent i
    i.priv && i.space r == some sp && decide (e.1 ≤ slot) && decide (slot < e.1 + e.2)))

/-- The word that the scrubber reads next in a bank of a memory of n words in b banks: each bank's words in ascending order, over and over (R116). -/
def nextScrub (at_ : Tbl Nat) (b bank : Nat) : Nat := Tbl.lk bank at_ (bank % b)
/-- The scrubber moves on in a word's bank. -/
def scrubOn (at_ : Tbl Nat) (b n w : Nat) : Tbl Nat := Tbl.up at_ (w % b) (if w + b < n then w + b else w % b)

/-- Is a word the one that the scrubber reads next in its bank, in a cycle in which the bank carries no request (R116)? -/
def State.scrubs (s : State) (l : EccLoc) : Bool :=
  match l with
  | .spad r w => decide (w < 4096) && nextScrub (s.reed r.val).scrubAt 8 (w % 8) == w && s.bankIdle (.spad r.val) (64 * w) 64
  | .pool t w => decide (w < 65536) && nextScrub (s.tus1 t.val).scrubAt 32 (w % 32) == w && s.bankIdle (.pool t.val) (64 * w) 64
  | .acc .. => false

/-- A scrubbed word counts as covered, and the scrubber moves on in its bank (R116). -/
def State.scrubbed (s : State) (l : EccLoc) : State :=
  match l with
  | .spad r w => s.modReed r.val (fun x => { x with cover := Tbl.up x.cover w s.timeBase, scrubAt := scrubOn x.scrubAt 8 4096 w })
  | .pool t w => s.modTus t.val (fun x => { x with cover := Tbl.up x.cover w s.timeBase, scrubAt := scrubOn x.scrubAt 32 65536 w })
  | .acc .. => s

/-- SCRUB_WORD (R116): the scrubber reads the next word of an idle bank: a corrected one is counted and written back; an
uncorrectable one in a FULL slot or a PRIVATE buffer of a running section awaits its second read, any other is rewritten
with zeros and logged. Accumulators are not scrubbed. -/
def execScrubWord (l : EccLoc) (f : ScrubFound) (s : State) : Host.Outcome State Fault Refusal :=
  let (t, unit, _, d) := l.info
  let go (s : State) (sp : Space) (w : Nat) : State :=
    match f with
    | .clean => s
    | .corrected => s.bump 0x6040 2
    | .uncorrectable =>
      let s := s.bump 0x6040 3
      let live := (s.tus1 t).owner.isSome && (s.tag sp (w / 4) == .full || s.inPrivate sp (w / 4))
      if live then s.correctWord l 0
      else (s.putBytes sp (64 * w) (rep 64 0)).logEvent 0 0x0102 (s.tus1 t).owner unit 0 d
  if !s.scrubs l then .next s
  else match l with
    | .spad r w => .next (go (s.scrubbed l) (.spad r.val) w)
    | .pool t w => .next (go (s.scrubbed l) (.pool t.val) w)
    | .acc .. => .next s

/-- CORRECTED_WORD_WRITE_BACK (R114): an access has found an error of one bit in a word, which is corrected and written back in the next
cycle in which its bank has no request. The memory holds the corrected value already, so the write changes no value; the access is delayed
by 2 reed cycles (R43, R144). -/
def execCorrectedWordWriteBack (l : EccLoc) (s : State) : Host.Outcome State Fault Refusal := .next (s.correctWord l 2)

/-! ### Second reads of the tiers (R236, R237) -/

/-- HBM_REREAD (R236): the repeated read of an uncorrectable word, in slot idx of a merge group at a controller, ends. A
clean second read is transient; else the group's slots before the word's tile are delivered, and each member's tile is
poisoned or faults its section, with the word's slot logged. -/
def execHbmReread (i : Fin 8) (g : Nat) (idx : Nat) (ok : Bool) (s : State) : Host.Outcome State Fault Refusal :=
  match (s.stack i.val).groups.find? (fun h => h.id == g) with
  | none => .next s
  | some h =>
    if ok then .next ((s.bump 0x7400 1).logEvent 0 0x0100 none (hbmUnit i.val (256 * h.slot idx / 2 ^ 20)) 0 [])
    else
      let first := 18 * (idx / 18)
      let (s, _) := serveGroup (hbmNode i.val) (.hbm i.val) (first - h.next) s h
      let s := s.modStack i.val (fun x => { x with groups := x.groups.filter (fun y => y.id != g) })
      .next (h.members.foldl (fun s m => match s.xfer? m with
        | some x => (s.modXfer m (fun y => { y with sent := first })).readLost { x with sent := first } first idx
        | none => s) s)

/-- A tile that a privileged channel has read is in the stream engine's hand: to be delivered, or on channel 2 to be written (R226). -/
def State.holdTile (s : State) (id idx : Nat) (tile : List Byte) : State :=
  s.modXfer id (fun y =>
    if y.chan = 2 then { y with retry := false, stage := (List.range 18).foldl (fun m j => Tbl.up m (idx + j) ((tile.drop (256 * j)).take 256)) y.stage }
    else { y with buf := tile, sent := idx, retry := false })

/-- Delivers a tile whose retry succeeded: an ordinary descriptor goes on with its further tiles, a stream engine takes it
in hand. -/
def State.afterRetry (s : State) (x : Xfer) (idx : Nat) (tile : List Byte) (ds : List HostData) : State :=
  if x.chan ≠ 0 then s.holdTile x.id idx tile
  else
    let n := x.src.node (tusOf x.reed)
    serveTier n (x.slots / 18) ((s.modXfer x.id (fun y => { y with retry := false })).sendTile n x idx tile) x (idx + 18) ds

/-- TIER_READ_RETRY (R237): the retry of a failed read ends with the first of the data given, the rest serving the tiles
that follow: transient; recovered from the mirror, the board tile rewritten sealed afresh; poisoned; or a section fault. -/
def execTierReadRetry (xfer : Nat) (ds : List HostData) (s : State) : Host.Outcome State Fault Refusal :=
  match s.retries.find? (fun r => r.xfer == xfer), s.xfer? xfer with
  | some r, some x =>
    let s := { s with retries := s.retries.filter (fun r => r.xfer != xfer) }
    let a := x.srcAddr r.idx
    match s.tierRead x.part x.src a (dataOr x.src ds) with
    | .ok t b => .next (((t.bump 0x7400 1).logEvent 0 0x0100 (some x.part) 0 0 [(64, a)]).afterRetry x r.idx b ds.tail)
    | .miss => .next (match x.src with | .host q => (s.modXfer x.id (fun y => { y with retry := false })).askPage q x a (some r.idx) | _ => s)
    | .failed =>
      let s := s.modXfer x.id (fun y => { y with retry := false })
      match s.recover x.part x.src a (ds.head? == some .lost) with
      | .ok t b => .next (t.afterRetry x r.idx b ds.tail)
      | .exhausted => .next (s.reedFault x.reed .sealExhausted x.pc [])
      | .absent => .next (s.readLost x r.idx r.idx)
  | _, _ => .next s

/-! ### Host pages (R232, R233) -/

/-- Adds a translation to a port's cache of 4,096, the oldest leaving (R232). -/
def Port.addPage (p : Port) (base size : Nat) (write : Bool) : Port :=
  let l := p.atc.filter (fun e => e.1 != base) ++ [(base, size, write)]
  { p with atc := l.drop (l.length - 4096) }

/-- ATS_TRANSLATION_COMPLETION (R232, R233): the completion a descriptor awaits. Granted with the access that its tile needs, the page enters
the cache and the descriptor goes on, with the data that the command brings where it reads; else it is a translation miss: the stream halts
and a page request is sent. -/
def execAtsTranslationCompletion (q : Fin 2) (xfer base size : Nat) (granted write : Bool) (host : List HostData) (s : State) :
    Host.Outcome State Fault Refusal :=
  match s.xfer? xfer with
  | none => .next s
  | some x =>
    let here := match (if x.out then x.dst else x.src) with | .host a => a == q.val | _ => false
    if !x.trans || !here then .next s
    else
      let s := if granted then s.modPort q.val (fun p => p.addPage base size write) else s
      if !granted || (x.out && !write) then .next (s.pageMiss q.val x x.tierAddr (if x.out then none else some x.sent))
      else
        let s := s.modXfer xfer (fun y => { y with trans := false })
        if x.chan ≠ 0 then .next s
        else if x.out then .next (flushTiles (x.slots / 18) s xfer)
        else .next (serveTier (x.src.node (tusOf x.reed)) (x.slots / 18) s x x.sent host)

/-- PAGE_RESPONSE (R233): Success resumes the stream; Invalid Request or Response Failure faults its section with
HOST_PAGE. After the latter the port sends no more page requests, and the streams whose requests were still to be sent end in HOST_PAGE too. -/
def execPageResponse (q : Fin 2) (group : Nat) (a : PageAnswer) (s : State) : Host.Outcome State Fault Refusal :=
  match (s.port q.val).reqs.find? (fun r => r.group == group && r.outstanding) with
  | none => .next s
  | some r =>
    let us := (s.timeBase.toNat - r.sent.toNat) / 1600
    let unsent := if a = .failure then (s.port q.val).reqs.filter (fun y => !y.outstanding) else []
    let s := s.modPort q.val (fun p => { p with reqs := p.reqs.filter (fun y => y.xfer != r.xfer && !unsent.contains y),
                                                reqStop := p.reqStop || a == .failure })
    let s := if s.get 0x7400 6 < us then s.set 0x7400 6 (Nat.min us (2 ^ 32 - 1)) else s
    let lose := fun (s : State) (r : PageReq) => match s.xfer? r.xfer with
      | some x => s.reedFault x.reed .hostPage x.pc []
      | none => s
    let s := match a with
      | .success => s.resumeXfer r.xfer false
      | _ => lose s r
    .next (sendRequests q.val 64 (unsent.foldl lose s))

/-- PAGE_REQUEST_LIMIT (R233): no response has come within the limit in force when the request was sent. -/
def execPageRequestLimit (q : Fin 2) (group : Nat) (s : State) : Host.Outcome State Fault Refusal :=
  match (s.port q.val).reqs.find? (fun r => r.group == group && r.outstanding) with
  | some r =>
    if s.timeBase.toNat < r.sent.toNat + msCycles r.limit then .next s
    else match s.xfer? r.xfer with
      | some x => .next (s.reedFault x.reed .hostPage x.pc [])
      | none => .next s
  | none => .next s

/-- Do two ranges of addresses meet? -/
def overlap (a n b m : Nat) : Bool := decide (a < b + m) && decide (b < a + n)

/-- ATS_INVALIDATION (R232): the range's translations leave the cache; its completion waits for the transfers that use it. -/
def execAtsInvalidation (q : Fin 2) (tag base size : Nat) (s : State) : Host.Outcome State Fault Refusal :=
  .next (s.modPort q.val (fun p => { p with
    atc := p.atc.filter (fun e => !overlap e.1 e.2.1 base size), invals := p.invals ++ [(tag, base, size)] }))

/-- Does a transfer of a port have a tile of a range in hand (R232)? -/
def Xfer.uses (x : Xfer) (q base size : Nat) : Bool :=
  let on := match x.src, x.dst with | .host a, _ => a == q | _, .host a => a == q | _, _ => false
  let a := match x.src with | .host _ => x.srcAddr x.sent | _ => x.dstAddr x.sent
  on && !x.halted && !x.buf.isEmpty && overlap (a / 4608 * 4608) 4608 base size

/-- ATS_INVALIDATION_COMPLETE (R232): once no transfer uses the range, the port sends the completion. -/
def execAtsInvalidationComplete (q : Fin 2) (tag : Nat) (s : State) : Host.Outcome State Fault Refusal :=
  match (s.port q.val).invals.find? (fun e => e.1 == tag) with
  | none => .next s
  | some (_, base, size) =>
    if s.xfers.any (fun x => x.uses q.val base size) then .next s
    else
      let s := s.modPort q.val (fun p => { p with invals := p.invals.filter (fun e => e.1 != tag) })
      .next ((s.emit (.invalDone q.val tag)).bump 0x7400 7)

/-! ### Regulated streams (R226, R227) -/

/-- The tier unit of a stream engine: ports 0 and 1, controllers 0 and 1 as 2 and 3. -/
def unitSpace (u : Nat) : Space := if u < 2 then .host u else .board (u - 2)
/-- The key of a token bucket (R227): channel and port or controller. -/
def bucketKey (chan unit : Nat) : Nat := 8 * chan + unit
/-- The first subindex of a channel's regulator: RATE, then BURST (R228). -/
def rateSub (chan : Nat) : Nat := 2 * chan - 1
/-- BURST of a partition's channel in bytes (R228). -/
def State.burst (s : State) (p chan : Nat) : Nat := 1024 * s.get (0x4200 + p) (rateSub chan + 1)
/-- A token bucket (R227): full at device reset, under the BURST in force then. -/
def State.bucket (s : State) (p chan unit : Nat) : Bucket :=
  (Tbl.lk? (s.part p).buckets (bucketKey chan unit)).getD { tokens := 1024 * entryDefault s (0x4200 + p) (rateSub chan + 1) }
/-- One mesh cycle of a token bucket (R227, R228): RATE in MB/s, tokens above a lowered BURST discarded. -/
def Bucket.tick (b : Bucket) (rate burst n : Nat) : Bucket :=
  let f := b.frac + n * rate
  { frac := f % 1600, tokens := Nat.min (b.tokens + f / 1600) burst }
/-- The buckets of a partition that have left their reset value, or may: those listed, and those of a channel whose regulator has been set. A
full bucket under the defaults stays as it is, since each default RATE is a multiple of 1,600. -/
def State.movingBuckets (s : State) (p : Nat) : List Nat :=
  let set := fun (c : Nat) => (Tbl.lk? s.dict (dk (0x4200 + p) (rateSub c))).isSome || (Tbl.lk? s.dict (dk (0x4200 + p) (rateSub c + 1))).isSome
  (upto 8 20).filter (fun k => decide (k % 8 < 4) && (set (k / 8) || (Tbl.lk? (s.part p).buckets k).isSome))
/-- One mesh cycle of every token bucket (R227). -/
def State.tickBuckets (s : State) : State :=
  (List.range 8).foldl (fun (t : State) p => match s.movingBuckets p with
    | [] => t
    | ks => t.modPart p (fun q => { q with buckets := ks.foldl (fun b k =>
        Tbl.up b k ((s.bucket p (k / 8) (k % 8)).tick (s.get (0x4200 + p) (rateSub (k / 8))) (s.burst p (k / 8)) 1)) q.buckets })) s

/-- The head descriptor of a channel: the first with slots still to send (R226). -/
def State.chanHead (s : State) (p chan unit : Nat) : Option Xfer :=
  (s.channel p (unitSpace unit) chan).find? (fun x => decide (x.sent < x.slots))

/-- The data of a slot of a write-back. -/
inductive BackData where
  | ok (s : State) (data : List Byte)
  | none
  | miss
  | failed
  deriving DecidableEq, Repr

/-- The data of slot i of a write-back: read at the store's issue or by the mover; from the move's source while it is FULL (R103); or from a
source outside the package, whose tile is read at its first slot (R225). -/
def State.backData (s : State) (x : Xfer) (i : Nat) (d : HostData) : BackData :=
  match Tbl.lk? x.stage i with
  | some b => .ok s b
  | Option.none =>
    if x.kind = .store then .none
    else match x.src with
      | .board _ | .host _ => (match s.tierRead x.part x.src (x.srcAddr (18 * (i / 18))) d with
        | .ok t b => .ok (t.holdTile x.id (18 * (i / 18)) b) ((b.drop (256 * (i % 18))).take 256)
        | .miss => .miss
        | .failed => .failed)
      | _ => if s.tag x.src (x.srcSlot i) = .full then .ok s (s.bytes x.src (256 * x.srcSlot i) 256) else .none

/-- One slot of a stream that reads a tier: the tile's read at its first slot, then slot by slot (R225, R227). -/
def State.streamRead (s : State) (x : Xfer) (d : HostData) (pay : State → State) : State :=
  let i := x.sent
  let node := x.src.node (tusOf x.reed)
  let send := fun (s : State) (tile : List Byte) =>
    let s := (pay s).respond node [x.id] i ((tile.drop (256 * (i % 18))).take 256)
    s.modXfer x.id (fun y => { y with sent := i + 1, buf := if i % 18 = 17 then [] else tile })
  if x.buf ≠ [] then send s x.buf
  else match s.tierRead x.part x.src (x.srcAddr i) d with
    | .ok t b => send t b
    | .miss => (match x.src with | .host q => s.askPage q x (x.srcAddr i) (some i) | _ => s)
    | .failed => s.retryLater x i

/-- One slot of a write-back: gathered, and with the tile's last slot sealed and written (R218, R225). What the transposing mover has still to
write is not there yet (R111). -/
def State.streamWrite (s : State) (x : Xfer) (d : HostData) (pay : State → State) : State :=
  let i := x.sent
  if x.mode = 2 then s
  else match s.backData x i d with
  | .none => s
  | .miss => (match x.src with | .host q => s.askPage q x (x.srcAddr (18 * (i / 18))) (some i) | _ => s)
  | .failed => s.retryLater x (18 * (i / 18))
  | .ok s b =>
    let tile := x.buf ++ b
    if i % 18 ≠ 17 then (pay s).modXfer x.id (fun y => { y with buf := tile, sent := i + 1 })
    else match s.tierWrite x (i - 17) tile with
      | none => (match x.dst with | .host q => s.askPage q x (x.dstAddr (i - 17)) none | _ => s)
      | some t =>
        let t := (pay t).modXfer x.id (fun y => { y with buf := [], sent := i + 1, done := i + 1 })
        if x.slots ≤ i + 1 then t.dropXfer x else t

/-- STREAM_SLOT_SEND (R226, R227): the next slot of a privileged channel's head descriptor is sent once its bucket holds
256 bytes. A halted head, or one that awaits a page or a retry, holds the channel. The data is that of the tile whose
first slot it is. -/
def execStreamSlotSend (part : Fin 8) (chan : Fin 4) (unit : Fin 4) (d : HostData) (s : State) : Host.Outcome State Fault Refusal :=
  match s.chanHead part.val chan.val unit.val with
  | none => .next s
  | some x =>
    let b := s.bucket part.val chan.val unit.val
    if chan.val = 0 ∨ x.halted ∨ x.trans ∨ x.retry ∨ b.tokens < 256 then .next s
    else
      let pay := fun (s : State) => s.modPart part.val (fun p =>
        { p with buckets := Tbl.up p.buckets (bucketKey chan.val unit.val) { b with tokens := b.tokens - 256 } })
      .next (if chan.val = 2 then s.streamWrite x d pay else s.streamRead x d pay)

/-! ### Limits -/

/-- RESUPPLY_LIMIT (R239): a resupply entry's limit, as it stood when the entry opened, has expired; a RESUPPLY accepted at that time base still
completes. -/
def execResupplyLimit (part : Fin 8) (idx : Nat) (s : State) : Host.Outcome State Fault Refusal :=
  match (s.part part.val).resup.find? (fun e => e.idx == idx) with
  | none => .next s
  | some e =>
    if s.timeBase.toNat ≤ e.opened.toNat + msCycles e.limit then .next s
    else .next (s.sectionFault part.val .resupplyLimit 0 e.tensor [])

/-- ZERO_PENDING: bytes of every stack that await zeroing (R359). -/
def State.zeroPending (s : State) : State :=
  s.set 0x1300 4 (sumOf (s.hbmStacks.map (fun x => sumOf (x.2.zeroing.map (·.2)))))

/-- PLACEMENT_ZEROING_COMPLETE (R357): the oldest released range of a stack is zero and free. -/
def execPlacementZeroingComplete (i : Fin 8) (s : State) : Host.Outcome State Fault Refusal :=
  match (s.stack i.val).zeroing with
  | [] => .next s
  | (a, n) :: t =>
    let clean (m : Mem) : Mem := m.filter (fun c => decide (c.1 < a) || decide (a + n ≤ c.1))
    .next (s.modStack i.val (fun x => { x with mem := clean x.mem, zeroing := t })).zeroPending

end Sys2Proof.Machine
end

