-- ==== Sys2Proof/Machine/Places.lean ====
section
/-! DEFINITION. The placement table, quotas and free ranges of the tiers (R59, R220 to R224, R231, R290). -/
namespace Sys2Proof.Machine

/-! ### Free ranges (R221) -/

/-- Rounds up to a multiple of 4,608. -/
def tileUp (a : Nat) : Nat := ceilDiv a 4608 * 4608
/-- The ranges of a space that are not free: placements of every partition, ranges awaiting zeroing, regions out of service. -/
def State.occupied (s : State) (extra : List Placement) (sp : Space) : List (Nat × Nat) :=
  let all := extra ++ (List.range 8).flatMap (fun p => (s.part p).places)
  let ps := (all.filter (fun x => x.space == some sp)).map (fun x => (x.addr, x.size))
  match sp with
  | .hbm i => ps ++ (s.stack i).zeroing
      ++ (s.oos.filter (fun u => decide (u / 2 ^ 28 = 3) && bits u 27 24 == i)).map (fun u => ((u % 65536) * mib, mib))
  | _ => ps
/-- The lowest multiple of 4,608 from lo at which n bytes are free below hi. -/
def lowestFree (occ : List (Nat × Nat)) (lo hi n : Nat) : Option Nat :=
  let starts := (lo :: occ.map (fun o => o.1 + o.2)).map tileUp
  let fits := starts.filter (fun a => decide (lo ≤ a) && decide (a + n ≤ hi) && !occ.any (fun o => overlap a n o.1 o.2))
  minOf? fits
/-- A free range for n bytes in a space (R221). -/
def State.freeRange (s : State) (p : Nat) (extra : List Placement) (sp : Space) (n : Nat) : Option Nat :=
  let occ := s.occupied extra sp
  match sp with
  | .hbm _ => lowestFree occ 0 (48 * gib) n
  | .board _ => if s.boardOut then none else lowestFree occ 0 (8 * s.boardRec.channelGib * gib) n
  | .host q => ((s.part p).regions.filter (fun r => r.2.port == q)).filterMap (fun r => lowestFree occ r.2.base (r.2.base + r.2.size) n) |> minOf?
  | _ => none

/-! ### Resolving one tensor (R59, R220, R221) -/

/-- Is a PLACEMENT word free of reserved values (R220)? -/
def placementOk (w : W64) (recomputable : Bool) : Bool :=
  let n := w.toNat
  let h := bits n 63 60
  decide (h ≤ 4) && bits n 59 58 != 3 && bits n 52 32 == 0 && !(h == 4 && !recomputable) && (h == 2 || bits n 31 0 == 0)
/-- Is a NUMERICS word free of reserved values for its format (R162)? -/
def numericsOk (w : W64) (fmt : Nat) : Bool :=
  let n := w.toNat
  let m := bits n 63 60
  let hist := bits n 56 52
  decide (m ≤ 2) && (m == 0 || (decide (4 ≤ fmt) && decide (fmt ≤ 10)))
    && (if m = 1 then decide (1 ≤ bits n 59 57) && decide (1 ≤ hist) && decide (hist ≤ 16) else hist == 0)
    && !(bit n 51 && !(m == 1 && (fmt == 4 || fmt == 5))) && (bit n 49 || bits n 40 9 == 0) && !(bit n 49 && fmt != 1) && bits n 8 0 == 0
/-- Has a format code a tile shape (R128, R220)? -/
def fmtPlaces (c : Nat) : Bool := (decide (1 ≤ c) && decide (c ≤ 10)) || c == 12 || c == 13

/-- The fen of a tensor (R220): pinned, or that of its producers' column. -/
def fenOfWord (w : W64) (autoFen : Nat) : Nat := match bits w.toNat 59 58 with | 1 => 0 | 2 => 1 | _ => autoFen

/-- The stacks of a fen in the order R221 tries them: the pinned one alone, else by the partition's own bytes, then number. -/
def stackOrder (own : List Placement) (fen : Nat) (w : W64) : List Nat :=
  if bit w.toNat 55 then [4 * fen + bits w.toNat 57 56]
  else
    let used := fun (i : Nat) => sumOf ((own.filter (fun x => x.space == some (.hbm i))).map (·.size))
    let ins := fun (l : List Nat) (i : Nat) => l.takeWhile (fun j => decide (used j ≤ used i)) ++ i :: l.dropWhile (fun j => decide (used j ≤ used i))
    (upto (4 * fen) 4).foldl ins []

/-- Places a tensor in a tier with quota and a free range (R221, R223); none is QUOTA. -/
def State.placeIn (s : State) (p : Nat) (extra : List Placement) (x : Placement) (spaces : List Space) : Option Placement :=
  let own := (s.part p).places ++ extra
  match spaces with
  | [] => none
  | sp :: _ =>
    if s.quota p sp.charge < usedIn own sp.charge + x.size then none
    else spaces.findSome? (fun q => (s.freeRange p extra q x.size).map (fun a => { x with space := some q, addr := a }))

/-- The spaces a hint opens to a tensor (R220, R221). -/
def hintSpaces (own : List Placement) (fen : Nat) (w : W64) : List Space :=
  match bits w.toNat 63 60 with
  | 1 => (stackOrder own fen w).map Space.hbm
  | 2 => [.board fen]
  | 3 => [.host fen]
  | _ => []

/-- Space for kept activations in a pool: tussock, first slot, tiles. -/
abbrev PoolRange := Nat × Nat × Nat
/-- The tiles of a list of pool ranges. -/
def poolTiles (l : List PoolRange) : Nat := sumOf (l.map (fun e => e.2.2))
/-- The free ranges of a tussock's pool from a slot on, between the tiles that placements hold, in rising order. -/
def poolGaps (t : Nat) : Nat → List PoolRange → List PoolRange
  | lo, [] => [(t, lo, (14336 - lo) / 18)]
  | lo, e :: l => (t, lo, (e.2.1 - lo) / 18) :: poolGaps t (Nat.max lo (e.2.1 + 18 * e.2.2)) l
/-- The pool space left after the image's fixed buffers and the kept activations that placements already hold there (R59, R65), in the order of
the logical tussocks and of the slots (entry 36). -/
def poolFree (x : Sect) (places : List Placement) : List PoolRange :=
  (List.range (x.w * x.h)).flatMap (fun l =>
    let t := x.phys l
    let held := places.flatMap (fun y => y.pools.filter (fun e => e.1 == t))
    let rising := held.foldl (fun l e => l.takeWhile (fun f => decide (f.2.1 ≤ e.2.1)) ++ e :: l.dropWhile (fun f => decide (f.2.1 ≤ e.2.1))) []
    (poolGaps t (x.img.parts.getD l {}).slots rising).filter (fun e => e.2.2 != 0))
/-- Takes so many tiles from the front of a list of ranges: the ranges taken, and those left. -/
def takeTiles : Nat → List PoolRange → List PoolRange × List PoolRange
  | _, [] => ([], [])
  | n, e :: l =>
    if n = 0 then ([], e :: l)
    else if n < e.2.2 then ([(e.1, e.2.1, n)], (e.1, e.2.1 + 18 * n, e.2.2 - n) :: l)
    else let r := takeTiles (n - e.2.2) l; (e :: r.1, r.2)

/-- Resolves one tensor; pool is the space still free in the section's pools. None is QUOTA. -/
def State.resolve (s : State) (p : Nat) (extra : List Placement) (pool : List PoolRange) (t : TensorDecl) (instances autoFen : Nat) :
    Option (Placement × List PoolRange) :=
  let g := tileGrid t.rows t.cols t.fmt
  let tiles := g.1 * g.2 * instances
  let x : Placement := { tensor := t.id, rows := t.rows, cols := t.cols, fmt := t.fmt, word := t.placement, instances := instances,
                         space := none, addr := 0, size := tiles * 4608 }
  let fen := fenOfWord t.placement autoFen
  let own := (s.part p).places ++ extra
  match bits t.placement.toNat 63 60 with
  | 4 => some (x, pool)
  | 0 =>
    if tiles ≤ poolTiles pool then
      let r := takeTiles tiles pool
      some ({ x with space := some (.pool ((r.1.map (·.1)).headD 0)), pools := r.1 }, r.2)
    else match s.placeIn p extra x ((stackOrder own fen t.placement).map Space.hbm) with
      | some y => some (y, pool)
      | none => if t.recomputable then some (x, pool) else none
  | _ => (s.placeIn p extra x (hintSpaces own fen t.placement)).map (fun y => (y, pool))

/-- Removes placements of a partition: HBM4 ranges await zeroing (R357), the use entries are recounted (R223). -/
def State.dropPlaces (s : State) (p : Nat) (gone : Placement → Bool) : State :=
  let out := (s.part p).places.filter gone
  let s := s.modPart p (fun x => { x with places := x.places.filter (fun y => !gone y) })
  let s := out.foldl (fun s y => match y.space with
    | some (.hbm i) => if y.size = 0 then s else s.modStack i (fun k => { k with zeroing := k.zeroing ++ [(y.addr, y.size)] })
    | _ => s) s
  s.zeroPending.recount p

end Sys2Proof.Machine
end

