-- ==== Sys2Proof/Machine/Verify.lean ====
section
/-! DEFINITION. Host commands as a port takes them (R376, R394, R397), the end of a load, and VERIFY (R64, R344, R350, R351). -/
namespace Sys2Proof.Machine

/-! ### Taking a host command (R397) -/

/-- A little-endian field of the image. -/
def fld (b : List Byte) (off n : Nat) : Nat := leNat ((b.drop off).take n)

/-- A field of a command entry (R7, R397). -/
def HCmd.f (c : HCmd) (off n : Nat) : Nat := fld c.entry off n
/-- OPCODE, PART and CMD_ID of a command entry (R397). -/
def HCmd.opcode (c : HCmd) : Nat := c.f 0 1
/-- PART. -/
def HCmd.part (c : HCmd) : Nat := c.f 1 1
/-- CMD_ID. -/
def HCmd.id (c : HCmd) : W32 := BitVec.ofNat 32 (c.f 4 4)

/-- The arguments of a command by its opcode (R397): byte offset, bytes, and the bits of them that are not RSVD. -/
def cmdArgs : Nat → List (Nat × Nat × Nat)
  | 0x01 => [(8, 8, 64), (16, 8, 64), (24, 1, 8), (25, 1, 8), (26, 1, 8), (27, 1, 1), (28, 2, 16), (32, 8, 64)]
  | 0x02 => [(8, 1, 2)]
  | 0x03 => [(8, 8, 64), (16, 4, 32)]
  | 0x04 => [(8, 4, 32), (12, 4, 32), (16, 4, 32), (20, 1, 8), (24, 8, 64)]
  | 0x05 => [(8, 4, 32)]
  | 0x06 => [(8, 1, 8), (9, 1, 1), (16, 8, 64), (24, 8, 64)]
  | 0x07 => [(8, 1, 8), (9, 1, 2), (12, 2, 16), (16, 8, 64), (24, 4, 32), (28, 6, 48)]
  | 0x08 => [(8, 4, 32), (16, 8, 64)]
  | 0x09 => [(8, 4, 32), (12, 4, 32), (16, 4, 32), (20, 1, 1), (24, 8, 64)]
  | 0x0A => [(8, 1, 8), (10, 2, 16), (16, 8, 64)]
  | 0x0B => [(8, 1, 8), (16, 8, 64), (24, 32, 256)]
  | 0x0C => [(8, 1, 8), (9, 1, 1), (16, 8, 64), (24, 8, 64)]
  | 0x0D => [(8, 4, 32), (12, 1, 8), (16, 8, 64)]
  | 0x0E => [(8, 4, 32)]
  | 0x0F => [(8, 1, 8), (10, 2, 16), (12, 1, 8), (14, 2, 16), (16, 8, 64)]
  | 0x10 => [(10, 2, 16), (12, 4, 32)]
  | 0x11 => [(16, 8, 64), (24, 2, 16)]
  | 0x12 => [(16, 8, 64), (24, 4, 32), (28, 4, 32)]
  | 0x13 => [(16, 8, 64), (24, 4, 32), (28, 4, 32)]
  | _ => []
/-- Is an opcode one of the table of R397? -/
def listedOp (op : Nat) : Bool := decide (1 ≤ op) && decide (op ≤ 0x13)
/-- Are the RSVD bytes and bits of an entry zero for an opcode (R397): bytes 2 and 3, and what its arguments leave of bytes 8 to 63? -/
def HCmd.clean (c : HCmd) (op : Nat) : Bool :=
  let args := cmdArgs op
  args.all (fun a => decide (c.f a.1 a.2.1 < 2 ^ a.2.2))
    && ([2, 3] ++ upto 8 56).all (fun i => args.any (fun a => decide (a.1 ≤ i) && decide (i < a.1 + a.2.1)) || c.f i 1 == 0)

/-- The identity of a command. -/
def HCmd.cid (c : HCmd) : CmdId := { port := c.port.val, ring := c.ring.val, part := c.part, id := c.id }

/-- Has a ring of a port a command that the port may take (R395, R399, R413)? -/
def State.hasCmd (s : State) (q r : Nat) : Bool :=
  let x := s.ring q r
  s.boot == .ready && (s.port q).loss.isEmpty && x.active && x.cmdHead != x.cmdTail && x.held.isEmpty
/-- Does a port take its next command from a ring: is it the first that has one, in the rotation (R397)? -/
def State.takesCmd (s : State) (q r : Nat) : Bool :=
  s.hasCmd q r && ((List.range 16).map (fun i => ((s.port q).turn + i) % 16)).find? (s.hasCmd q) == some r

/-- Takes one command of a ring: CMD_HEAD moves on, the command is started (R395, R397). -/
def State.takeCmd (s : State) (c : HCmd) : State :=
  (s.modRing c.port.val c.ring.val (fun x => { x with cmdHead := (x.cmdHead + 1) % x.cmdSize, started := x.started ++ [c.id] })).modPort
    c.port.val (fun p => { p with turn := (c.ring.val + 1) % 16 })

/-- A host command of an opcode: not taken at all where the port cannot take it; BAD_COMMAND for a reserved opcode (R14) or RSVD that is not
zero; otherwise its body. -/
def State.hostCmd (s : State) (c : HCmd) (op : Nat) (body : State → State) : State :=
  if !s.takesCmd c.port.val c.ring.val then s
  else if !listedOp c.opcode then (s.takeCmd c).done c.cid 1
  else if c.opcode ≠ op then s
  else if !c.clean op then (s.takeCmd c).done c.cid 1
  else body (s.takeCmd c)

/-- Does a command's host own its partition (R397)? -/
def State.owns (s : State) (c : HCmd) : Bool := decide (c.part < 8) && s.defined c.part && s.owner c.part == c.port.val

/-- A command of a partition: PARTITION where the host does not own it, DMA_FAULT where a buffer failed twice (R394). -/
def State.partCmd (s : State) (c : HCmd) (op : Nat) (body : State → State) : State :=
  s.hostCmd c op (fun s =>
    if 8 ≤ c.part then s.done c.cid 1 else if !s.owns c then s.done c.cid 2 else if !c.dmaOk then s.done c.cid 4 else body s)

/-- Is a partition without a running or a staged section? -/
def State.quiet (s : State) (p : Nat) : Bool := (s.part p).run.isNone && (s.part p).staged.isNone

/-! ### The image header (R64, R350) -/

/-- Replaces bytes by zero. -/
def zeroAt (b : List Byte) (off n : Nat) : List Byte := b.take off ++ rep n 0 ++ b.drop (off + n)
/-- The 64-bit shape parameters at SHAPE_OFF (R64). -/
def Image.shapes (i : Image) : List W64 :=
  (List.range (fld i.bytes 29 1)).map (fun k => BitVec.ofNat 64 (fld i.bytes (fld i.bytes 32 8 + 8 * k) 8))
/-- SIG_OFF of an image. -/
def Image.sigOff (i : Image) : Nat := fld i.bytes 64 8
/-- The signature block. -/
def Image.block (i : Image) : List Byte := i.bytes.drop i.sigOff
/-- KIND of the signature block: 0 unsigned, 1 signed, 2 signed and encrypted. -/
def Image.kind (i : Image) : Nat := fld i.block 4 1

/-- Every header field within the range of R64, the offsets inside the image, the checksum, the signature block as R350 lays
it out, and the tables that go with the header (entry 30). -/
def Image.formatOk (i : Image) : Bool :=
  let b := i.bytes
  let n := b.length
  let so := i.sigOff
  let k := i.block
  decide (256 ≤ n) && fld b 0 4 == 0x49534756 && fld b 4 2 == 1 && fld b 8 8 == n && fld b 20 4 / 8 == 0
    && decide (1 ≤ fld b 24 1) && decide (fld b 24 1 ≤ 16) && decide (1 ≤ fld b 25 1) && decide (fld b 25 1 ≤ 16)
    && decide (1 ≤ fld b 26 2) && decide (fld b 26 2 ≤ 4096) && decide (1 ≤ fld b 28 1) && decide (fld b 28 1 ≤ 32)
    && decide (1 ≤ fld b 29 1) && decide (fld b 29 1 ≤ 64) && fld b 30 2 == 0 && fld b 76 180 == 0
    && decide (fld b 32 8 + 8 * fld b 29 1 ≤ n) && decide (fld b 40 8 < n) && decide (fld b 48 8 < n) && decide (fld b 56 8 < n)
    && so + 4736 == n && fld b 72 4 == (crc32c (zeroAt (b.take so) 72 4)).toNat
    && fld k 0 4 == 0x42534756 && decide (i.kind ≤ 2) && fld k 5 3 == 0 && fld k 1833 7 == 0 && fld k 4724 12 == 0
    && (i.kind == 2 || fld k 3120 1568 == 0) && bit (fld b 20 4) 0 == (i.kind == 2)
    && (i.kind == 0 || fld k 8 32 == (Config.shake ((k.drop 40).take 1793)).toNat)
    && decide (i.parts.length ≤ fld b 24 1 * fld b 25 1)
    && i.progs.all (fun g => decide (g.tus < fld b 24 1 * fld b 25 1))

/-- The plaintext bytes before SIG_OFF (R351): of an image encrypted to this device, bytes 256 on decrypted under the key that its KEM_CT
brings, with the header, IMAGE_CRC taken as zero, as additional data. -/
def Image.plain (i : Image) (f : Fuses) : Option (List Byte) :=
  if i.kind = 2 then
    let k := i.block
    let key := (Config.kmac (Config.kemDecap f.kemSeed ((k.drop 3120).take 1568)) (ascii "VG image" ++ (i.bytes.drop 16).take 4)).setWidth 256
    let iv := (k.drop 4688).take 12
    let body := (i.bytes.take i.sigOff).drop 256
    if fld k 4716 8 = f.serial.toNat ∧ gcmOk key iv (zeroAt (i.bytes.take 256) 72 4) body ((k.drop 4700).take 16) then
      some (i.bytes.take 256 ++ gcmXor key iv body)
    else none
  else some (i.bytes.take i.sigOff)

/-- The image digest (R351): the plaintext with IMAGE_CRC and FLAGS bit 0 zero. -/
def imageDigest (plain : List Byte) : BitVec 256 :=
  let b := zeroAt plain 72 4
  Config.shake (b.take 20 ++ [BitVec.ofNat 8 (fld b 20 1 / 2 * 2)] ++ b.drop 21)

/-- The bytes of a digest. -/
def digestBytes (d : BitVec 256) : List Byte := leBytes 32 d.toNat

/-- Steps 3 and 4 of VERIFY (R351). -/
def State.signatureOk (s : State) (p : Nat) (i : Image) (d : BitVec 256) : Bool :=
  let k := i.block
  let want := s.get (0x1200 + p) 1
  (i.kind == 0 || verifies ((k.drop 40).take 1793) (ascii "VGIS" ++ digestBytes d) ((k.drop 1840).take 1280))
    && (want == 0 || (i.kind != 0 && fld k 8 32 == want))

/-- The number of ones of a thermometer code (R342). -/
def ones (w : W64) : Nat := sumOf ((List.range 64).map (fun i => b2n (w.getLsbD i)))
/-- The fuse counter of a firmware slot's class (R342, R344). -/
def Fuses.svnOf (f : Fuses) (slot : Nat) : Nat := ones (if slot < 2 then f.svnReeve else f.svnCc)
/-- Is a firmware slot valid now (R344): its image, its key not revoked, its SVN not below the fuses? -/
def State.slotOk (s : State) (i : Nat) : Bool :=
  let k : FwSlot := Tbl.lk {} s.slots i
  k.valid && decide (s.fuses.svnOf i ≤ k.svn) && !(k.keyIndex == 0 && s.fuses.key0Revoked)
/-- The fen that keeps a partition's load from running, none where all it needs are READY (R418). -/
def State.fenDown (s : State) (p : Nat) : Option Nat :=
  if s.get 0x6020 1 ≠ 0 then some 0
  else if s.get 0x6020 2 ≠ 0 && (s.rect p).tussocks.any (fun t => fenOf t == 1) then some 1
  else none

/-- What VERIFY finds: a digest, or a load status (R68). -/
inductive Verified where
  | ok (d : BitVec 256)
  | refuse (code : Nat)
  deriving DecidableEq, Repr

/-- VERIFY of an image (R64, R344, R351, R424): form, then authenticity, then generation. -/
def State.verify (s : State) (p : Nat) (i : Image) : Verified :=
  if !i.formatOk then .refuse 0x01
  else if s.fuses.decommissioned ∨ !(s.slotOk 2 || s.slotOk 3) then .refuse 0x02
  else match i.plain s.fuses with
    | none => .refuse 0x02
    | some b =>
      let d := imageDigest b
      if !s.signatureOk p i d then .refuse 0x02
      else if fld b 6 2 ≠ s.get 0x0000 4 then .refuse 0x03
      else .ok d

/-! ### LOAD and VERIFY -/

/-- Ends a load with a refusal: the completion, the next-section areas freed (R67). -/
def State.refuseLoad (s : State) (p code dw : Nat) : State :=
  match (s.part p).staged with
  | none => s
  | some g => ((s.modPart p (fun x => { x with staged := none })).uncharge p g).loadDone p g code dw

/-- Answers a LOAD of a host that does not own the partition, on the ring it came from (entry 52). -/
def State.answerLoad (s : State) (c : HCmd) (sectionId status : Nat) : State :=
  (s.modRing c.port.val c.ring.val (fun r => { r with started := r.started.erase c.id })).notice c.port.val c.ring.val
    { type := 2, status := status, part := c.part, cmdId := c.id, body := cplBody [(8, 4, sectionId)] }

/-- LOAD (R23, R66, R68): the port engine starts STAGE and sends CC0 a section-load command. A pass of 3, a step count of 0 or a byte count that is not the image's is
BAD_COMMAND; a host that does not own the partition gets PARTITION; a load beside another gets STAGE_BUSY. -/
def execLoad (c : HCmd) (img : Image) (seed : W64) (s : State) : Host.Outcome State Fault Refusal :=
  .next (s.hostCmd c 0x01 (fun s =>
    let b := img.bytes
    let pass := c.f 24 1
    let steps := c.f 28 2
    let x : Sect :=
      { img := img, sectionId := fld b 16 4, w := fld b 24 1, h := fld b 25 1, x0 := c.f 25 1, y0 := c.f 26 1, m := fld b 26 2,
        d := fld b 28 1, pass := pass, first := BitVec.ofNat 64 (c.f 32 8), steps := steps, left := steps, seed := seed }
    let g : Staged := { port := c.port.val, ring := c.ring.val, cmdId := c.id, auto := bit (c.f 27 1) 0, sec := x }
    if 8 ≤ c.part ∨ 3 ≤ pass ∨ steps = 0 ∨ 16 ≤ x.x0 ∨ 16 ≤ x.y0 ∨ c.f 16 8 ≠ b.length then s.done c.cid 1
    else if !c.dmaOk then s.done c.cid 4
    else if !s.owns c then s.answerLoad c x.sectionId 0x05
    else if (s.part c.part).staged.isSome then s.loadDone c.part g 0x07 0
    else
      let m : RillMsg := { destT := 0, port := 26, type := 5, epoch := 0, words := [BitVec.ofNat 32 c.part], srcT := 240 * c.port.val }
      (s.modPart c.part (fun p => { p with staged := some g })).rillSend m))

/-- VERIFY (R351): the staged image is checked; a failure ends the load. With the west fen not READY every load is refused here (R418);
an east fen that is not READY counts at PREPARE, after the lower codes (R68). -/
def execVerify (part : Fin 8) (s : State) : Host.Outcome State Fault Refusal :=
  match (s.part part.val).staged with
  | none => .next s
  | some g =>
    if g.phase ≠ .staged then .next s
    else if s.fenDown part.val = some 0 then .next (s.refuseLoad part.val 0x06 0)
    else match s.verify part.val g.sec.img with
      | .refuse code => .next (s.refuseLoad part.val code 0)
      | .ok d => .next (s.modPart part.val (fun p => { p with staged := some { g with phase := .verified, sec := { g.sec with digest := d } } }))

end Sys2Proof.Machine
end

