-- ==== Sys2Proof/Machine/PrepCheck.lean ====
section
/-! DEFINITION. The checks of PREPARE on programs, handles, queues, sluices and reductions (R57 to R63, R68, R86, R100, R106 to
R108, R117, R122, R123, R226, R231, R271, R290, R291, R321, R357). -/
namespace Sys2Proof.Machine

/-- A reason to refuse a load: its status code and detail word (R68). -/
abbrev Why := Nat × Nat

/-- A reason where a condition holds. -/
def why (c : Bool) (code dw : Nat) : List Why := if c then [(code, dw)] else []

/-- The detail word of a logical reed: 32 × logical tussock + reed (entry 53). -/
def reedDw (g : ReedProg) : Nat := 32 * g.tus + g.reed

/-! ### The grid (R56, R66) -/

/-- Does a unit out of service lie in a tussock (R27, R415): its reeds, its pool, its mesh links, its fen or control core? -/
def State.tusOut (s : State) (t : Nat) : Bool :=
  s.oos.any (fun u =>
    let i := u % 2 ^ 28
    match u / 2 ^ 28 with
    | 1 => i / 24 == t
    | 2 => i == t
    | 5 => i % 256 == t
    | 8 | 9 => i == fenOf t
    | _ => false)

/-- Does the grid at an origin lie inside the partition? -/
def State.gridFits (s : State) (p : Nat) (x : Sect) (t : Nat) : Bool :=
  let r := s.rect p
  decide (r.x ≤ t / 16) && decide (t / 16 + x.w ≤ r.x + r.w) && decide (r.y ≤ t % 16) && decide (t % 16 + x.h ≤ r.y + r.h)

/-- A section at an origin. -/
def Sect.at_ (x : Sect) (t : Nat) : Sect := { x with x0 := t / 16, y0 := t % 16 }

/-- Where a grid comes to lie (R66): at its origin; inside the partition, but on a unit out of service; or nowhere inside the partition. -/
inductive Grid where
  | at_ (x : Sect)
  | onOut (x : Sect)
  | outside
  deriving DecidableEq, Repr

/-- Places the grid (R56, R66, R68). Where it fits nowhere in the partition under AUTO, whatever is out of service, the load has the status of an
origin that leaves it outside (entry 144). -/
def State.placeGrid (s : State) (p : Nat) (g : Staged) : Grid :=
  let x := g.sec
  if g.auto then
    match (List.range 256).filter (fun t => s.gridFits p x t) with
    | [] => .outside
    | t0 :: l => match (t0 :: l).find? (fun t => !(x.at_ t).tussocks.any s.tusOut) with
      | some t => .at_ (x.at_ t)
      | none => .onOut (x.at_ t0)
  else if !s.gridFits p x (16 * x.x0 + x.y0) then .outside
  else if x.tussocks.any s.tusOut then .onOut x
  else .at_ x

/-! ### Handles (R56, R106 to R108, R322) -/

/-- The copy of a tensor that a role names in a step (R322). -/
def copyOf (m : Option Manifest) (step : Nat) (role : PPRole) (t : Nat) : Nat :=
  match m with
  | none => t
  | some m => match m.pairs.find? (fun e => e.logical == t), role with
    | some e, .cur => if step % 2 = 0 then e.copy0 else e.copy1
    | some e, .next => if step % 2 = 0 then e.copy1 else e.copy0
    | _, _ => t

/-- Completes a handle template for a step (R56, R106, R322; entry 30): a logical tussock becomes the physical one, a tensor's
placement gives KIND, TARGET and BASE. -/
def completeHandle (x : Sect) (m : Option Manifest) (places : List Placement) (step : Nat) (t : HandleTmpl) : BitVec 128 :=
  let n := t.bits.toNat
  let n := if bits n 127 124 = 2 then putBits n 110 8 (x.phys (bits n 117 110)) else n
  match t.tensor with
  | none => BitVec.ofNat 128 n
  | some id =>
    let c := copyOf m step t.role id
    match places.find? (fun y => y.tensor == c) with
    | none => BitVec.ofNat 128 n
    | some y =>
      let put := fun (kind target : Nat) => BitVec.ofNat 128 (putBits (putBits (putBits n 124 4 kind) 96 6 target) 0 64 (bits n 63 0 + y.addr / 256))
      match y.space with
      | some (.hbm i) => put 3 i
      | some (.board i) => put 4 i
      | some (.host i) => put 5 i
      | _ => BitVec.ofNat 128 n

/-- A pool handle that names a tensor, completed (R56, R59, R107): BASE_SLOT and SIZE_M1 of its tiles in that pool; not VALID where the pool
holds none of it (entry 36). -/
def completePool (places : List Placement) (t id : Nat) (w : W64) : W64 :=
  match (places.find? (fun y => y.tensor == id)).bind (fun y => y.pools.find? (fun e => e.1 == t)) with
  | some (_, slot, tiles) => BitVec.ofNat 64 (putBits (putBits (putBits w.toNat 63 1 1) 48 14 slot) 34 14 (18 * tiles - 1))
  | none => BitVec.ofNat 64 (putBits w.toNat 63 1 0)

/-- The parts of a section with their pool handles completed. -/
def Sect.poolParts (x : Sect) (places : List Placement) : List TusPart :=
  ((List.range x.img.parts.length).zip x.img.parts).map (fun e =>
    { e.2 with handles := e.2.handles.map (fun h => match e.2.kept.find? (fun k => k.1 == h.1) with
        | some k => (h.1, completePool places (x.phys e.1) k.2 h.2)
        | none => h) })

/-- The pool handle entry that a reed handle names, by its logical tussock. -/
def Sect.poolEntry (x : Sect) (lt h : Nat) : Nat :=
  match (x.img.parts.getD lt {}).handles.find? (fun e => e.1 == h) with
  | some e => e.2.toNat
  | none => 0

/-- Does a range lie inside a region or a placement of the partition (R231, R357)? -/
def rangeOk (s : State) (p : Nat) (places : List Placement) (i : HInfo) : Bool :=
  let a := 256 * i.base
  let n := 256 * i.size
  let inside := fun (b m : Nat) => decide (b ≤ a) && decide (a + n ≤ b + m)
  match i.kind with
  | 3 => places.any (fun y => y.space == some (.hbm i.target) && inside y.addr y.size)
  | 4 => places.any (fun y => y.space == some (.board i.target) && inside y.addr y.size)
  | 5 => (s.part p).regions.any (fun r => r.2.port == i.target && inside r.2.base r.2.size)
  | _ => true

/-- Names a template a tensor that has no placement: PREPARE has refused the tensor itself (R221), and its handle breaks nothing more. -/
def HandleTmpl.unplaced (m : Option Manifest) (places : List Placement) (step : Nat) (t : HandleTmpl) : Bool :=
  match t.tensor with
  | some id => !places.any (fun y => y.tensor == copyOf m step t.role id)
  | none => false

/-- The fields of a handle as the checks take them, completed for a step of one parity (R322): that of a tensor without a placement counts as
HBM. -/
def HandleTmpl.info (x : Sect) (m : Option Manifest) (places : List Placement) (step : Nat) (t : HandleTmpl) : HInfo :=
  let i := HInfo.ofBits (completeHandle x m places step t)
  if t.unplaced m places step && i.kind == 0 then { i with kind := 3 } else i

/-- What a handle template itself breaks in steps of one parity (R65, R106, R108, R231). -/
def handleWhy (s : State) (p : Nat) (x : Sect) (m : Option Manifest) (places : List Placement) (g : ReedProg) (step : Nat) (t : HandleTmpl) :
    List Why :=
  let i := t.info x m places step
  let dw := reedDw g
  let lt := bits t.bits.toNat 117 110
  let top := match i.kind with | 3 => 8 | 4 | 5 => 2 | 6 => 64 | _ => 1
  let e := x.poolEntry lt i.poolHandle
  why (decide (7 ≤ i.kind) || (i.priv && i.kind != 1) || decide (top ≤ i.target) || (i.kind != 0 && i.kind != 2 && i.size == 0)) 0x04 dw
    ++ why (i.kind == 2 && decide (x.w * x.h ≤ lt)) 0x05 dw
    ++ why (i.kind == 6 && !x.img.peers.any (fun d => d.idx == i.target)) 0x05 dw
    ++ why (i.kind == 2 && !bit e 63) 0x04 dw
    ++ why (i.kind == 2 && bit e 63 && decide (14336 < bits e 61 48 + bits e 47 34 + 1)) 0x0D dw
    ++ why (i.kind == 1 && decide (1024 < i.base + i.size)) 0x0B dw
    ++ why (!t.unplaced m places step && !rangeOk s p places i) 0x05 dw
    ++ why (t.tensor.isSome && !x.img.tensors.any (fun d => some d.id == t.tensor)) 0x04 dw
    ++ why (decide (64 ≤ t.h)) 0x0A dw

/-- Is a handle read-only: by its own bit, or by its pool entry (R106, R107)? -/
def Sect.readOnly (x : Sect) (lt : Nat) (i : HInfo) : Bool := i.readOnly || (i.kind == 2 && bit (x.poolEntry lt i.poolHandle) 62)

/-- Does a descriptor keep to the channels of R226? -/
def channelOk (op : Nat) (s d : HInfo) : Bool :=
  let one := fun (i : HInfo) (src : Bool) =>
    match i.chan with
    | 0 => true
    | 1 => op == 0x30 && src && i.kind == 5
    | 2 => op != 0x30 && !src && (i.kind == 5 || i.kind == 4)
    | _ => op != 0x31 && src && i.kind == 4 && i.readOnly
  one s true && one d false && !(s.chan != 0 && d.chan != 0)

/-- What one word breaks through the handles it names (R108, R226, R291): a PRIVATE buffer is filled by the reed's own execute engine alone, which
issues FDLD only in threaded mode (R100). -/
def wordWhy (x : Sect) (m : List (Nat × HInfo × Nat)) (threaded : Bool) (dw w : Nat) : List Why :=
  let look := fun (h : Nat) => (m.find? (fun e => e.1 == h)).map (·.2)
  let op := bits w 63 56
  let (srcs, dsts) := instrHandles w
  let guardH := if op = 0xF4 ∨ op = 0xF5 then [bits w 55 50] else []
  let named := srcs ++ dsts ++ guardH
  let lost := named.any (fun h => match look h with | some (i, _) => i.kind == 0 | none => true)
  let ro := dsts.any (fun h => match look h with | some (i, lt) => x.readOnly lt i | none => false)
  let tagged := (decide (0x26 ≤ op) && decide (op ≤ 0x28)) || op == 0xF4 || op == 0xF5 || (op == 0x6A && bit w 37)
  let priv := tagged && named.any (fun h => match look h with | some (i, _) => i.priv | none => false)
  let desc := decide (0x30 ≤ op) && decide (op ≤ 0x32)
  let sent := ((op == 0x30 && !threaded) || op == 0x32 || op == 0x43) && dsts.any (fun h => match look h with | some (i, _) => i.priv | none => false)
  let chan := desc && (match srcs, dsts with
    | [a], [b] => (match look a, look b with | some (i, _), some (j, _) => !channelOk op i j | _, _ => false)
    | _, _ => false)
  let land := op == 0x43 && dsts.any (fun h => match look h with | some (i, _) => i.kind != 1 && i.kind != 2 | none => false)
  why (lost || ro || priv || sent || chan || land) 0x04 dw

/-- The handles of a program, completed for a step, with their logical tussocks. -/
def Sect.infos (x : Sect) (m : Option Manifest) (places : List Placement) (step : Nat) (g : ReedProg) : List (Nat × HInfo × Nat) :=
  g.handles.map (fun t => (t.h, t.info x m places step, bits t.bits.toNat 117 110))

/-- The handles that a word reads as a source, with their logical tussocks. -/
def readsOf (m : List (Nat × HInfo × Nat)) (w : Nat) : List (HInfo × Nat) :=
  (instrHandles w).1.filterMap (fun h => (m.find? (fun e => e.1 == h)).map (·.2))

/-! ### One program (R46, R47, R68, R83, R100, R168, R202) -/

/-- Is a bound instruction's slot left unbound, its tensor of another format, or for VCVT of a scaled tensor (R183, R194)? -/
def monBad (x : Sect) (g : ReedProg) (w : Nat) : Bool :=
  let op := bits w 63 56
  (op == 0x58 || op == 0x5C || op == 0x5D || op == 0x68) && bit w 11
    && (match (g.monitors.find? (fun e => e.1 == bits w 10 8)).bind (fun e => x.img.tensors.find? (fun t => t.id == e.2)) with
      | some t => t.fmt != wFmt w || (op == 0x58 && bits t.numerics.toNat 63 60 != 0)
      | none => true)

/-- Pieces that a run of instructions supplies less those it takes (R197): the lowest balance on the way, and the net, loops counted
with their bounds. Fuel bounds the depth. -/
def pieces : Nat → List Nat → Int × Int
  | 0, _ => (0, 0)
  | _, [] => (0, 0)
  | n + 1, w :: t =>
    let op := bits w 63 56
    if op = 0x01 then
      let len := bits w 23 12
      let b : Int := bits w 47 24
      let (m, k) := pieces n (t.take len)
      let (m', k') := pieces n (t.drop len)
      let low := if b = 0 then 0 else m + (b - 1) * min k 0
      (min low (b * k + m'), b * k + k')
    else
      let d : Int := if op = 0x42 then 128 else if op = 0x6C ∧ bits w 55 53 = 2 then -1 else 0
      let (m, k) := pieces n t
      (min 0 (d + m), d + k)

/-- The first VTILE of a run from index i, repeated so many times after so many pieces, that could take a piece none supplies: its index, or the
pieces left. Inside a LOOP that falls short, the one that does in a round of it. Fuel bounds the depth. -/
def shortVtile : Nat → Nat → Nat → Int → List Nat → Option Nat
  | 0, _, _, _, _ => none
  | _, _, _, _, [] => none
  | n + 1, i, rounds, net, w :: t =>
    let d := pieces (t.length + 2) (w :: t)
    let drop := ((rounds : Int) - 1) * min d.2 0
    if 0 ≤ net + d.1 + drop then none
    else
      let net := net + drop
      if bits w 63 56 = 0x01 then
        let len := bits w 23 12
        match shortVtile n (i + 1) (bits w 47 24) net (t.take len) with
        | some k => some k
        | none => shortVtile n (i + 1 + len) 1 (net + (bits w 47 24 : Int) * (pieces (t.length + 1) (t.take len)).2) (t.drop len)
      else
        let k := (pieces 2 [w]).2
        if net + k < 0 then some i else shortVtile n (i + 1) 1 (net + k) t

/-- The VTILE that could take a piece no earlier MOUT of the step supplies (R197), by its index. -/
def ReedProg.unsupplied (g : ReedProg) : Option Nat :=
  if g.threads = 0 then
    let rec go : List Block → Int → Option Nat
      | [], _ => none
      | b :: t, net =>
        match shortVtile (b.body.length + 1) (b.at_ + 2 + b.guards.length) b.count net b.body with
        | some i => some i
        | none => go t (net + b.count * (pieces (b.body.length + 1) b.body).2)
    go g.blocks 0
  else
    let ws := g.words.map (·.toNat)
    (List.range g.threads).findSome? (fun c =>
      let body := ((ws.drop (512 * c)).take 512).takeWhile (fun w => bits w 63 56 != 0x04)
      shortVtile (body.length + 1) (512 * c) 1 0 body)

/-- Where the loop nest of a MATOP record ends in its block (entry 31): after the LOOP at TEMPLATE_PC, or with the block's body. -/
def Matop.nestEnd (o : Matop) (b : Block) : Nat :=
  let lo := b.at_ + 2 + b.guards.length
  let w := b.body.getD (o.templatePc - lo) 0
  if bits w 63 56 = 0x01 then o.templatePc + 1 + bits w 23 12 else lo + b.body.length

/-- Does a matrix instruction of the block, outside every nest the chooser places there, name a tile below 4 − ACC_HELD (R207)? -/
def ReedProg.accTaken (g : ReedProg) (o : Matop) : Bool :=
  let holds := fun (b : Block) (m : Matop) => decide (b.at_ < m.templatePc) && decide (m.templatePc < b.at_ + 2 + b.guards.length + b.body.length)
  g.blocks.any (fun b => holds b o && ((upto (b.at_ + 2 + b.guards.length) b.body.length).zip b.body).any (fun e =>
    decide (0x41 ≤ bits e.2 63 56) && decide (bits e.2 63 56 ≤ 0x45) && decide (bits e.2 45 44 < 4 - o.accHeld)
      && !g.matops.any (fun m => holds b m && decide (m.templatePc ≤ e.1) && decide (e.1 < m.nestEnd b))))

/-- What a program breaks by itself. -/
def progWhy (s : State) (p : Nat) (x : Sect) (m : Option Manifest) (places : List Placement) (g : ReedProg) : List Why :=
  let dw := reedDw g
  let infs := [0, 1].map (fun step => x.infos m places step g)
  let enc := match checkProg g with
    | .ok => infs.flatMap (fun inf => g.instrs.flatMap (fun e => wordWhy x inf (g.threads != 0) dw e.2)
        ++ g.blocks.flatMap (fun b => b.guards.flatMap (wordWhy x inf false dw)))
    | .bad i => [(0x04, i)]
    | .tooLong => [(0x09, dw)]
  let late := g.blocks.any (fun b => decide (b.slack < 2) && b.body.any (fun w =>
    infs.any (fun inf => (readsOf inf w).any (fun k => k.1.kind == 2 || k.1.kind == 3))))
  enc ++ [0, 1].flatMap (fun step => g.handles.flatMap (handleWhy s p x m places g step))
    ++ why (g.instrs.any (fun e => monBad x g e.2)) 0x04 dw ++ g.unsupplied.toList.map (fun i => (0x04, i))
    ++ why (decide (23 < g.reed)) 0x08 dw
    ++ why (decide (64 < g.handles.length)) 0x0A dw
    ++ why (decide (256 * 1024 < g.spadBytes)) 0x0B dw
    ++ why (g.monitors.any (fun e => decide (8 ≤ e.1) || !x.img.tensors.any (fun t => t.id == e.2))) 0x04 dw
    ++ why (g.tags.any (fun t => decide (1024 ≤ t.slot)) || g.enables.any (fun e => decide (1024 ≤ e.1))) 0x04 dw
    ++ why (g.outs.any (fun o => decide (8 ≤ o.q) || o.len == 0 || decide (4095 < o.len))) 0x04 dw
    ++ why (g.outs.any (fun o => match o.dest with
        | .queue t r q => decide (x.w * x.h ≤ t) || decide (24 ≤ r) || decide (8 ≤ q)
        | .sluice t k i => decide (x.w * x.h ≤ t) || decide (16 ≤ k) || decide (17 ≤ i)
        | _ => false)) 0x05 dw
    ++ why (decide (4 < g.matops.length) || g.matops.any (fun o => o.reed != g.reed)) 0x04 dw
    ++ g.matops.flatMap (fun o => why (g.accTaken o) 0x04 o.opId)
    ++ why late 0x11 dw

/-! ### Queues and sluices (R60, R62, R63, R86, R117, R122, R123) -/

/-- The program of a logical reed. -/
def Sect.progOf (x : Sect) (lr : Nat) : Option ReedProg := x.img.progs.find? (fun g => 24 * g.tus + g.reed == lr)

/-- Is an output queue one that a path of the rate table leaves by (R60, R122): it leads to the consumer's queue, or into the sluice path that the
path passes? -/
def RatePath.leavesBy (e : RatePath) (o : OutDecl) : Bool :=
  match e.via, o.dest with
  | none, .queue t r q => 24 * t + r == e.consumer && q == e.queue
  | some v, .sluice t k _ => (t, k) == v
  | _, _ => false
/-- Does a word of a producer's program use the path? -/
def RatePath.fedBy (e : RatePath) (g : ReedProg) (w : Nat) : Bool := g.outs.any (fun o => e.leavesBy o && givesQueue o.q w)
/-- The blocks of a producer's program that use the path. -/
def RatePath.feeds (e : RatePath) (g : ReedProg) : List Block := g.blocks.filter (fun b => (b.guards ++ b.body).any (e.fedBy g))
/-- The blocks of a consumer's program that use the path. -/
def RatePath.drains (e : RatePath) (g : ReedProg) : List Block := g.blocks.filter (fun b => (b.guards ++ b.body).any (takesQueue e.queue))

/-- Firings of blocks that have started by a time, each later than its nominal start by at most lag. -/
def startedBy (bs : List Block) (lag : Nat → Nat) (t : Nat) : Nat :=
  sumOf (bs.map (fun b =>
    let l := lag b.slack
    if t < b.base + l then 0 else Nat.min b.count (if b.period = 0 then b.count else (t - b.base - l) / b.period + 1)))

/-- The largest occupancy of a queue under the nominal schedule (R63): each block that produces at its nominal start, each that consumes at its own
plus its slack band. A firing that consumes in the cycle in which another produces has not yet taken its tokens (entry 145). -/
def occupancy (prod cons : List Block) (e : RatePath) : Nat :=
  let times := prod.flatMap (fun b => (List.range b.count).map (fun j => b.base + j * b.period))
  maxOf (times.map (fun t =>
    startedBy prod (fun _ => 0) t * e.outTokens - (if t = 0 then 0 else startedBy cons id (t - 1)) * e.inTokens))

/-- Firings per step that produce on a path: of its producer's blocks that use it, or as the rate table declares them across a lode. -/
def RatePath.produced (x : Sect) (e : RatePath) : Option Nat :=
  match e.producer with
  | .lode _ n => some n
  | .reed lr => (x.progOf lr).map (fun g => g.firingsBy (e.fedBy g))

/-- The nominal occupancy of a path's queue, where both its ends keep a nominal schedule: one of a threaded program, or across a lode, keeps none
here, and its queue is not measured (R38; entry 143). -/
def RatePath.filled (x : Sect) (e : RatePath) : Option Nat :=
  match e.producer with
  | .lode _ _ => none
  | .reed lr => match x.progOf lr, x.progOf e.consumer with
    | some a, some b => if a.threads = 0 ∧ b.threads = 0 then some (occupancy (e.feeds a) (e.drains b) e) else none
    | _, _ => none

/-- What a queue path of the rate table breaks (R62, R63, R118). -/
def pathWhy (x : Sect) (i : Nat) (e : RatePath) : List Why :=
  match e.produced x, x.progOf e.consumer with
  | some n, some b =>
    why (n * e.outTokens != b.firingsBy (takesQueue e.queue) * e.inTokens) 0x10 i ++ why (decide (32 < (e.filled x).getD 0)) 0x0E i
      ++ why (decide (8 ≤ e.queue) || e.len == 0 || decide (4095 < e.len)) 0x04 i
  | _, _ => [(0x05, i)]

/-- The GQIN words of a block name the input queues that its firings take tokens of, with the rate table's counts, and no others (R86). -/
def guardsWhy (x : Sect) (g : ReedProg) : List Why :=
  let want := x.img.paths.filter (fun e => e.consumer == 24 * g.tus + g.reed)
  why (g.blocks.any (fun b =>
    let have_ := (b.guards.filter (fun w => bits w 63 56 == 0xF2)).map (fun w => (bits w 50 48, bits w 47 40))
    let need := (want.filter (fun e => b.body.any (takesQueue e.queue))).map (fun e => (e.queue, e.inTokens))
    have_.any (fun e => !(want.map (fun e => (e.queue, e.inTokens))).contains e) || need.any (fun e => !have_.contains e))) 0x10 (reedDw g)

/-- The detail word of a sluice path: 32 × logical tussock + path (entry 53). -/
def sluiceDw (lt k : Nat) : Nat := 32 * lt + k

/-- The pool slots of a tussock that kept activations hold (R59, R65). -/
def keptSlots (places : List Placement) (t : Nat) : Nat :=
  18 * sumOf (places.flatMap (fun y => (y.pools.filter (fun e => e.1 == t)).map (fun e => e.2.2)))

/-- What the sluice settings and the pool of a logical tussock break. -/
def sluiceWhy (x : Sect) (places : List Placement) (lt : Nat) : List Why :=
  let q := x.img.parts.getD lt {}
  let ep := fun (i : Nat) => match q.eps.find? (fun e => e.1 == i) with | some e => e.2.toNat | none => 0
  let used := q.paths.filter (fun e => bits e.2.toNat 63 62 != 0)
  used.flatMap (fun e =>
    let w := e.2.toNat
    let dw := sluiceDw lt e.1
    let base := bits w 40 35
    let fan := bits w 56 53 + 1
    let ends := bits w 34 29 :: upto base fan
    let ins := if bits w 63 62 = 1 then [bits w 34 29] else upto base fan
    let lens := ins.filterMap (fun i =>
      let n := ep i
      (x.progOf (24 * bits n 30 23 + bits n 22 18)).bind (fun g => (g.outs.find? (fun o => o.q == bits n 17 15)).map (·.len)))
      ++ (x.img.paths.filter (fun f => f.via == some (lt, e.1))).map (·.len)
    why (bits w 63 62 == 3 || bits w 28 0 != 0 || bits w 52 41 == 0 || decide (23 < bits w 61 57) || decide (64 < base + fan)
        || decide (16 ≤ e.1) || ends.any (fun i => !bit (ep i) 31 || bits (ep i) 14 0 != 0 || decide (23 < bits (ep i) 22 18))) 0x04 dw
      ++ why (ends.any (fun i => decide (x.w * x.h ≤ bits (ep i) 30 23))) 0x05 dw
      ++ why (lens.any (fun n => n != bits w 52 41) || decide (1 < (used.filter (fun f => bits f.2.toNat 61 57 == bits w 61 57)).length)) 0x10 dw)
    ++ why (decide (256 < q.handles.length) || q.handles.any (fun e => decide (256 ≤ e.1))) 0x0A (32 * lt)
    ++ why (q.handles.any (fun e => bits e.2.toNat 33 0 != 0)) 0x04 (32 * lt)
    ++ why (decide (14336 < q.slots + keptSlots places (x.phys lt)) || decide (512 * 1024 < q.bytes) || q.tags.any (fun t => decide (14336 ≤ t.slot))
        || q.handles.any (fun e => bit e.2.toNat 63 && decide (14336 < bits e.2.toNat 61 48 + bits e.2.toNat 47 34 + 1))) 0x0D (32 * lt)

/-- What the sluices' rates break (R62). -/
def ratesWhy (x : Sect) : List Why := x.img.sluices.flatMap (fun e => why (e.control != e.packets) 0x10 (sluiceDw e.tus e.path))

/-! ### The manifest and its groups (R290, R291, R321) -/

/-- The manifest a load works under: the registered one, or the image's own digest and no groups (R291). -/
def State.manifestFor (s : State) (p : Nat) (x : Sect) : Manifest :=
  match (s.part p).manifest with
  | some m => m
  | none => { bytes := digestBytes x.digest, digests := [x.digest], startStep := x.first }

/-- The groups whose box holds the device (R291). -/
def State.bind (s : State) (m : Manifest) : List GroupDecl := m.groups.filter (fun g => inBox g.box s.self)

/-- What one bound group breaks (R290, R291). -/
def groupWhy (places : List Placement) (m : Manifest) (g : GroupDecl) : List Why :=
  let hbm := fun (id : Nat) => places.any (fun y => y.tensor == id && (match y.space with | some (.hbm _) => true | _ => false))
  let held := fun (id : Nat) => match m.pairs.find? (fun e => e.logical == id) with
    | some e => hbm e.copy0 && hbm e.copy1
    | none => hbm id
  why (decide (16 ≤ g.group) || !inBox g.box g.root || decide (256 ≤ g.thin) || g.thin / 4 != 0 || g.slots % 2 != 0 || decide (g.slots < 2)
      || decide (384 < g.slots) || g.contrib == 0 || decide (256 < g.contrib) || g.tensors.isEmpty || decide (4096 < g.tensors.length)
      || g.rsvd != 0 || g.tensors.any (fun t => t.rows == 0 || t.cols == 0 || (t.fmt != 1 && t.fmt != 2) || t.rsvd != 0
        || (g.thinning == 0 && (t.efId != 0 || t.refId != 0)))) 0x04 g.group
    ++ why (decide (65536 < g.members.length * g.contrib)) 0x0F g.group
    ++ why (g.thinning != 0 && g.tensors.any (fun t => !held t.efId || !held t.refId)) 0x0F g.group

/-- What the manifest and the bound groups break. -/
def State.manifestWhy (s : State) (p : Nat) (x : Sect) (m : Manifest) (places : List Placement) : List Why :=
  let gs := s.bind m
  let others := (List.range 8).filter (· != p) |>.flatMap (fun q => s.boundGroups q)
  let kept := fun (id : Nat) => places.any (fun y => y.tensor == id && bit y.word.toNat 53
    && (match y.space with | some (.hbm _) => true | some (.board _) => true | _ => false))
  why (!m.digests.contains x.digest) 0x02 0
    ++ gs.flatMap (groupWhy places m)
    ++ why (decide (16 < gs.length) || !(gs.map (·.group)).Nodup) 0x04 0
    ++ why (decide (384 < sumOf ((gs ++ others).map (·.slots)))) 0x0F 0
    ++ m.pairs.flatMap (fun e => why (e.rsvd != 0) 0x04 e.logical
        ++ why (decide (1 < (m.pairs.filter (fun f => f.logical == e.logical)).length) || !kept e.copy0 || !kept e.copy1) 0x0F e.logical)

/-- The quadrant tiles of an MSUMP, by the TILE_SEQ of its first (R292, R293). -/
def GroupDecl.quads (g : GroupDecl) (q : Nat) : List Nat :=
  match g.tileOf q with
  | some (t, row, col, _) => [(0, 0), (0, 1), (1, 0), (1, 1)].filterMap (fun d => g.seqOf t.id (row + d.1) (col + d.2))
  | none => []

/-- Does a list never fall? -/
def rising : List Nat → Bool
  | a :: b :: t => decide (a ≤ b) && rising (b :: t)
  | _ => true

/-- The lode groups over which a section's traffic leaves the device (R277, R287, R292): toward the devices of its output queues and
peer descriptors, and down and up the trees of its multicasts and reduction groups. -/
def State.linksOf (s : State) (x : Sect) (gs : List GroupDecl) : List Nat :=
  let far := x.img.progs.flatMap (fun g => g.outs.filterMap (fun o => match o.dest with | .lode d _ _ => some d | _ => none))
    ++ (x.img.peers.filter (fun d => d.multicast.isNone)).map (·.dev)
  let near := x.img.mgroups.flatMap (fun e => mcKids s.self e.2 s.self) ++ gs.flatMap (fun g => (g.parentOf s.self).toList ++ g.kidsOf s.self)
  (far.filterMap s.groupTo ++ near.filterMap (fun d => s.groupHop d [0, 1, 2])).eraseDups
/-- A torus link over which the mapping routes is absent: no lode of its group is in service (R273). -/
def State.linkWhy (s : State) (x : Sect) (gs : List GroupDecl) : List Why :=
  (s.linksOf x gs).flatMap (fun g => why (s.groupUp g).isEmpty 0x06 g)

/-- What the MSUMPs break (R291, R300): a sump half out of service, their groups by program, their declarations by group. -/
def State.sumpWhy (s : State) (p : Nat) (x : Sect) (gs : List GroupDecl) : List Why :=
  let bound := fun (n : Nat) => gs.any (fun g => g.group == n) && bit (s.get (0x3610 + p) 1) n
  why (!gs.isEmpty && (s.isOut (sumpUnit 0) || s.isOut (sumpUnit 1))) 0x06 0
    ++ x.img.progs.flatMap (fun g => why (g.instrs.any (fun e => bits e.2 63 56 == 0x43 && !bound (bits e.2 19 16))) 0x05 (reedDw g))
    ++ x.img.sumps.flatMap (fun d => match gs.find? (fun g => g.group == d.group) with
        | none => [(0x05, d.tensor)]
        | some g =>
          let wrong := fun (q : Nat) => match g.tileOf q with | some (t, _) => t.id != d.tensor | none => true
          why (!g.tensors.any (fun t => t.id == d.tensor) || d.tiles.any wrong) 0x10 d.tensor)
    ++ gs.flatMap (fun g =>
        let ds := x.img.sumps.filter (fun d => d.group == g.group)
        let all := ds.flatMap (fun d => d.tiles.flatMap g.quads)
        let reeds := (ds.map (·.reed)).eraseDups
        why (!ds.isEmpty && (List.range g.total).any (fun q => all.count q != g.contrib)) 0x10 g.group
          ++ reeds.flatMap (fun r =>
            let own := (ds.filter (fun d => d.reed == r)).flatMap (·.tiles)
            why (!rising own) 0x10 r))

end Sys2Proof.Machine
end

