-- ==== Sys2Proof/Machine/Schedule.lean ====
section
/-! DEFINITION. What the control cores complete in a program template at PREPARE (R57, R60, R64, R92, R213): loop bounds and firing counts from
the shape parameters and M, and the nominal schedule with its slack bands. -/
namespace Sys2Proof.Machine

/-! ### Loop bounds and firing counts (R60, R64) -/

/-- Replaces a word of a list. -/
def setWord (l : List W64) (i : Nat) (f : Nat → Nat) : List W64 := l.modify i (fun w => BitVec.ofNat 64 (f w.toNat))

/-- The bounds and counts of a template that have no place in their 24-bit fields, or name no shape parameter or no LOOP or FIRE word. -/
def ReedProg.unfit (g : ReedProg) (x : Sect) : Bool :=
  let op := fun (i : Nat) => bits (g.words.getD i 0).toNat 63 56
  g.bounds.any (fun e => op e.1 != 0x01 || (match x.img.shapes[e.2]? with | some v => decide (2 ^ 24 ≤ v.toNat) | none => true))
    || g.counts.any (fun e => op e.1 != 0xF0 || decide (2 ^ 24 ≤ e.2 * x.m))

/-- A template with its loop bounds and its firing counts (R57, R60, R64). -/
def ReedProg.bounded (g : ReedProg) (x : Sect) : ReedProg :=
  let ws := g.bounds.foldl (fun ws e => setWord ws e.1 (fun w => putBits w 24 24 (x.img.shapes.getD e.2 0).toNat)) g.words
  { g with words := g.counts.foldl (fun ws e => setWord ws e.1 (fun w => putBits w 24 24 (e.2 * x.m))) ws }

/-! ### Issue counts (R92) -/

/-- Cycles for which an instruction holds the issue slot (R92). -/
def issueCost (w : Nat) : Nat :=
  let op := bits w 63 56
  let wide := wFmt w == 0 || (op == 0x58 && wS2 w == 0)
  if op = 0x30 then 0
  else if op = 0x6A ∨ op = 0x6B then 2
  else if op = 0x6C then (if bits w 55 53 = 2 then 2 else 1)
  else if op = 0x54 ∨ op = 0x55 then (if wide then 16 else 4)
  else if op = 0x5C ∨ op = 0x5D ∨ (0x60 ≤ op ∧ op ≤ 0x64) then 2
  else if op = 0x65 then 4
  else if ((0x50 ≤ op ∧ op ≤ 0x5B) ∨ (0x66 ≤ op ∧ op ≤ 0x69)) ∧ wide then 4
  else 1

/-- The issue count of a body, loops counted with their bounds. Fuel bounds the depth. -/
def issueCount : Nat → List Nat → Nat
  | 0, _ => 0
  | _, [] => 0
  | n + 1, w :: t =>
    if bits w 63 56 = 0x01 then
      1 + bits w 47 24 * issueCount n (t.take (bits w 23 12)) + issueCount n (t.drop (bits w 23 12))
    else issueCost w + issueCount n t

/-! ### The nominal schedule (R213) -/

/-- What the chooser makes of a section: its records with their nests, and what it refuses. -/
structure Choices where
  recs : List (ReedProg × Matop × Choice × List NestRun) := []
  bad : List Why := []
  deriving DecidableEq, Repr

/-- A block of the section: its program, its header, the nominal duration of its firing, and its slack band. -/
structure Node' where
  prog : ReedProg
  blk : Block
  dur : Nat
  slack : Nat
  deriving DecidableEq, Repr

/-- A matrix operation lies in a block. -/
def Block.holds (b : Block) (o : Matop) : Bool := decide (b.at_ ≤ o.templatePc) && decide (o.templatePc < b.at_ + 2 + b.guards.length + b.body.length)

/-- The slack that a block's reads ask for (R213), capped at 255. -/
def blockSlack (x : Sect) (lt : Nat) (inf : List (Nat × HInfo × Nat)) (body : List Nat) : Nat :=
  Nat.min 255 (maxOf (body.flatMap (fun w => (readsOf inf w).map (fun k =>
    match k.1.kind with
    | 2 => if k.2 = lt then 2 else 5
    | 3 => if k.1.target / 4 = fenOf (x.phys lt) then 91 else 160
    | _ => 0))))

/-- The blocks of the section's programs in order, with durations: the E of the matrix operations that lie in a block, else its issue count. -/
def Sect.nodes (x : Sect) (m : Option Manifest) (places : List Placement) (cs : Choices) : List Node' :=
  x.img.progs.flatMap (fun g =>
    let inf := x.infos m places 0 g
    g.blocks.map (fun b =>
      let es := (cs.recs.filter (fun r => r.1.tus == g.tus && r.1.reed == g.reed && b.holds r.2.1)).map (fun r => r.2.2.1.e)
      { prog := g, blk := b, dur := if es.isEmpty then issueCount (b.body.length + 1) b.body else sumOf es,
        slack := blockSlack x g.tus inf b.body }))

/-- Nominal reed cycles of a token on a path (R45, R118): 2 within a tussock, 12 to another one (the 24 mesh cycles of four hops), 144 across a
lode (288 mesh cycles); entry 147. -/
def RatePath.transfer (e : RatePath) : Nat :=
  match e.producer with
  | .lode _ _ => 144
  | .reed lr => if lr / 24 = e.consumer / 24 then 2 else 12

/-- What a node waits for: the nodes that feed it, each with the transfer time, and the node before it in its program. -/
structure Feeds where
  feeds : List (Nat × Nat)
  prev : Option Nat
  deriving DecidableEq, Repr

/-- The firing graph of a section (R213). -/
def Sect.graph (x : Sect) (ns : List Node') : List Feeds :=
  let idx := (List.range ns.length).zip ns
  let lr := fun (g : ReedProg) => 24 * g.tus + g.reed
  idx.map (fun (i, n) =>
    let ins := x.img.paths.filter (fun e => e.consumer == lr n.prog && (n.blk.guards ++ n.blk.body).any (takesQueue e.queue))
    let feeds := ins.flatMap (fun e => (idx.filter (fun (_, f) => e.producer == .reed (lr f.prog) && (f.blk.guards ++ f.blk.body).any (e.fedBy f.prog))).map
      (fun (k, _) => (k, e.transfer)))
    let before := (idx.filter (fun (k, f) => decide (k < i) && lr f.prog == lr n.prog)).map (·.1)
    { feeds := feeds, prev := before.getLast? })

/-- One round of NOM_PERIOD: the larger of a firing's duration and the period of every block that feeds it. A complete program keeps its own. -/
def periodRound (ns : List Node') (gs : List Feeds) (ps : List Nat) : List Nat :=
  (ns.zip gs).map (fun (n, g) => if n.prog.fixed then n.blk.period else Nat.max n.dur (maxOf (g.feeds.map (fun e => ps.getD e.1 0))))
/-- One round of NOM_BASE: the latest time at which a first input token is delivered, after the blocks before it in the program (entry 147). -/
def baseRound (ns : List Node') (gs : List Feeds) (ps bs : List Nat) : List Nat :=
  let dur := fun (i : Nat) => ((ns[i]?).map (·.dur)).getD 0
  let count := fun (i : Nat) => ((ns[i]?).map (fun n => n.blk.count)).getD 1
  (ns.zip gs).map (fun (n, g) =>
    if n.prog.fixed then n.blk.base
    else
      let ended := match g.prev with | some k => bs.getD k 0 + (count k - 1) * ps.getD k 0 + dur k | none => 0
      Nat.max ended (maxOf (g.feeds.map (fun e => bs.getD e.1 0 + dur e.1 + e.2))))
/-- Rounds of a pass; as many as there are blocks find the longest path of an acyclic graph. -/
def passes (f : List Nat → List Nat) : Nat → List Nat → List Nat
  | 0, l => l
  | n + 1, l => passes f n (f l)

/-- The static schedule of a section: every block with NOM_BASE and NOM_PERIOD (R213). -/
def Sect.schedule (x : Sect) (ns : List Node') : List (Node' × Nat × Nat) :=
  let gs := x.graph ns
  let zero := ns.map (fun _ => 0)
  let ps := passes (periodRound ns gs) ns.length zero
  let bs := passes (baseRound ns gs ps) ns.length zero
  ns.zip (bs.zip ps)

/-- The detail word of a block: 65,536 × its reed's detail word + the index of its FIRE word (entry 53). -/
def blockDw (g : ReedProg) (i : Nat) : Nat := 65536 * reedDw g + i

/-- What the schedule breaks (R213): a nominal length or a period beyond its field. -/
def scheduleWhy (l : List (Node' × Nat × Nat)) : List Why :=
  l.flatMap (fun (n, b, p) =>
    why (decide (2 ^ 32 ≤ b + (n.blk.count - 1) * p + n.dur) || (!n.prog.fixed && decide (2 ^ 24 ≤ p))) 0x10 (blockDw n.prog n.blk.at_))

/-- Writes the schedule into the FIRE and FIRET words of the programs (R84, R213). -/
def ReedProg.scheduled (g : ReedProg) (l : List (Node' × Nat × Nat)) : ReedProg :=
  if g.fixed then g
  else { g with words := (l.filter (fun e => e.1.prog.tus == g.tus && e.1.prog.reed == g.reed)).foldl (fun ws (n, b, p) =>
    setWord (setWord ws n.blk.at_ (fun w => putBits w 48 8 n.slack)) (n.blk.at_ + 1) (fun w => putBits (putBits w 24 32 b) 0 24 p)) g.words }

/-! ### Mesh links (R27, R245, R415) -/

/-- The links along a row between two columns, each by its code and router. -/
def rowLinks (y a b : Nat) : List (Nat × Nat) :=
  let lo := Nat.min a b
  let hi := Nat.max a b
  (upto lo (hi - lo)).flatMap (fun c => [(1, 16 * c + y), (3, 16 * (c + 1) + y)])

/-- The first of the four columns of a stack's grips (R245). -/
def gripCols (i : Nat) : List Nat := upto (stackCol i) 4

/-- The links of the grid over which a tussock's traffic with the edge passes (R245): along its row to the columns of the stacks it names, whose
grips it uses, and to the outer column of its fen's crossbar half. -/
def edgeLinks (t : Nat) (stackList : List Nat) (half : Bool) : List (Nat × Nat) :=
  let x := t / 16
  let y := t % 16
  (stackList.flatMap gripCols).flatMap (fun c => rowLinks y x c ++ [(4, 16 * c + y), (5, 16 * c + y)])
    ++ (if half then rowLinks y x (15 * fenOf t) else [])

/-- What links out of service keep a section from using (R27). -/
def State.edgeWhy (s : State) (x : Sect) (m : Option Manifest) (places : List Placement) : List Why :=
  let gone := (s.oos.filter (fun u => decide (u / 2 ^ 28 = 5))).map (fun u => (bits u 11 9, u % 512 % 256))
  if gone.isEmpty then []
  else
    let sumps := x.img.sumps.map (·.reed)
    x.img.progs.flatMap (fun g =>
      let ks := [0, 1].flatMap (fun step => (x.infos m places step g).map (fun k => k.2.1))
      let stackList := ((ks.filter (fun i => i.kind == 3)).map (·.target)).eraseDups
      let half := ks.any (fun i => decide (4 ≤ i.kind)) || sumps.contains (24 * g.tus + g.reed)
        || g.outs.any (fun o => match o.dest with | .lode _ _ _ => true | _ => false)
      why ((edgeLinks (x.phys g.tus) stackList half).any gone.contains) 0x06 (reedDw g))

end Sys2Proof.Machine
end

