-- ==== Sys2Proof/Machine/Prepare.lean ====
section
/-! DEFINITION. PREPARE (R32, R57 to R63, R66 to R68, R200 to R215, R220 to R223, R291, R305): resolving, checking, the mapping
digest, the fingerprint and ARM. -/
namespace Sys2Proof.Machine

/-! ### Tensors (R59, R162, R220 to R223) -/

/-- What a tensor's words break (R162, R220). -/
def tensorWhy (gs : List GroupDecl) (t : TensorDecl) : List Why :=
  let grad := bits t.numerics.toNat 40 9
  why (!numericsOk t.numerics t.fmt || !placementOk t.placement t.recomputable || !fmtPlaces t.fmt || t.rows == 0 || t.cols == 0
    || (grad != 0 && !gs.any (fun g => g.tensors.any (fun e => e.id == grad)))) 0x04 t.id

/-- Does an entry of the placement table agree with the image's tensor (R222)? -/
def agrees (y : Placement) (t : TensorDecl) : Bool := y.rows == t.rows && y.cols == t.cols && y.fmt == t.fmt && y.word == t.placement

/-- The fen of a tensor's logical column. -/
def Sect.fenOfCol (x : Sect) (c : Nat) : Nat := fenOf (16 * (x.x0 + c))

/-- Resolves a list of tensors in order: the new placements, the pool tiles left, and the tensors that fit nowhere. -/
def State.resolveAll (s : State) (p : Nat) (x : Sect) : List TensorDecl → List Placement → List PoolRange → List Why →
    List Placement × List PoolRange × List Why
  | [], extra, pool, bad => (extra, pool, bad)
  | t :: ts, extra, pool, bad =>
    match s.resolve p extra pool t (if t.kept then x.d else 1) (x.fenOfCol t.column) with
    | some (y, pool) => s.resolveAll p x ts (extra ++ [y]) pool bad
    | none => s.resolveAll p x ts extra pool (bad ++ [(0x0F, t.id)])

/-- Does a placement lie on a unit since taken out of service (R27): a region of a stack, or the board tier? -/
def State.placedOut (s : State) (y : Placement) : Bool :=
  match y.space with
  | some (.hbm i) => s.oos.any (fun u => decide (u / 2 ^ 28 = 3) && bits u 27 24 == i && overlap y.addr y.size ((u % 65536) * mib) mib)
  | some (.board _) => s.boardOut
  | _ => false

/-- The placements a load adds, and what it breaks by them (R59, R221, R222). A tensor of a ping-pong pair has its two copies'
entries and none of its own (R321). -/
def State.placeTensors (s : State) (p : Nat) (x : Sect) (m : Manifest) : List Placement × List Why :=
  let own := (s.part p).places
  let fresh := x.img.tensors.filter (fun t => !own.any (fun y => y.tensor == t.id) && !m.pairs.any (fun e => e.logical == t.id))
  let any := fun (t : TensorDecl) => bits t.placement.toNat 63 60 == 0
  let (e1, pool, b1) := s.resolveAll p x (fresh.filter any) [] (poolFree x own) []
  let (e2, _, b2) := s.resolveAll p x (fresh.filter (fun t => !any t)) e1 pool b1
  let clash := x.img.tensors.flatMap (fun t => match own.find? (fun y => y.tensor == t.id) with
    | some y => why (!agrees y t) 0x01 t.id ++ why (s.placedOut y) 0x06 t.id
    | none => [])
  (e2, clash ++ b2 ++ why (decide (4096 < own.length + e2.length)) 0x0F 0)

/-! ### The tile chooser's part (R202 to R212) -/

/-- Reads of a program by source kind. A ping-pong tensor counts where its copy of an even step lies, so that the choice does not depend on the
load's first step (R200; entry 146). -/
def Sect.kinds (x : Sect) (m : Option Manifest) (places : List Placement) (g : ReedProg) : List (Nat × Nat) :=
  let inf := x.infos m places 0 g
  g.instrs.flatMap (fun e => (instrHandles e.2).1.filterMap (fun h => (inf.find? (fun k => k.1 == h)).map (fun k => (k.2.1.kind, k.2.1.target))))

/-- The nominal rate of a handle of a program (R211); none for a scratchpad. -/
def Sect.rate (x : Sect) (m : Option Manifest) (places : List Placement) (g : ReedProg) (h : Nat) : Option TierRate :=
  let fen := fenOf (x.phys g.tus)
  let sharers := fun (k : Nat) (t : Option Nat) =>
    Nat.max 1 (x.img.progs.filter (fun o => fenOf (x.phys o.tus) == fen
      && (x.kinds m places o).any (fun e => e.1 == k && (t.isNone || t == some e.2)))).length
  match (x.infos m places 0 g).find? (fun k => k.1 == h) with
  | none => none
  | some (_, i, lt) =>
    match i.kind with
    | 2 => if lt = g.tus then some { key := 0, num := 85, den := 1 } else some { key := 1, num := 21, den := 1 }
    | 3 => if i.target / 4 = fen then some { key := 2, num := 12800, den := sharers 3 none } else some { key := 3, num := 8192, den := sharers 3 none }
    | 4 => some { key := 4 + i.target, num := 341, den := sharers 4 (some i.target) }
    | 5 => some { key := 6 + i.target, num := 151, den := sharers 5 (some i.target) }
    | _ => none

/-- Firings per step of the block in which a matrix operation lies (R215). -/
def ReedProg.countAt (g : ReedProg) (pc : Nat) : Nat :=
  match g.blocks.find? (fun b => decide (b.at_ ≤ pc) && decide (pc < b.at_ + 2 + b.guards.length + b.body.length)) with
  | some b => b.count
  | none => 1

/-- Every MATOP record with its program, in OP_ID order. -/
def Sect.ops (x : Sect) : List (ReedProg × Matop) :=
  let all := x.img.progs.flatMap (fun g => g.matops.map (fun o => (g, o)))
  let ins := fun (l : List (ReedProg × Matop)) (e : ReedProg × Matop) =>
    l.takeWhile (fun f => decide (f.2.opId ≤ e.2.opId)) ++ e :: l.dropWhile (fun f => decide (f.2.opId ≤ e.2.opId))
  all.foldl ins []

/-- Runs the chooser over the section in OP_ID order (R68, R200, R215): the records chosen before the first refusal, and all that is refused. -/
def Sect.chooseAll (x : Sect) (m : Option Manifest) (places : List Placement) : List (ReedProg × Matop) → Choices → Choices
  | [], r => r
  | (g, o) :: t, r =>
    match choose o x.img.shapes (g.countAt o.templatePc) 256 (x.rate m places g) with
    | .choice c n => x.chooseAll m places t (if r.bad.isEmpty then { r with recs := r.recs ++ [(g, o, c, n)] } else r)
    | .refuse code => x.chooseAll m places t { r with bad := r.bad ++ [(code, o.opId)] }

/-! ### Digest and fingerprint (R32, R305) -/

/-- The bytes of a placement that the mapping holds: tier, stack or controller, channel and address. -/
def Placement.mapBytes (y : Placement) : List Byte :=
  let (k, t) := match y.space with | some sp => sp.kindTarget | none => (0, 0)
  leBytes 4 y.tensor ++ leBytes 1 k ++ leBytes 1 t ++ leBytes 8 y.addr ++ leBytes 8 y.size
    ++ y.pools.flatMap (fun e => leBytes 1 e.1 ++ leBytes 2 e.2.1 ++ leBytes 2 e.2.2)

/-- The mapping digest of a section (R32), over the items in the manual's order; the manual does not fix their layout (entry
55): the torus and this device's address, the mire, membership and root of each group, the tussocks and reeds, the placements, those of
a ping-pong tensor's two copies (R321), the choices. -/
def State.mappingDigest (s : State) (x : Sect) (m : Manifest) (places : List Placement) (cs : List Choice) : W64 :=
  let copies := fun (id : Nat) => match (m.pairs.find? (fun e => e.logical == id)) with | some e => [e.copy0, e.copy1] | none => [id]
  let used := x.img.tensors.flatMap (fun t => (copies t.id).flatMap (fun c => places.filter (fun y => y.tensor == c)))
  let gs := x.groups.flatMap (fun g => leBytes 1 g.group ++ g.box.flatMap (leBytes 1) ++ leBytes 2 g.root ++ leBytes 2 g.contrib ++ leBytes 2 g.slots)
  let reeds := x.img.progs.flatMap (fun g => leBytes 2 (x.reedOf g))
  let b := leBytes 4 (s.get 0x3000 1) ++ leBytes 2 s.self ++ leBytes 8 (s.get 0x3000 3) ++ leBytes 2 s.master ++ gs
    ++ x.tussocks.flatMap (leBytes 1) ++ reeds ++ used.flatMap Placement.mapBytes ++ cs.flatMap Choice.bytes
  BitVec.ofNat 64 (Config.shake b).toNat

/-- The entries of the configuration class (R384), in ascending order. -/
def classEntries : List (Nat × Nat) :=
  [(0x3000, 1), (0x3300, 1), (0x3300, 2), (0x3400, 1), (0x3400, 2), (0x3400, 4), (0x3600, 1)] ++ (List.range 8).map (fun p => (0x3610 + p, 1))
    ++ [(0x3800, 1), (0x3800, 2), (0x5010, 1), (0x8010, 1), (0x8010, 2), (0x8010, 3)]

/-- The configuration fingerprint (R305): 8 bytes of the digest of "VGCF", the manifest and the configuration class. -/
def State.fingerprint (s : State) (m : Manifest) : W64 :=
  let entry := fun (e : Nat × Nat) =>
    let n := match entryAt e.1 e.2 with | some d => d.ty.len | none => 0
    leBytes 2 e.1 ++ leBytes 1 e.2 ++ leBytes 2 n ++ leBytes n (s.get e.1 e.2)
  BitVec.ofNat 64 (Config.shake (leBytes 4 (asciiNat "VGCF".toList) ++ m.bytes ++ classEntries.flatMap entry)).toNat

/-- The manifest as the fingerprint takes it: one that is not registered is the digest and the start step (R291; entry 55). -/
def Manifest.forPrint (m : Manifest) (registered : Bool) : Manifest :=
  if registered then m else { m with bytes := m.bytes ++ leBytes 8 m.startStep.toNat }

/-! ### PREPARE and ARM -/

/-- The lowest status of a list of reasons (R68): of equal ones the first found. -/
def lowest : List Why → Option Why
  | [] => none
  | w :: t => match lowest t with | none => some w | some v => if v.1 < w.1 then some v else some w

/-- What PREPARE makes of a placed section: the section as resolved, its new placements, its choices, and what it breaks. -/
structure Prepared where
  sec : Sect
  places : List Placement
  choices : List Choice
  bad : List Why
  deriving DecidableEq, Repr

/-- Resolves, completes and checks a section (R57 to R64, R68, R200, R213, R221, R291). -/
def State.prepare (s : State) (p : Nat) (x : Sect) : Prepared :=
  let m := s.manifestFor p x
  let gs := s.bind m
  let unfit := x.img.progs.flatMap (fun g => why (g.unfit x) 0x04 (reedDw g))
  let x := { x with img := { x.img with progs := x.img.progs.map (·.bounded x) } }
  let (extra, bt) := s.placeTensors p x m
  let places := (s.part p).places ++ extra
  let x := { x with img := { x.img with parts := x.poolParts places } }
  let cs := x.chooseAll (some m) places x.ops {}
  let l := x.schedule (x.nodes (some m) places cs)
  let x := { x with img := { x.img with progs := x.img.progs.map (·.scheduled l) }, nests := cs.recs.map (fun r => (r.2.1.opId, r.2.2.2)) }
  let recs := cs.recs.map (fun r => r.2.2.1)
  let same := fun (g h : ReedProg) => g.tus == h.tus && g.reed == h.reed
  let twice := x.img.progs.flatMap (fun g => why (decide (1 < (x.img.progs.filter (same g)).length)) 0x08 (reedDw g))
  let ids := x.ops.map (fun e => e.2.opId)
  let bad := x.img.tensors.flatMap (tensorWhy gs) ++ bt ++ unfit ++ cs.bad ++ scheduleWhy l ++ twice
    ++ ((ids.filter (fun i => decide (1 < ids.count i))).take 1).map (fun i => (0x04, i))
    ++ s.manifestWhy p x m places ++ s.sumpWhy p x gs ++ s.linkWhy x gs ++ s.edgeWhy x (some m) places
    ++ x.img.progs.flatMap (fun g => progWhy s p x (some m) places g ++ guardsWhy x g)
    ++ ((List.range x.img.paths.length).zip x.img.paths).flatMap (fun e => pathWhy x e.1 e.2)
    ++ (List.range (x.w * x.h)).flatMap (sluiceWhy x places) ++ ratesWhy x ++ (s.fenDown p).toList.map (fun f => (0x06, f))
  let y := { x with groups := gs, uses := x.img.tensors.map (fun (t : TensorDecl) => t.id), drainLimit := s.get 0x5010 1,
                    fingerprint := s.fingerprint (m.forPrint (s.part p).manifest.isSome) }
  { sec := { y with mapping := s.mappingDigest y m places recs }, places := extra, choices := recs, bad := bad }

/-- Is the device's mire time base locked (R280, R289)? The master's own is the reference. -/
def State.locked (s : State) : Bool := s.master == s.self || s.get 0x3400 5 == 2

/-- Sends a message of a partition to a member of the mire on the rill extension; one to this device goes to its CC0. The first
payload word holds the sender's address × 8 + the partition (entry 56). -/
def State.mireSend (s : State) (p dev type : Nat) (fp : W64) (words : List W32) : State :=
  let m : RillMsg := { destT := 0, port := 26, type := type, epoch := 0, words := BitVec.ofNat 32 (8 * s.self + p) :: words, srcT := 0, dev := dev, fp := fp }
  if dev = s.self then s.modFen 0 (fun f => { f with mail := f.mail ++ [m] }) else s.rillExt m

/-- The armed notice to the mire master (R67, R281): fingerprint, first step, MIRE_BOX and MIRE_MASTER; a member that is not
locked sends none. -/
def State.armNotice (s : State) (p : Nat) (x : Sect) : State :=
  if !s.locked then s
  else s.mireSend p s.master 1 x.fingerprint
    (w2 x.fingerprint ++ w2 x.first ++ w2 (BitVec.ofNat 64 (s.get 0x3000 3)) ++ [BitVec.ofNat 32 s.master])

/-- The detail word of a grid on a unit out of service: the fen that is not READY (R418), or the first logical tussock out of service. -/
def State.gridDw (s : State) (p : Nat) (g : Staged) : Nat :=
  match s.fenDown p with
    | some f => f
    | none => if g.auto then 0 else 32 * (((List.range (g.sec.w * g.sec.h)).find? (fun lt => s.tusOut (g.sec.phys lt))).getD 0)

/-- Has every control core whose fen holds tussocks of the partition done its share (R23)? -/
def State.shared (s : State) (p : Nat) (g : Staged) : Bool :=
  g.shares.contains 0 && (decide ((s.rect p).x + (s.rect p).w ≤ 8) || g.shares.contains 1)

/-- PREPARE (R23, R67, R200): once both control cores have their shares, places, resolves, checks and completes a verified load in a number of microseconds. A refusal ends
the load and charges nothing; otherwise its placements are charged and it arms, outside a mire at once. -/
def execPrepare (part : Fin 8) (us : Nat) (s : State) : Host.Outcome State Fault Refusal :=
  let p := part.val
  match (s.part p).staged with
  | none => .next s
  | some g =>
    if g.phase ≠ .verified || !s.shared p g then .next s
    else match s.placeGrid p g with
      | .outside =>
        -- a lower code of the image itself still comes first (R68): the programs are checked as if placed at tussock 0
        let w := (lowest ((s.prepare p (g.sec.at_ 0)).bad.filter (fun w => decide (w.1 < 0x05)))).getD (0x05, 0)
        .next ((s.modPart p (fun q => { q with choices := [] })).refuseLoad p w.1 w.2)
      | .onOut x =>
        let w := (lowest ((s.prepare p x).bad.filter (fun w => decide (w.1 < 0x06)))).getD (0x06, s.gridDw p g)
        .next ((s.modPart p (fun q => { q with choices := [] })).refuseLoad p w.1 w.2)
      | .at_ x =>
        let r := s.prepare p x
        let g : Staged := { g with sec := r.sec, prepUs := us }
        let added := r.places.map (fun (y : Placement) => y.tensor)
        let s := s.modPart p (fun q => { q with choices := r.choices, staged := some g })
        match lowest r.bad with
        | some w => .next (s.refuseLoad p w.1 w.2)
        | none =>
          let s := (s.modPart p (fun q => { q with places := q.places ++ r.places })).recount p
          let g : Staged := { g with added := added }
          if s.inMire then .next ((s.modPart p (fun q => { q with staged := some { g with phase := .notice } })).armNotice p r.sec)
          else .next ((s.modPart p (fun q => { q with staged := some { g with phase := .armed } })).loadDone p g 0 0)

end Sys2Proof.Machine
end

