-- ==== Sys2Proof/Machine/Transc.lean ====
section
/-! DEFINITION. The transcendental functions of R196, correctly rounded to FP32: each is enclosed between two exact
values by integer arithmetic with 200 fractional bits; where both round alike that is the result, and otherwise
the value is free (Config.transcendental, entry 5). -/
namespace Sys2Proof

/-- Fractional bits of the fixed-point enclosures. -/
def tP : Nat := 200

/-- Sum of z^(2i+1)/(2i+1) for i from a given index down the fuel, in fixed point, for the inverse hyperbolic tangent. -/
def atanhSum : Nat → Nat → Nat → Int → Int → Int
  | 0, _, _, _, acc => acc
  | n + 1, i, k, p, acc => atanhSum n (i + 1) k (p * (k : Int) / 2 ^ tP) (acc + p / ((2 * i + 1 : Nat) : Int))

/-- log((1+z)/(1-z)) in fixed point for z in fixed point, |z| at most 1/3. -/
def logRatio (z : Int) : Int := 2 * atanhSum 70 0 (z * z / 2 ^ tP).toNat z 0

/-- The natural logarithm of 2 in fixed point. -/
def ln2Fix : Int := logRatio (2 ^ tP / 3)

/-- Taylor sum of the exponential in fixed point: fuel, next term number, current term, sum. -/
def expSum : Nat → Nat → Int → Int → Int → Int
  | 0, _, _, _, acc => acc
  | n + 1, i, r, t, acc => expSum n (i + 1) r (t * r / 2 ^ tP / ((i : Nat) : Int)) (acc + t)

/-- exp of a fixed-point number: a significand near 1 in fixed point and a binary exponent. -/
def expFix (x : Int) : Nat × Int :=
  let k := x / ln2Fix
  let r := x - k * ln2Fix
  ((expSum 70 1 r (2 ^ tP) 0).toNat, k)

/-- The error allowed for in a fixed-point result, in its last place. -/
def tErr : Nat := 2 ^ 24

/-- The FP32 rounding on which both ends of an enclosure agree, or the free value. -/
def pick (fn : Nat) (x : W32) (neg : Bool) (lo hi : Nat) (e : Int) : W32 :=
  let a := toF32 (.fin neg lo e true)
  let b := toF32 (.fin neg hi e false)
  if a = b then a else Config.transcendental fn x

/-- A finite FP32 value in fixed point (exact: 200 fractional bits hold every FP32 number). -/
def fixOf (neg : Bool) (m : Nat) (e : Int) : Int := finInt neg m e (-(tP : Int))

/-- exp (R196). -/
def fpExp (x : W32) : W32 :=
  match f32 x with
  | .nan => 0x7FC00000#32
  | .inf n => if n then 0#32 else 0x7F800000#32
  | .fin neg m e _ =>
    if m = 0 then 0x3F800000#32
    else if floorLog2 m e ≥ 7 then (if neg then 0#32 else 0x7F800000#32)
    else
      let (s, k) := expFix (fixOf neg m e)
      pick 0 x false (s - tErr) (s + tErr) (k - tP)

/-- The logarithm of a positive finite value in fixed point: the significand is taken between 2/3 and 4/3 before the
series, so that nothing cancels near 1. -/
def logFix (m : Nat) (e : Int) : Int :=
  let l := floorLog2 m e
  let s : Nat := m * 2 ^ (tP + 1 - bitLen m)
  -- s / 2^(tP) lies in [1, 2)
  let (s, l) := if 3 * s > 4 * 2 ^ tP then ((s : Int), l + 1) else (2 * (s : Int), l)
  -- s / 2^(tP+1) lies in [2/3, 4/3]
  let one : Int := 2 ^ (tP + 1)
  let z := (s - one) * 2 ^ tP / (s + one)
  l * ln2Fix + logRatio z

/-- A signed fixed-point enclosure rounded to FP32. -/
def pickInt (fn : Nat) (x : W32) (v : Int) : W32 :=
  let n := v.natAbs
  if n ≤ tErr then Config.transcendental fn x else pick fn x (decide (v < 0)) (n - tErr) (n + tErr) (-(tP : Int))

/-- The natural logarithm (R196). -/
def fpLog (x : W32) : W32 :=
  match f32 x with
  | .nan => 0x7FC00000#32
  | .inf n => if n then 0x7FC00000#32 else 0x7F800000#32
  | .fin neg m e _ =>
    if m = 0 then 0xFF800000#32
    else if neg then 0x7FC00000#32
    else if x = 0x3F800000#32 then 0#32
    else pickInt 1 x (logFix m e)

/-- The reciprocal square root, from an integer square root and an exact remainder test (R196). -/
def fpRsqrt (x : W32) : W32 :=
  match f32 x with
  | .nan => 0x7FC00000#32
  | .inf n => if n then 0x7FC00000#32 else 0#32
  | .fin neg m e _ =>
    if m = 0 then (if neg then 0xFF800000#32 else 0x7F800000#32)
    else if neg then 0x7FC00000#32
    else
      let odd := e % 2 != 0
      let n := if odd then 2 * m else m
      let d := if odd then e - 1 else e
      let q := isqrt (2 ^ 240 / n)
      toF32 (.fin false q (-(d / 2) - 120) (q * q * n != 2 ^ 240))

/-- The logistic sigmoid (R196). -/
def fpSigm (x : W32) : W32 :=
  match f32 x with
  | .nan => 0x7FC00000#32
  | .inf n => if n then 0#32 else 0x3F800000#32
  | .fin neg m e _ =>
    if m = 0 then 0x3F000000#32
    else if floorLog2 m e ≥ 7 then (if neg then 0#32 else 0x3F800000#32)
    else
      -- with t = exp(-|x|): the result is t/(1+t) for x < 0 and 1/(1+t) for x > 0
      let (s, k) := expFix (fixOf true m e)
      let up : Nat := (-k).toNat
      let den := 2 ^ (tP + up) + s
      let num := if neg then s else 2 ^ (tP + up)
      let q := num * 2 ^ (tP + up) / den
      pick 3 x false (q - tErr) (q + tErr) (-((tP + up : Nat) : Int))

/-- The hyperbolic tangent (R196). Below 2^-13 the value lies less than a quarter unit of the last place under x. -/
def fpTanh (x : W32) : W32 :=
  match f32 x with
  | .nan => 0x7FC00000#32
  | .inf n => if n then 0xBF800000#32 else 0x3F800000#32
  | .fin neg m e _ =>
    if m = 0 then x
    else if floorLog2 m e < -13 then x
    else if floorLog2 m e ≥ 4 then (if neg then 0xBF800000#32 else 0x3F800000#32)
    else
      -- with t = exp(-2|x|): the magnitude is (1-t)/(1+t)
      let (s, k) := expFix (2 * fixOf true m e)
      let up : Nat := (-k).toNat
      let one := 2 ^ (tP + up)
      let q := (one - s) * 2 ^ tP / (one + s)
      pick 4 x neg (q - tErr) (q + tErr) (-(tP : Int))

end Sys2Proof
end

