-- ==== Sys2Proof/Machine/Vector.lean ====
section
/-! DEFINITION. The vector engine (R163, R166, R179 to R198): lanes, lengths, monitors and every vector instruction. -/
namespace Sys2Proof.Machine

/-- The lanes a format gives (R179); FP64 has 32 over a register pair (R180). -/
def fmtLanes (f : Fmt) : Nat := if f = .fp64 then 32 else 1024 / f.width

/-- Reads the elements of a register (of a pair for FP64). -/
def Reed.lanes (x : Reed) (k i : Nat) (f : Fmt) : List Nat :=
  let cut (w : Nat) (n : Nat) (v : VReg) : List Nat := (List.range n).map (fun j => bits v.toNat (w * j + w - 1) (w * j))
  if f = .fp64 then cut 64 16 (x.getV k i) ++ cut 64 16 (x.getV k (i + 1)) else cut f.width (1024 / f.width) (x.getV k i)

/-- Packs elements of a width from bit 0 up. -/
def packBits (w : Nat) (l : List Nat) : Nat := l.foldr (fun e acc => e % 2 ^ w + acc * 2 ^ w) 0

/-- Writes elements from lane 0; every lane above them is zero (R182). -/
def State.putLanes (s : State) (r : RR) (i : Nat) (f : Fmt) (l : List Nat) : State :=
  if f = .fp64 then
    (s.putV r i (BitVec.ofNat 1024 (packBits 64 (l.take 16)))).putV r (i + 1) (BitVec.ofNat 1024 (packBits 64 ((l.drop 16).take 16)))
  else s.putV r i (BitVec.ofNat 1024 (packBits f.width l))

/-- The registers an operand occupies. -/
def vSpecs (x : Reed) (k i : Nat) (f : Fmt) : List Nat := if f = .fp64 then [spV x k i, spV x k (i + 1)] else [spV x k i]

/-- Issues a vector operation (R181): the VL check, its effect, and its result outstanding until it completes (R88). -/
def State.vop (s : State) (r : RR) (i : Instr) (srcs dst : List Nat) (limit : Nat) (body : State → Nat → Issue) : State :=
  s.issue r i srcs (fun t =>
    let vl := (t.ctxOf r).vl.toNat
    if vl = 0 ∨ vl > limit then
      .fault (t.reedFault r.reed.val .vectorLength (t.ctxOf r).pc.toNat [(16, r.reed.val), (16, (t.ctxOf r).pc.toNat), (8, vl)])
    else match body t vl with
      | .go u => .go (u.addOp r.reed.val .vector 0 dst)
      | o => o)

/-- Issues a vector operation that VL does not govern. -/
def State.vopFree (s : State) (r : RR) (i : Instr) (srcs dst : List Nat) (body : State → Issue) : State :=
  s.issue r i srcs (fun t => match body t with
    | .go u => .go (u.addOp r.reed.val .vector 0 dst)
    | o => o)

/-- The rounding of element n (R155, R184): for RND = 1 the Philox word of the element the S registers name. -/
def State.vRnd (s : State) (r : RR) (o : VOpt) (purpose sub n : Nat) : Rnd :=
  match o.rnd with
  | .near => .near
  | .toZero => .toZero
  | .stoch =>
    let c := s.ctxOf r
    let cols := o.fmt.cols
    .stoch (randWord (s.jobSeed r.reed.val) ((c.getS 15).toNat + n / cols * (c.getS 13).toNat + n % cols) purpose sub
      (c.getS 14) (s.stepOf r.reed.val))

/-- An elementwise operation: on floating-point formats an exact value rounded once (R185), on INT32 and IDX32 a
function of the two patterns. -/
def State.vmap (s : State) (r : RR) (i : Instr) (o : VOpt) (dst : Fin 32) (srcs : List (Fin 32)) (fl : List Val → Val) (int : List Nat → Nat) : State :=
  let k := r.ctx.val
  let x := s.reed r.reed.val
  s.vop r i (srcs.flatMap (fun i => vSpecs x k i.val o.fmt)) (vSpecs x k dst.val o.fmt) (fmtLanes o.fmt) (fun t vl =>
    let cols := srcs.map (fun i => (t.reed r.reed.val).lanes k i.val o.fmt)
    let out := (List.range vl).map (fun n =>
      let es := cols.map (fun c => c.getD n 0)
      if o.fmt.isInt then int es
      else (o.fmt.encode (t.vRnd r o 2 o.sr.toNat n) false (fl (es.map o.fmt.decode))).bits)
    .go (t.putLanes r dst.val o.fmt out))

/-- The first, second and third operand. -/
def arg1 (l : List Val) : Val := l.getD 0 .nan
/-- The second operand. -/
def arg2 (l : List Val) : Val := l.getD 1 .nan
/-- The third operand. -/
def arg3 (l : List Val) : Val := l.getD 2 .nan
/-- An integer function of two patterns. -/
def intOp (f : Nat → Nat → Nat) (l : List Nat) : Nat := f (l.getD 0 0) (l.getD 1 0)
/-- The larger of two integer patterns, signed on INT32 and unsigned on IDX32 (R185). -/
def intMax (f : Fmt) (a b : Nat) : Nat :=
  if f = .int32 then (if toSigned 32 a < toSigned 32 b then b else a) else Nat.max a b
/-- The smaller of two integer patterns (R185). -/
def intMin (f : Fmt) (a b : Nat) : Nat :=
  if f = .int32 then (if toSigned 32 a < toSigned 32 b then a else b) else Nat.min a b

/-- VADD (R185). -/
def execVadd (r : RR) (o : VOpt) (dst a b : Fin 32) (s : State) : Host.Outcome State Fault Refusal :=
  .next (s.vmap r (.vadd r o dst a b) o dst [a, b] (fun l => (arg1 l).add (arg2 l)) (intOp (fun x y => (x + y) % 2 ^ 32)))
/-- VSUB (R185). -/
def execVsub (r : RR) (o : VOpt) (dst a b : Fin 32) (s : State) : Host.Outcome State Fault Refusal :=
  .next (s.vmap r (.vsub r o dst a b) o dst [a, b] (fun l => (arg1 l).sub (arg2 l)) (intOp (fun x y => (x + (2 ^ 32 - y)) % 2 ^ 32)))
/-- VMUL (R185). -/
def execVmul (r : RR) (o : VOpt) (dst a b : Fin 32) (s : State) : Host.Outcome State Fault Refusal :=
  .next (s.vmap r (.vmul r o dst a b) o dst [a, b] (fun l => (arg1 l).mul (arg2 l)) (intOp (fun x y => x * y % 2 ^ 32)))
/-- VFMA (R185): the product is exact, the sum is rounded once. -/
def execVfma (r : RR) (o : VOpt) (dst a b c : Fin 32) (s : State) : Host.Outcome State Fault Refusal :=
  .next (s.vmap r (.vfma r o dst a b c) o dst [a, b, c] (fun l => ((arg1 l).mul (arg2 l)).add (arg3 l)) (fun _ => 0))
/-- VDIV (R185). -/
def execVdiv (r : RR) (o : VOpt) (dst a b : Fin 32) (s : State) : Host.Outcome State Fault Refusal :=
  .next (s.vmap r (.vdiv r o dst a b) o dst [a, b] (fun l => (arg1 l).div (arg2 l)) (fun _ => 0))
/-- VSQRT (R185). -/
def execVsqrt (r : RR) (o : VOpt) (dst a : Fin 32) (s : State) : Host.Outcome State Fault Refusal :=
  .next (s.vmap r (.vsqrt r o dst a) o dst [a] (fun l => (arg1 l).sqrt) (fun _ => 0))
/-- VMAX (R185). -/
def execVmax (r : RR) (o : VOpt) (dst a b : Fin 32) (s : State) : Host.Outcome State Fault Refusal :=
  .next (s.vmap r (.vmax r o dst a b) o dst [a, b] (fun l => (arg1 l).max (arg2 l)) (intOp (intMax o.fmt)))
/-- VMIN (R185). -/
def execVmin (r : RR) (o : VOpt) (dst a b : Fin 32) (s : State) : Host.Outcome State Fault Refusal :=
  .next (s.vmap r (.vmin r o dst a b) o dst [a, b] (fun l => (arg1 l).min (arg2 l)) (intOp (intMin o.fmt)))

/-! ### Monitor slots (R163, R183) -/

/-- A magnitude as an FP32 pattern rounded toward +∞ and kept finite (R163). DESIGN CHOICE (entry 131): an INT32 or IDX32 input that FP32
does not hold is rounded in the same way, since the manual gives a rounding for FP64 inputs alone. -/
def amaxBits (v : Val) : W32 :=
  match v with
  | .fin _ m e s =>
    let lo := (Fmt.fp32.encode .toZero false (.fin false m e s)).bits
    if (f32 (BitVec.ofNat 32 lo)).lt (.fin false m e s) then BitVec.ofNat 32 (Nat.min (lo + 1) 0x7F7FFFFF) else BitVec.ofNat 32 lo
  | _ => 0

/-- The larger of two nonnegative FP32 patterns. -/
def maxW (a b : W32) : W32 := if a.toNat < b.toNat then b else a

/-- One element's part in the counts of a monitor slot. -/
structure MonCount where
  v : Val
  zero : Bool
  under : Bool
  overR : Bool
  deriving DecidableEq, Repr

/-- Adds elements to a monitor slot (R163): AMAX over finite inputs, the other counts as they fall. -/
def MonSlot.add (m : MonSlot) (l : List MonCount) : MonSlot :=
  let n (p : MonCount → Bool) : Nat := (l.filter p).length
  { m with
    amax := l.foldl (fun a c => maxW a (amaxBits c.v)) m.amax
    elems := m.elems + BitVec.ofNat 64 l.length
    zeros := m.zeros + BitVec.ofNat 64 (n (·.zero))
    unders := m.unders + BitVec.ofNat 64 (n (·.under))
    overs := BitVec.ofNat 32 (satAdd 32 m.overs.toNat (n (·.overR)))
    nonfin := BitVec.ofNat 32 (satAdd 32 m.nonfin.toNat (n (fun c => !c.v.isFin))) }

/-- The monitor slot an instruction is bound to. -/
def State.monOf (s : State) (r : RR) (o : VOpt) : Option MonSlot :=
  o.mon.map (fun i => Tbl.lk {} (s.reed r.reed.val).mon i.val)

/-- Adds to the slot an instruction is bound to; nothing for an unbound one. -/
def State.monAdd (s : State) (r : RR) (o : VOpt) (l : List MonCount) : State :=
  match o.mon with
  | none => s
  | some i => s.modReed r.reed.val (fun x => { x with mon := Tbl.mod {} x.mon i.val (fun m => m.add l) })

/-- The fields of a NUMERICS word that a conversion needs (R162). -/
def numMode (w : W64) : Nat := bits w.toNat 63 60
/-- HEADROOM (R162). -/
def numHeadroom (w : W64) : Nat := bits w.toNat 59 57
/-- OVF_NAN (R162). -/
def numOvfNan (w : W64) : Bool := bit w.toNat 51

/-- The scale code of a block in BLOCK mode (R166). -/
def blockCode (f : Fmt) (headroom : Nat) (vs : List Val) : Nat :=
  if vs.any (fun v => !v.isFin) then 255
  else
    let top : Val := vs.foldl (fun (a v : Val) => a.max v.abs) (Val.zero false)
    match top with
    | .fin _ m e _ =>
      if m = 0 then 127
      else
        let c := floorLog2 m e - (f.emax : Int) + headroom + 127
        if c < 0 then 0 else if c > 254 then 254 else c.toNat
    | _ => 255

/-! ### Conversion (R155, R184, R192 to R194) -/

/-- VCVT (R194): element i of the source becomes element i of the destination. -/
def execVcvt (r : RR) (o : VOpt) (dst a : Fin 32) (src : Fmt) (s : State) : Host.Outcome State Fault Refusal :=
  let k := r.ctx.val
  let x := s.reed r.reed.val
  .next (s.vop r (.vcvt r o dst a src) (vSpecs x k a.val src) (vSpecs x k dst.val o.fmt) (Nat.min (fmtLanes src) (fmtLanes o.fmt)) (fun t vl =>
    let ovf := match t.monOf r o with | some m => numOvfNan m.numerics | none => false
    let vs := (((t.reed r.reed.val).lanes k a.val src).take vl).map src.decode
    let cs := (List.range vl).map (fun n => o.fmt.encode (t.vRnd r o 0 0 n) ovf (vs.getD n .nan))
    let counts := (vs.zip cs).map (fun (v, c) =>
      { v := v, zero := (o.fmt.decode c.bits).isZero, under := c.under, overR := c.overR : MonCount })
    .go ((t.putLanes r dst.val o.fmt (cs.map (·.bits))).monAdd r o counts)))

/-- VPACK (R192): the first VL elements of four FP32 registers, scaled by block and packed from byte 0. -/
def execVpack (r : RR) (o : VOpt) (dst a : Fin 32) (sc : Fin 16) (s : State) : Host.Outcome State Fault Refusal :=
  let k := r.ctx.val
  let x := s.reed r.reed.val
  let regs := upto a.val 4
  .next (s.vop r (.vpack r o dst a sc) (spS k sc.val :: regs.map (spV x k)) [spV x k dst.val, spS k sc.val] 128 (fun t vl =>
    let y := t.reed r.reed.val
    let vs := ((regs.flatMap (fun i => y.lanes k i .fp32)).take vl).map Fmt.fp32.decode
    let p := ((t.ctxOf r).getS sc.val).toNat
    let mon := t.monOf r o
    let code (b : Nat) : Nat :=
      let part := (vs.drop (32 * b)).take 32
      if part.isEmpty then 127
      else match mon with
        | none => bits p (8 * b + 7) (8 * b)
        | some m =>
          if numMode m.numerics = 1 then (if m.calib then blockCode o.fmt 0 part else m.scale.toNat)
          else if numMode m.numerics = 2 then blockCode o.fmt (numHeadroom m.numerics) part
          else 127
    let codes := (List.range 4).map code
    let ovf := match mon with | some m => numOvfNan m.numerics | none => false
    let one (n : Nat) : Nat × MonCount :=
      let v := vs.getD n .nan
      let e := codes.getD (n / 32) 127
      if e = 255 then (o.fmt.nanBits, { v := v, zero := false, under := false, overR := false })
      else
        let c := o.fmt.encode (t.vRnd r o 0 0 n) ovf (v.scale (127 - (e : Int)))
        (c.bits, { v := v, zero := (o.fmt.decode c.bits).isZero, under := c.under, overR := c.overR })
    let out := (List.range vl).map one
    let t := t.putV r dst.val (BitVec.ofNat 1024 (packBits o.fmt.width (out.map (·.1))))
    let t := if o.mon.isSome then t.putS r sc.val (BitVec.ofNat 32 (packBits 8 codes)) else t
    .go (t.monAdd r o (out.map (·.2)))))

/-- VUNPK (R193): 128 packed elements times their scales, into four FP32 registers; VL does not limit it. -/
def execVunpk (r : RR) (o : VOpt) (dst a : Fin 32) (sc : Fin 16) (s : State) : Host.Outcome State Fault Refusal :=
  let k := r.ctx.val
  let x := s.reed r.reed.val
  .next (s.vopFree r (.vunpk r o dst a sc) [spS k sc.val, spV x k a.val] ((upto dst.val 4).map (spV x k)) (fun t =>
    let n := (t.v r a.val).toNat
    let p := ((t.ctxOf r).getS sc.val).toNat
    let w := o.fmt.width
    let el (i : Nat) : Nat :=
      let e := bits p (8 * (i / 32) + 7) (8 * (i / 32))
      let v := o.fmt.decode (bits n (w * i + w - 1) (w * i))
      (toF32 (if e = 255 then .nan else v.scale ((e : Int) - 127))).toNat
    .go ((List.range 4).foldl (fun t j => t.putLanes r (dst.val + j) .fp32 ((upto (32 * j) 32).map el)) t)))

/-! ### Compare, select, broadcast (R186) -/

/-- A VCMP predicate from less-than and equality; with a NaN operand only "not equal" holds. -/
def VPred.holds (p : VPred) (nan lt eq : Bool) : Bool :=
  match p with
  | .eq => !nan && eq | .ne => nan || !eq | .lt => !nan && lt | .le => !nan && (lt || eq)

/-- Compares two patterns of a format (R186). -/
def cmpBits (f : Fmt) (p : VPred) (a b : Nat) : Bool :=
  let x := f.decode a
  let y := f.decode b
  p.holds (x.isNan || y.isNan) (x.lt y) (x.eq y)

/-- VCMP (R186): all ones where the predicate holds, at the width of the format. -/
def execVcmp (r : RR) (o : VOpt) (dst a b : Fin 32) (p : VPred) (s : State) : Host.Outcome State Fault Refusal :=
  let k := r.ctx.val
  let x := s.reed r.reed.val
  .next (s.vop r (.vcmp r o dst a b p) (vSpecs x k a.val o.fmt ++ vSpecs x k b.val o.fmt) (vSpecs x k dst.val o.fmt) (fmtLanes o.fmt) (fun t vl =>
    let y := t.reed r.reed.val
    let la := y.lanes k a.val o.fmt
    let lb := y.lanes k b.val o.fmt
    .go (t.putLanes r dst.val o.fmt ((List.range vl).map (fun n =>
      if cmpBits o.fmt p (la.getD n 0) (lb.getD n 0) then 2 ^ o.fmt.width - 1 else 0)))))

/-- VSEL (R186): lane i of SRC1 where lane i of the mask is not zero, else of SRC2. -/
def execVsel (r : RR) (o : VOpt) (dst a b m : Fin 32) (s : State) : Host.Outcome State Fault Refusal :=
  let k := r.ctx.val
  let x := s.reed r.reed.val
  let srcs := vSpecs x k a.val o.fmt ++ vSpecs x k b.val o.fmt ++ vSpecs x k m.val o.fmt
  .next (s.vop r (.vsel r o dst a b m) srcs (vSpecs x k dst.val o.fmt) (fmtLanes o.fmt) (fun t vl =>
    let y := t.reed r.reed.val
    let la := y.lanes k a.val o.fmt
    let lb := y.lanes k b.val o.fmt
    let lm := y.lanes k m.val o.fmt
    .go (t.putLanes r dst.val o.fmt ((List.range vl).map (fun n => if lm.getD n 0 ≠ 0 then la.getD n 0 else lb.getD n 0)))))

/-- VBCAST (R186): the S register into every lane, its low 16 bits into every 16-bit lane. DEDUCED (entry 24): every lane
is written, whatever VL holds. -/
def execVbcast (r : RR) (o : VOpt) (dst : Fin 32) (src : Fin 16) (s : State) : Host.Outcome State Fault Refusal :=
  let k := r.ctx.val
  .next (s.vop r (.vbcast r o dst src) [spS k src.val] (vSpecs (s.reed r.reed.val) k dst.val o.fmt) (fmtLanes o.fmt) (fun t _ =>
    .go (t.putLanes r dst.val o.fmt (rep (fmtLanes o.fmt) ((t.ctxOf r).getS src.val).toNat))))

/-! ### Reductions and statistics (R187, R188) -/

/-- The result of a VRED over exact values (R187). -/
def reduce (kind : RedKind) (vs : List Val) : Val :=
  match kind with
  | .max => match vs with | [] => .zero false | v :: t => t.foldl Val.max v
  | .sum =>
    let v := vs.foldl Val.add (.zero false)
    if v.isZero then .zero false else v
  | .sumsq => vs.foldl (fun a v => a.add (v.mul v)) (.zero false)

/-- The counts of an inspecting instruction (R183). -/
def inspect (vs : List Val) : List MonCount := vs.map (fun v => { v := v, zero := v.isZero, under := false, overR := false })

/-- Does the reduction unit serve an MSUMP (R189)? -/
def Reed.msumpBusy (x : Reed) : Bool := x.matq.any (fun o => o.done && (match o.kind with | .msump .. => true | _ => false))

/-- VRED (R187): reduces the elements below VL to one FP32 value; waits while the unit serves an MSUMP (R189). -/
def execVred (r : RR) (o : VOpt) (dst : Fin 16) (a : Fin 32) (kind : RedKind) (s : State) : Host.Outcome State Fault Refusal :=
  let k := r.ctx.val
  let x := s.reed r.reed.val
  .next (s.vop r (.vred r o dst a kind) (vSpecs x k a.val o.fmt) [spS k dst.val] (fmtLanes o.fmt) (fun t vl =>
    if (t.reed r.reed.val).msumpBusy then .wait .busy
    else
      let vs := (((t.reed r.reed.val).lanes k a.val o.fmt).take vl).map o.fmt.decode
      .go ((t.putS r dst.val (toF32 (reduce kind vs))).monAdd r o (inspect vs))))

/-- Rounds to FP64, ties to even, and reads it back exactly (R188). -/
def rd64 (v : Val) : Val := f64 (toF64 v)

/-- One element added to the statistics (R188): words SUM, SUMSQ, COUNT, AMAX and NONFINITE. -/
def statStep (w : List Nat) (x : Val) : List Nat :=
  let g (i : Nat) : Val := Fmt.fp64.decode (w.getD i 0)
  let p (v : Val) : Nat := (toF64 v).toNat
  let one : Val := .fin false 1 0 false
  let w := setAt w 0 (p ((g 0).add x))
  let w := setAt w 1 (p ((g 1).add (x.mul x)))
  let w := setAt w 2 (p ((g 2).add one))
  if x.isFin then setAt w 3 (p ((g 3).max x.abs)) else setAt w 6 (p ((g 6).add one))

/-- FINISH (R188): mean and variance, zero for no elements, a negative variance taken as zero and a NaN kept. -/
def statFinish (w : List Nat) : List Nat :=
  let g (i : Nat) : Val := Fmt.fp64.decode (w.getD i 0)
  let p (v : Val) : Nat := (toF64 v).toNat
  if (g 2).isZero then setAt (setAt w 4 0) 5 0
  else
    let mean := rd64 ((g 0).div (g 2))
    let var := rd64 ((rd64 ((g 1).div (g 2))).sub (rd64 (mean.mul mean)))
    setAt (setAt w 4 (p mean)) 5 (if var.lt (.zero false) then 0 else p var)

/-- VSTAT (R188): FP64 statistics in the destination register. -/
def execVstat (r : RR) (o : VOpt) (dst a : Fin 32) (kind : StatKind) (s : State) : Host.Outcome State Fault Refusal :=
  let k := r.ctx.val
  let x := s.reed r.reed.val
  .next (s.vop r (.vstat r o dst a kind) [spV x k dst.val, spV x k a.val] [spV x k dst.val] (fmtLanes o.fmt) (fun t vl =>
    if (t.reed r.reed.val).msumpBusy then .wait .busy
    else
      let n := (t.v r dst.val).toNat
      let w := (List.range 16).map (fun i => bits n (64 * i + 63) (64 * i))
      match kind with
      | .init => .go (t.putV r dst.val 0)
      | .finish => .go (t.putV r dst.val (BitVec.ofNat 1024 (packBits 64 (statFinish w))))
      | .accum =>
        let vs := (((t.reed r.reed.val).lanes k a.val o.fmt).take vl).map o.fmt.decode
        .go ((t.putV r dst.val (BitVec.ofNat 1024 (packBits 64 (vs.foldl statStep w)))).monAdd r o (inspect vs))))

/-! ### Random draws and transcendentals (R195, R196) -/

/-- The fault VECTOR_OPERAND. -/
def State.operandFault (s : State) (r : RR) : State := s.reedFault r.reed.val .vectorOperand (s.ctxOf r).pc.toNat []

/-- VRAND (R195): Philox words of purpose 0x03. -/
def execVrand (r : RR) (dst : Fin 32) (draw base tensor : Fin 16) (s : State) : Host.Outcome State Fault Refusal :=
  let k := r.ctx.val
  .next (s.vop r (.vrand r dst draw base tensor) [spS k draw.val, spS k base.val, spS k tensor.val] [spV (s.reed r.reed.val) k dst.val] 32 (fun t vl =>
    let c := t.ctxOf r
    let d := (c.getS draw.val).toNat
    if d / 2 ^ 24 ≠ 0 then .fault (t.operandFault r)
    else .go (t.putLanes r dst.val .fp32 ((List.range vl).map (fun i =>
      (randWord (t.jobSeed r.reed.val) ((c.getS base.val).toNat + i) 3 d (c.getS tensor.val) (t.stepOf r.reed.val)).toNat)))))

/-- A transcendental over the elements below VL (R196). -/
def State.vtrans (s : State) (r : RR) (i : Instr) (dst a : Fin 32) (f : W32 → W32) : State :=
  let k := r.ctx.val
  let x := s.reed r.reed.val
  s.vop r i [spV x k a.val] [spV x k dst.val] 32 (fun t vl =>
    .go (t.putLanes r dst.val .fp32 ((((t.reed r.reed.val).lanes k a.val .fp32).take vl).map (fun e => (f (BitVec.ofNat 32 e)).toNat))))

/-- VEXP (R196). -/
def execVexp (r : RR) (dst a : Fin 32) (s : State) : Host.Outcome State Fault Refusal := .next (s.vtrans r (.vexp r dst a) dst a fpExp)
/-- VLOG (R196). -/
def execVlog (r : RR) (dst a : Fin 32) (s : State) : Host.Outcome State Fault Refusal := .next (s.vtrans r (.vlog r dst a) dst a fpLog)
/-- VRSQRT (R196). -/
def execVrsqrt (r : RR) (dst a : Fin 32) (s : State) : Host.Outcome State Fault Refusal := .next (s.vtrans r (.vrsqrt r dst a) dst a fpRsqrt)
/-- VSIGM (R196). -/
def execVsigm (r : RR) (dst a : Fin 32) (s : State) : Host.Outcome State Fault Refusal := .next (s.vtrans r (.vsigm r dst a) dst a fpSigm)
/-- VTANH (R196). -/
def execVtanh (r : RR) (dst a : Fin 32) (s : State) : Host.Outcome State Fault Refusal := .next (s.vtrans r (.vtanh r dst a) dst a fpTanh)

/-! ### Soft maximum (R198) -/

/-- The state of a row: M, L, NPOSINF, NNAN. -/
structure Row where
  m : W32
  l : W32
  npos : W32
  nnan : W32
  deriving DecidableEq, Repr

/-- ACCUM over the scores below VL (R198). -/
def Row.accum (w : Row) (xs : List W32) : Row :=
  let vs := xs.map f32
  let b := (vs.filter Val.isFin).foldl Val.max (.inf true)
  let m2 := (f32 w.m).max b
  let ex (v : Val) : Val := f32 (fpExp (toF32 (v.sub m2)))
  let l0 := if (f32 w.m).lt m2 && !(f32 w.l).isZero then toF32 ((f32 w.l).mul (ex (f32 w.m))) else w.l
  { m := toF32 m2
    l := (vs.filter Val.isFin).foldl (fun l v => toF32 ((f32 l).add (ex v))) l0
    npos := w.npos + BitVec.ofNat 32 (vs.filter (fun v => v == .inf false)).length
    nnan := w.nnan + BitVec.ofNat 32 (vs.filter Val.isNan).length }

/-- NNAN > 0, on an INT32 lane (R198). -/
def Row.nan (w : Row) : Bool := (0 : W32).slt w.nnan
/-- NPOSINF > 0, on an INT32 lane (R198). -/
def Row.posInf (w : Row) : Bool := (0 : W32).slt w.npos

/-- FINISH (R198): the logarithm of the row's sum, and which row count it raises. -/
def Row.finish (w : Row) : W32 :=
  if w.nan then 0x7FC00000
  else if w.posInf then 0x7F800000
  else if f32 w.m = .inf true then 0xFF800000
  else toF32 ((f32 w.m).add (f32 (fpLog w.l)))

/-- EMIT for one score (R198). -/
def Row.emit (w : Row) (x : W32) : W32 :=
  let v := f32 x
  if w.nan then 0x7FC00000
  else if w.posInf then (if v = .inf false then toF32 ((Val.fin false 1 0 false).div (.fin false w.npos.toNat 0 false)) else 0)
  else if f32 w.m = .inf true ∨ v = .inf true then 0
  else toF32 ((f32 (fpExp (toF32 (v.sub (f32 w.m))))).div (f32 w.l))

/-- The row state in group g of a register (R198). -/
def rowOf (l : List Nat) (g : Nat) : Row :=
  let w (i : Nat) : W32 := BitVec.ofNat 32 (l.getD (4 * g + i) 0)
  { m := w 0, l := w 1, npos := w 2, nnan := w 3 }

/-- Writes the four lanes of a group and keeps every other lane (R182, R198). -/
def putRow (l : List Nat) (g : Nat) (w : Row) : List Nat :=
  setAt (setAt (setAt (setAt l (4 * g) w.m.toNat) (4 * g + 1) w.l.toNat) (4 * g + 2) w.npos.toNat) (4 * g + 3) w.nnan.toNat

/-- VSMAX (R198). -/
def execVsmax (r : RR) (op : SmaxOp) (s : State) : Host.Outcome State Fault Refusal :=
  let k := r.ctx.val
  let x := s.reed r.reed.val
  let lanes (t : State) (i : Fin 32) : List Nat := (t.reed r.reed.val).lanes k i.val .fp32
  match op with
  | .init dst g => .next (s.vop r (.vsmax r op) [spV x k dst.val] [spV x k dst.val] 32 (fun t _ =>
      .go (t.putLanes r dst.val .fp32 (putRow (lanes t dst) g.val { m := 0xFF800000, l := 0, npos := 0, nnan := 0 }))))
  | .accum dst a g => .next (s.vop r (.vsmax r op) [spV x k dst.val, spV x k a.val] [spV x k dst.val] 32 (fun t vl =>
      let st := lanes t dst
      .go (t.putLanes r dst.val .fp32 (putRow st g.val ((rowOf st g.val).accum (((lanes t a).take vl).map (BitVec.ofNat 32)))))))
  | .finish dst a g => .next (s.vop r (.vsmax r op) [spV x k a.val] [spS k dst.val] 32 (fun t _ =>
      let w := rowOf (lanes t a) g.val
      let t := t.modReed r.reed.val (fun x =>
        if w.nan then { x with nanRows := x.nanRows + 1 }
        else if w.posInf then { x with infRows := x.infRows + 1 } else x)
      .go (t.putS r dst.val w.finish)))
  | .emit dst a st g => .next (s.vop r (.vsmax r op) [spV x k a.val, spV x k st.val] [spV x k dst.val] 32 (fun t vl =>
      let w := rowOf (lanes t st) g.val
      .go (t.putLanes r dst.val .fp32 (((lanes t a).take vl).map (fun e => (w.emit (BitVec.ofNat 32 e)).toNat)))))

/-! ### Permute and shuffle (R190, R191) -/

/-- VPERM (R190): lane i takes the lane its index names, zero where the index is past the lanes. -/
def execVperm (r : RR) (o : VOpt) (dst a b : Fin 32) (s : State) : Host.Outcome State Fault Refusal :=
  let k := r.ctx.val
  let x := s.reed r.reed.val
  .next (s.vop r (.vperm r o dst a b) [spV x k a.val, spV x k b.val] [spV x k dst.val] (fmtLanes o.fmt) (fun t vl =>
    let y := t.reed r.reed.val
    let d := y.lanes k a.val o.fmt
    .go (t.putLanes r dst.val o.fmt (((y.lanes k b.val o.fmt).take vl).map (fun j => d.getD j 0)))))

/-- The groups of g lanes of a list. -/
def groupsOf (g : Nat) (l : List Nat) : List (List Nat) :=
  (List.range (l.length / g)).map (fun i => (l.drop (g * i)).take g)

/-- Every other group from an offset. -/
def everyOther (o : Nat) (l : List (List Nat)) : List (List Nat) :=
  (List.range (l.length / 2)).map (fun i => l.getD (2 * i + o) [])

/-- The interleaving of two sources by a pattern (R191). -/
def shuffle (pat g : Nat) (a b : List Nat) : List Nat :=
  let ga := groupsOf g a
  let gb := groupsOf g b
  let half := ga.length / 2
  let start := if pat = 1 then half else 0
  if pat < 2 then ((List.range half).map (fun i => ga.getD (start + i) [] ++ gb.getD (start + i) [])).flatten
  else (everyOther (pat - 2) ga ++ everyOther (pat - 2) gb).flatten

/-- The lanes of a source below VL, with zero above, so that a lane above VL plays no part (R182; DEDUCED, entry 25). -/
def belowVl (vl : Nat) (l : List Nat) : List Nat := l.take vl ++ rep (l.length - vl) 0

/-- VSHUF (R191): a group above half the lanes, or a nonzero P[31:5], faults. -/
def execVshuf (r : RR) (o : VOpt) (dst a b : Fin 32) (p : Fin 16) (s : State) : Host.Outcome State Fault Refusal :=
  let k := r.ctx.val
  let x := s.reed r.reed.val
  .next (s.vop r (.vshuf r o dst a b p) [spV x k a.val, spV x k b.val, spS k p.val] [spV x k dst.val] (fmtLanes o.fmt) (fun t vl =>
    let w := ((t.ctxOf r).getS p.val).toNat
    let g := 2 ^ bits w 4 2
    if w / 32 ≠ 0 ∨ g > fmtLanes o.fmt / 2 then .fault (t.operandFault r)
    else
      let y := t.reed r.reed.val
      .go (t.putLanes r dst.val o.fmt ((shuffle (w % 4) g (belowVl vl (y.lanes k a.val o.fmt)) (belowVl vl (y.lanes k b.val o.fmt))).take vl))))

/-! ### Vector memory (R182, R197) -/

/-- The 128 bytes a VLD or VST moves (R182): the bound, then the alignment to 64. -/
def State.vmAddr (s : State) (r : RR) (ha : HA) (off : W32) (write : Bool) : Access :=
  let o := ((s.ctxOf r).getA ha.a.val).toNat + off.toNat
  match s.locate r.reed.val ha.h.val o 128 with
  | .bound => .fault (s.boundFault r ha.h.val o)
  | .at_ .. =>
    if o % 64 ≠ 0 then .fault (s.reedFault r.reed.val .vectorAlign (s.ctxOf r).pc.toNat [])
    else if write then s.spadWrite r ha.h o 128 4 else s.spadRead r ha.h o 128 4

/-- VLD (R103, R182): one whole register; with CONSUME every slot whose last word it reads turns EMPTY. -/
def execVld (r : RR) (reg : Fin 32) (ha : HA) (off : W32) (consume : Bool) (s : State) : Host.Outcome State Fault Refusal :=
  let x := s.reed r.reed.val
  .next (s.vopFree r (.vld r reg ha off consume) [] [spV x r.ctx.val reg.val] (fun t => match t.vmAddr r ha off false with
    | .fault u => .fault u
    | .wait c => .wait c
    | .lost u => .lost u
    | .ok t sp a priv =>
      let t := t.putV r reg.val (BitVec.ofNat 1024 (leNat (t.bytes sp a 128)))
      let (f, n) := slotsOf a 128
      let last := (upto f n).filter (fun sl => decide (256 * sl + 192 < a + 128) && decide (a ≤ 256 * sl + 192))
      .go (if consume && !priv then last.foldl (fun t sl => t.setTag sp sl .empty) t else t)))

/-- VST (R103, R182): one whole register, a plain write. -/
def execVst (r : RR) (reg : Fin 32) (ha : HA) (off : W32) (s : State) : Host.Outcome State Fault Refusal :=
  let x := s.reed r.reed.val
  .next (s.vopFree r (.vst r reg ha off) [spV x r.ctx.val reg.val] [] (fun t => match t.vmAddr r ha off true with
    | .fault u => .fault u
    | .wait c => .wait c
    | .lost u => .lost u
    | .ok t sp a _ => .go (t.putBytes sp a (leBytes 128 (t.v r reg.val).toNat))))

/-- VTILE (R147, R197): into a V register the next piece of the oldest finished tile, releasing it with piece 127; into
an S register its extents. -/
def execVtile (r : RR) (dst : TileDst) (s : State) : Host.Outcome State Fault Refusal :=
  let q := r.reed.val
  let x := s.reed q
  let spec := match dst with | .v i => spV x r.ctx.val i.val | .s i => spS r.ctx.val i.val
  .next (s.vopFree r (.vtile r dst) [] [spec] (fun t => match (t.reed q).fin with
    | [] => .wait (t.tileCause q)
    | f :: rest => match dst with
      | .s i => .go (t.putS r i.val (BitVec.ofNat 32 (f.rows * 256 + f.cols)))
      | .v i =>
        let p := f.piece
        let el := ((t.reed q).accTile f.acc).el
        let t := t.putLanes r i.val .fp32 ((upto (64 * (p / 2) + 32 * (p % 2)) 32).map (fun n => (Tbl.lk 0 el n).toNat))
        if p < 127 then .go (t.modReed q (fun x => { x with fin := { f with piece := p + 1 } :: rest }))
        else .go ((t.modAcc q f.acc (fun a => { a with held := false })).modReed q (fun x =>
          ({ x with fin := rest, matq := x.matq.filter (fun o => o.op != f.op) }).finishOp f.op))))

end Sys2Proof.Machine
end

