-- ==== Sys2Proof/Machine/Numerics.lean ====
section
/-! DEFINITION. The numerics records (R163 to R175, R199, R304): merging monitor slots, the next scale code, streaks, skipped
updates and calibration. -/
namespace Sys2Proof.Machine

/-! ### Merging (R164, R199) -/

/-- Adds counts to the merged record of a tensor in a step: AMAX by maximum, the others by sum (R164). -/
def addMerge (l : List Merge) (m : Merge) : List Merge :=
  let both := fun (o : Merge) =>
    { o with amax := if o.amax.toNat < m.amax.toNat then m.amax else o.amax, elems := o.elems + m.elems, zeros := o.zeros + m.zeros,
             unders := o.unders + m.unders, overs := BitVec.ofNat 32 (satAdd 32 o.overs.toNat m.overs.toNat),
             nonfin := BitVec.ofNat 32 (satAdd 32 o.nonfin.toNat m.nonfin.toNat), sqnorm := if m.sqnorm.isSome then m.sqnorm else o.sqnorm,
             numerics := if m.numerics = 0 then o.numerics else m.numerics, fmt := if m.numerics = 0 then o.fmt else m.fmt }
  if l.any (fun o => o.step == m.step && o.tensor == m.tensor && o.calib == m.calib) then
    l.map (fun o => if o.step = m.step ∧ o.tensor = m.tensor ∧ o.calib = m.calib then both o else o)
  else l ++ [m]

/-- A merge of a tensor in a step of a section, with no counts yet; its NUMERICS word and its format as the image gives them. -/
def Run.merge (u : Run) (tensor : Nat) : Merge :=
  let d := u.sec.img.tensors.find? (fun y => y.id == tensor)
  { step := u.step, tensor := tensor, numerics := (d.map (·.numerics)).getD 0, fmt := (d.bind (fun y => Fmt.ofCode y.fmt)).getD .fp32, calib := u.calib }

/-- Payload words i and i + 1 of a message as 64 bits. -/
def RillMsg.w64 (m : RillMsg) (i : Nat) : W64 :=
  BitVec.ofNat 64 ((m.words.getD i 0).toNat + (m.words.getD (i + 1) 0).toNat * 2 ^ 32)

/-- The reed of a monitor record (entry 154). -/
def RillMsg.ofReed (m : RillMsg) : Nat := (m.words.headD 0).toNat % 2 ^ 16
/-- The first monitor record of a reed in the mail of a fen's control core, with its place. -/
def State.recordOf (s : State) (f r : Nat) : Option (Nat × RillMsg) :=
  ((List.range (s.fen f).mail.length).zip (s.fen f).mail).find? (fun e => e.2.type == 6 && e.2.ofReed == r)

/-- CC0 merges a monitor record: the counts of a slot, or a reed's soft-maximum rows (R164, R199). One of an earlier epoch is dropped (R71). -/
def State.mergeRecord (s : State) (r : Nat) (m : RillMsg) : State :=
  match (s.partOf r).bind (fun p => (s.part p).run.map (fun u => (p, u))) with
  | some (p, u) =>
    if m.epoch ≠ s.epochOf r then s
    else if m.words.length = 3 then (s.bump 0x8011 6 (m.words.getD 1 0).toNat).bump 0x8011 7 (m.words.getD 2 0).toNat
    else
      let e : Merge := { u.merge (m.words.getD 1 0).toNat with amax := m.words.getD 2 0, elems := m.w64 3, zeros := m.w64 5, unders := m.w64 7,
                                                               overs := m.words.getD 9 0, nonfin := m.words.getD 10 0 }
      s.modPart p (fun q => { q with merges := addMerge q.merges e })
  | none => s

/-- MONITOR_RECORD (R164): the first record of a reed reaches a control core. CC1 passes it on to CC0, which merges it. -/
def execMonitorRecord (r : Fin 6144) (s : State) : Host.Outcome State Fault Refusal :=
  let take := fun (f k : Nat) => s.modFen f (fun x => { x with mail := dropAt x.mail k })
  match (if fenOf (tusOf r.val) = 1 then s.recordOf 1 r.val else none), s.recordOf 0 r.val with
  | some (k, m), _ => .next ((take 1 k).rillSend { m with destT := 0, srcT := 240, edge := true })
  | none, some (k, m) => .next ((take 0 k).mergeRecord r.val m)
  | none, none => .next s

/-- Is a monitor record of this drain not yet sent, or on its way to CC0 (R164)? -/
def State.reporting (s : State) (x : Sect) : Bool :=
  let mine := fun (m : RillMsg) => m.type == 6 && x.reeds.contains m.ofReed && m.epoch == s.epochOf m.ofReed
  x.reeds.any (fun r => !(s.reed r).told) || s.rillq.any (fun q => q.2.any mine) || (s.fen 0).mail.any mine || (s.fen 1).mail.any mine

/-! ### The next scale code (R167, R175) -/

/-- The numerics record of a tensor, or a fresh one. -/
def Part.rec_ (q : Part) (t : Nat) : NumRec := (q.numer.find? (fun r => r.tensor == t)).getD { tensor := t }
/-- Puts a numerics record. -/
def putRec (l : List NumRec) (r : NumRec) : List NumRec :=
  if l.any (fun o => o.tensor == r.tensor) then l.map (fun o => if o.tensor = r.tensor then r else o) else l ++ [r]

/-- clamp(⌊log₂ A⌋ − EMAX + HEADROOM + 127, 0, 254). -/
def scaleFor (a : W32) (f : Fmt) (headroom : Nat) : Nat :=
  match f32 a with
  | .fin _ m e _ => Nat.min 254 (floorLog2 m e - f.emax + headroom + 127).toNat
  | _ => 254

/-- HIST_LEN. -/
def numHist (w : W64) : Nat := bits w.toNat 56 52
/-- GRADIENT, MASTER, INIT_SCALE and GRAD_ID (R162). -/
def numGradient (w : W64) : Bool := bit w.toNat 50
/-- MASTER. -/
def numMaster (w : W64) : Bool := bit w.toNat 49
/-- INIT_SCALE. -/
def numInit (w : W64) : Nat := bits w.toNat 48 41
/-- GRAD_ID. -/
def numGrad (w : W64) : Nat := bits w.toNat 40 9

/-- The scale state after a step's merge (R167); a calibrating tensor takes its history from the merged AMAX alone (R175). -/
def NumRec.rescale (r : NumRec) (m : Merge) : NumRec :=
  let top := fun (l : List W32) => l.foldl (fun (a b : W32) => if a.toNat < b.toNat then b else a) 0
  if m.calib ∧ !r.valid then
    if m.elems = 0 ∨ m.amax = 0 then { r with scale := 0x7F, hist := [], valid := true }
    else { r with scale := BitVec.ofNat 8 (scaleFor m.amax m.fmt (numHeadroom m.numerics)), hist := [m.amax], valid := true, calibrated := true }
  else
    let hist := if m.elems = 0 then r.hist else (r.hist ++ [m.amax]).drop (r.hist.length + 1 - numHist m.numerics)
    let a := top hist
    let e := if hist.isEmpty ∨ a = 0 then r.scale.toNat else scaleFor a m.fmt (numHeadroom m.numerics)
    let e := if m.overs ≠ 0 ∧ !m.calib then Nat.max e (Nat.min (r.scale.toNat + numHeadroom m.numerics) 254) else e
    { r with scale := BitVec.ofNat 8 e, hist := hist }

/-! ### Streaks and skipped updates (R168 to R171) -/

/-- Raises a streak event of a tensor at either threshold (R170, R171). -/
def State.streak (s : State) (p code sub tensor : Nat) (step : W64) (n : Nat) : State :=
  if n = s.get 0x8010 1 ∨ n = s.get 0x8010 2 then
    (s.logEvent 6 code (some p) 0 tensor [(32, tensor), (64, step.toNat), (32, n)]).bump 0x8011 sub
  else s

/-- Is a squared norm the manual's "not finite"? -/
def notFinite (w : W32) : Bool := !(f32 w).isFin

/-- Was a master's update withheld in its step (R168, R169)? -/
def skipped (l : List Merge) (m : Merge) : Bool :=
  m.calib || (numGrad m.numerics != 0 &&
    (match l.find? (fun o => o.step == m.step && o.tensor == numGrad m.numerics && o.calib == m.calib) with
     | some o => (match o.sqnorm with | some w => notFinite w | none => false)
     | none => false))

/-- Applies one merged record to the numerics record of its tensor (R165, R167, R169 to R171, R175). -/
def State.applyMerge (s : State) (p : Nat) (l : List Merge) (m : Merge) : State :=
  let r := (s.part p).rec_ m.tensor
  let seen := m.elems != 0 || m.sqnorm.isSome
  let r := { r with step := m.step.toNat % 2 ^ 32, amaxLast := m.amax, elems := m.elems, zeros := m.zeros, unders := m.unders,
                    overs := m.overs, nonfin := m.nonfin, overflowLast := m.overs != 0 }
  let tensor := numMode m.numerics == 1
  let r := if tensor then r.rescale m else r
  let zero := match m.sqnorm with | some w => w == 0 | none => m.elems != 0 && m.zeros == m.elems
  let zs := if !numGradient m.numerics || !seen then r.zeroStreak.toNat else if zero then r.zeroStreak.toNat + 1 else 0
  let low := decide (s.get 0x8010 3 * m.elems.toNat ≤ 65536 * m.unders.toNat)
  let us := if m.elems ≠ 0 ∧ low then r.underStreak.toNat + 1 else 0
  let skip := numMaster m.numerics && skipped l m
  let r' := { r with zeroStreak := BitVec.ofNat 32 zs, underStreak := BitVec.ofNat 32 us, skippedLast := skip,
                     skippedTotal := if skip then r.skippedTotal + 1 else r.skippedTotal }
  let s := s.modPart p (fun q => { q with numer := putRec q.numer r' })
  let s := if m.overs != 0 && !m.calib then s.bump 0x8011 3 else s
  let s := if skip then s.bump 0x8011 4 else s
  let s := if numGradient m.numerics && seen && zero then s.streak p 0x0150 1 m.tensor m.step zs else s
  if m.elems != 0 && low then s.streak p 0x0151 2 m.tensor m.step us else s

/-- The tensors that no record names in a step that has drained: their underflow streak is 0 (R171). -/
def State.unseen (s : State) (p : Nat) (now : List Merge) (step : W64) : State :=
  let seen := fun (t : Nat) => now.any (fun m => m.step == step && m.tensor == t)
  s.modPart p (fun q => { q with numer := q.numer.map (fun r => if seen r.tensor then r else { r with underStreak := 0 }) })

/-- The update point of a commit or re-arm (R165): the merges of every earlier step, and of a calibration step at its own
end (R175), are applied in ascending order of step. -/
def State.applyMerges (s : State) (p : Nat) (step : W64) : State :=
  let l := (s.part p).merges
  let due := fun (m : Merge) => decide (m.step.toNat < step.toNat) || (m.calib && m.step == step)
  let put := fun (acc : List Merge) (m : Merge) =>
    acc.takeWhile (fun o => decide (o.step.toNat ≤ m.step.toNat)) ++ m :: acc.dropWhile (fun o => decide (o.step.toNat ≤ m.step.toNat))
  let now := (l.filter due).foldl put []
  let ended := (s.part p).drainedStep.filter (fun d => decide (d.toNat < step.toNat))
  let s := s.modPart p (fun q => { q with merges := q.merges.filter (fun m => !due m), drainedStep := if ended.isSome then none else q.drainedStep })
  let steps := (now.map (fun m => m.step) ++ ended.toList).eraseDups
  now.foldl (fun s m => s.applyMerge p now m) (steps.foldl (fun s d => s.unseen p now d) s)

/-- The masters that a section updates enter the merge of its step, so that a withheld update is counted (R168, R169): those that it has an
update-enable word for. A conversion section, which updates none, merges none (R178). -/
def State.mergeMasters (s : State) (p : Nat) (run : Run) : State :=
  let ids := (run.sec.progs.flatMap (fun g => g.enables.map (fun e => e.2))).eraseDups
  let ms := (run.sec.img.tensors.filter (fun t => numMaster t.numerics && ids.contains t.id)).map (fun t => run.merge t.id)
  s.modPart p (fun q => { q with merges := ms.foldl addMerge q.merges })

/-- Every calibrating tensor of a section enters the merge of its calibration step, also one that no slot reported (R175). -/
def State.mergeCalib (s : State) (p : Nat) (run : Run) : State :=
  let ms := (run.sec.img.tensors.filter (fun t => numMode t.numerics == 1 && !((s.part p).rec_ t.id).valid)).map (fun t => run.merge t.id)
  s.modPart p (fun q => { q with merges := ms.foldl addMerge q.merges })

/-- A calibration step is counted once, whichever of its sections drains (R175). -/
def State.countCalib (s : State) (p : Nat) (step : W64) : State :=
  if (s.part p).calibStep = some step then s else (s.bump 0x8011 5).modPart p (fun q => { q with calibStep := some step })

/-- Does a tensor lack scale state? -/
def Part.unscaled (q : Part) (t : TensorDecl) : Bool := numMode t.numerics == 1 && !(q.rec_ t.id).valid

/-- At a commit, TENSOR-mode tensors without a valid record take INIT_SCALE; where INIT_SCALE is 0xFF the first step is a
calibration step (R174). DESIGN CHOICE (entry 155): no mark tells a job's first commit from a later one, so every commit asks this of the
tensors of its own section. -/
def State.seedScales (s : State) (p : Nat) (x : Sect) : State × Bool :=
  let todo := x.img.tensors.filter ((s.part p).unscaled)
  let s := todo.foldl (fun s t =>
    if numInit t.numerics = 0xFF then s
    else s.modPart p (fun q => { q with numer := putRec q.numer { q.rec_ t.id with scale := BitVec.ofNat 8 (numInit t.numerics), hist := [], valid := true } })) s
  (s, todo.any (fun t => numInit t.numerics == 0xFF))

end Sys2Proof.Machine
end

