-- ==== Sys2Proof/Machine/Commit.lean ====
section
/-! DEFINITION. COMMIT, the re-arm, the drain and the end of a section (R28, R69 to R75, R118, R284, R322, R323, R353, R408). -/
namespace Sys2Proof.Machine

/-! ### Windows (R284, R285) -/

/-- A window of a partition. -/
def State.window (s : State) (p w : Nat) : Window := Tbl.lk {} (s.part p).windows w
/-- Changes a window. -/
def State.modWindow (s : State) (p w : Nat) (f : Window → Window) : State :=
  s.modPart p (fun q => { q with windows := Tbl.up q.windows w (f (Tbl.lk {} q.windows w)) })

/-- Tells every device of a window's peer box of its opening or closing (R270, R284): ARG holds the epoch, the slots and the
first slot (entry 57). -/
def State.tellWindow (s : State) (p w ptype : Nat) : State :=
  let x := s.window p w
  ((boxDevs x.box).filter (· != s.self)).foldl (fun s d =>
    s.lodeSend (s.mkPkt p d p ptype w (x.epoch.toNat + (x.slots % 65536) * 65536 + (x.first % 2 ^ 32) * 2 ^ 32) .none)) s

/-- Opens a window: its epoch advances, WIN_OPEN goes to the peer box (R284). -/
def State.openWindow (s : State) (p : Nat) (d : WinDecl) : State :=
  let f := fun (x : Window) =>
    { x with isOpen := true, epoch := x.epoch + 1, hbm := d.hbm, place := d.place, first := d.first, slots := d.slots, box := d.box,
             closing := false }
  (s.modWindow p d.win f).tellWindow p d.win 6

/-- Closes a window after every put already accepted has been written (R285). -/
def State.closeWindow (s : State) (p w : Nat) : State :=
  let x := s.window p w
  if !x.isOpen then s
  else if x.puts.isEmpty then (s.modWindow p w (fun x => { x with isOpen := false, closing := false })).tellWindow p w 7
  else s.modWindow p w (fun x => { x with closing := true })

/-! ### Phase C (R72, R73, R106, R107, R122, R140, R163, R322) -/

/-- A path of a section as its setting gives it (R122). -/
def pathEntry (w : Nat) : Path :=
  { mode := match bits w 63 62 with | 1 => .split | 2 => .select | _ => .off, ctlReed := bits w 61 57, fanM1 := bits w 56 53,
    packetTokens := bits w 52 41, epBase := bits w 40 35, epOne := bits w 34 29 }

/-- Sets one tussock's handle table, sluice settings and endpoints; logical tussocks become physical ones. -/
def State.setTussock (s : State) (x : Sect) (lt : Nat) : State :=
  let q := x.img.parts.getD lt {}
  let ep := fun (w : W32) => BitVec.ofNat 32 (putBits w.toNat 23 8 (x.phys (bits w.toNat 30 23)))
  s.modTus (x.phys lt) (fun t => { t with handles := q.handles, paths := q.paths.map (fun e => (e.1, pathEntry e.2.toNat)),
                                          eps := q.eps.map (fun e => (e.1, ep e.2)), batches := [] })

/-- The physical destination of an output queue. -/
def Sect.dest (x : Sect) : LogDest → Dest
  | .none => .none
  | .queue t r q => .queue (24 * x.phys t + r) q
  | .sluice t k i => .sluice (x.phys t) k i
  | .lode d r q => .lode d r q

/-- Who feeds an input queue (R118): an output queue of the section, a sluice path's endpoint, or a producer across a lode. -/
def Sect.feeder (x : Sect) (s : State) (reed q : Nat) : Feeder :=
  let direct := x.progs.findSome? (fun g => (g.outs.find? (fun o => x.dest o.dest == .queue reed q)).map (fun o => Feeder.queue (x.reedOf g) o.q))
  match direct with
  | some f => f
  | none =>
    let via := x.tussocks.findSome? (fun t => (List.range 16).findSome? (fun k =>
      if (s.path t k).dests.any (fun e => s.endpoint t e == { valid := true, reed := reed, queue := q }) then some (Feeder.sluice t k) else none))
    match via with
    | some f => f
    | none => if x.img.paths.any (fun e => 24 * x.phys (e.consumer / 24) + e.consumer % 24 == reed && e.queue == q) then .none else .lode 0 reed q

/-- The monitor slots of a program, bound and cleared (R163). -/
def Part.bindMon (q : Part) (x : Sect) (g : ReedProg) (calib : Bool) : Tbl MonSlot :=
  g.monitors.filterMap (fun e => (x.img.tensors.find? (fun t => t.id == e.2)).map (fun t =>
    (e.1, { bound := true, tensor := BitVec.ofNat 32 t.id, fmt := (Fmt.ofCode t.fmt).getD .fp32, numerics := t.numerics,
            scale := (q.rec_ t.id).scale, calib := calib })))

/-- Phase C in every reed of the section (R72): the accumulator memories are cleared, and at COMMIT alone the slack-overrun counters and the
core-sample registers (R44, R53, R73). -/
def State.clearC (s : State) (x : Sect) (commit : Bool) : State :=
  x.allReeds.foldl (fun s r => s.modReed r (fun y =>
    let y : Reed := { y with acc := [] }
    if commit then { y with slack := 0, csCtl := 0, dropped := 0, written := 0, samples := [], ringBlocks := false } else y)) s

/-- Phases B and C in one reed that holds a program: handles of the step, queues and credits, monitor slots; at COMMIT alone the program, whose
words beyond its END keep what they held (R72, R73, R83). -/
def State.setReedC (s : State) (p : Nat) (x : Sect) (step : Nat) (calib commit : Bool) (g : ReedProg) : State :=
  let r := x.reedOf g
  let q := s.part p
  let hs := g.handles.map (fun t => (t.h, completeHandle x q.manifest q.places step t))
  let qo := g.outs.map (fun o => (o.q, ({ dest := x.dest o.dest, len := o.len } : OutQ)))
  let qs := ((g.blocks.flatMap (fun b => b.guards)).filter (fun w => bits w 63 56 == 0xF2)).map (fun w => bits w 50 48)
    ++ (x.img.paths.filter (fun e => 24 * x.phys (e.consumer / 24) + e.consumer % 24 == r)).map (·.queue)
  let qi := qs.eraseDups.map (fun k => (k, ({ feeder := x.feeder s r k } : InQ)))
  s.modReed r (fun y =>
    let y : Reed := { y with handles := hs, qo := qo, qi := qi, mon := q.bindMon x g calib, told := false, nanRows := 0, infRows := 0 }
    let y : Reed := { y with threads := g.threads, banks := [], matq := [], fin := [], ops := [], blockOps := [], marks := [], descq := [], hold := [] }
    if commit then { y with pmem := ((List.range g.words.length).zip g.words).foldl (fun m e => Tbl.up m e.1 e.2) y.pmem, firing := 0 }
    else y)

/-! ### Phase D (R72, R168) -/

/-- Every tag of the section as the image declares it, also of a reed whose program the pass does not load; an undeclared slot is EMPTY. -/
def State.setTagsD (s : State) (x : Sect) : State :=
  let full := fun (l : List TagDecl) => (l.filter (·.full)).map (fun t => (t.slot, Tag.full))
  let s := (List.range (x.w * x.h)).foldl (fun s lt =>
    let t := x.phys lt
    let s := s.modTus t (fun y => { y with tags := full (x.img.parts.getD lt {}).tags, hold := [], groups := [] })
    (upto (24 * t) 24).foldl (fun s r => s.modReed r (fun y => { y with tags := [] })) s) s
  let declared := x.img.progs.filter (fun g => !x.reeds.contains (x.reedOf g)) ++ x.progs
  declared.foldl (fun s g => s.modReed (x.reedOf g) (fun y => { y with tags := full g.tags })) s

/-- The update-enable words (R168): written in phase C, set FULL in phase D; 1, or 0 in a calibration step. -/
def State.setEnables (s : State) (x : Sect) (calib : Bool) : State :=
  x.progs.foldl (fun s g => g.enables.foldl (fun s e =>
    let sp := Space.spad (x.reedOf g)
    (s.putBytes sp (256 * e.1) (leBytes 4 (b2n !calib) ++ rep 60 0)).setTag sp e.1 .full) s) s

/-! ### Commit and re-arm -/

/-- Is a queue of the section not empty (R69, R72)? -/
def State.queuesLeft (s : State) (x : Sect) : Bool :=
  x.reeds.any (fun r => (s.reed r).qi.any (fun q => !q.2.toks.isEmpty))
    || x.tussocks.any (fun t => (s.tus1 t).paths.any (fun q => !q.2.ctl.toks.isEmpty || q.2.data.any (fun d => !d.2.toks.isEmpty)))

/-- Phase A's epoch; tokens held at lode ingress for the next epoch are taken up again (R71). -/
def State.advanceEpochs (s : State) (x : Sect) : State :=
  let s := x.tussocks.foldl (fun s t => s.modTus t (fun y => { y with epoch := y.epoch + 1 })) s
  { s with lodes := s.lodes.map (fun l => (l.1, { l.2 with inbox := l.2.held.map (fun (k : LPkt) => { k with flits := 0 }) ++ l.2.inbox, held := [] })) }

/-- In a mire, sends the drain report with the feasible point once the section has finished its commit or re-arm and its step
completion is posted (R74, R282, R328, R329, R399). -/
def State.reportDrain (s : State) (p : Nat) : State :=
  match (s.part p).run with
  | some u =>
    if s.inMire && u.phase == .waitStart && u.sec.tussocks.all u.acked.contains && !u.reported && !u.cplWait then
      let s := s.atBoundary u.step.toNat
      (s.modPart p (fun q => { q with run := q.run.map (fun v => { v with reported := true }) })).mireSend p s.master 2 u.sec.fingerprint
        (BitVec.ofNat 32 s.feasible :: w2 u.step)
    else s
  | none => s

/-- The boundary before a start (R74, R329, R331): the operating point outside a mire, the drain report in one. -/
def State.boundary (s : State) (p : Nat) (step : W64) : State :=
  if s.inMire then s.reportDrain p
  else
    let s := s.atBoundary step.toNat
    s.changePoint s.feasible

/-- Outside a mire, once every tussock has acknowledged the armed notice and a change of the operating point has settled, the section's
control core broadcasts the start token, 64 mesh cycles before it takes effect (R72, R74, R253, R331). -/
def State.issueStart (s : State) (p : Nat) : State :=
  match (s.part p).run with
  | some u =>
    if !s.inMire && u.phase == .waitStart && u.tick.isNone && s.power.settling.isNone && u.sec.tussocks.all u.acked.contains then
      (s.modPart p (fun q => { q with run := q.run.map (fun v => { v with tick := some (s.timeBase + 64) }) })).castOut u.sec.core 0
        (s.timeBase + 64) (BitVec.ofNat 64 p)
    else s
  | none => s

/-- An acknowledgement of the armed notice reaches the control core (R72); with the last one the section is ready to start. -/
def State.ackNotice (s : State) (m : RillMsg) : State :=
  let w := (m.words.headD 0).toNat
  let p := w % 8
  if m.epoch = (s.tus1 (w / 8)).epoch then
    ((s.modPart p (fun q => { q with run := q.run.map (fun u =>
      if u.phase = .waitStart then { u with acked := addOnce u.acked (w / 8) } else u) })).reportDrain p).issueStart p
  else s

/-- Phases A, C, D and E of a commit or re-arm for a step (R72, R73): phase E broadcasts the armed notice. -/
def State.arm (s : State) (p : Nat) (x : Sect) (step : W64) (calib commit : Bool) : State :=
  let bad := s.queuesLeft x
  let s := s.advanceEpochs x
  let s := if commit then x.tussocks.foldl (fun s t => s.modTus t (fun y => { y with owner := some p })) s else s
  let s := (List.range (x.w * x.h)).foldl (fun s lt => s.setTussock x lt) s
  let s := x.progs.foldl (fun s g => s.setReedC p x step.toNat calib commit g) (s.clearC x commit)
  let s := (s.setTagsD x).setEnables x calib
  let s := { s with groups := s.groups.filter (fun g => g.part != p) }
  let s := x.reeds.foldl (fun s r => s.modReed r (fun y => { y with status := .armed, inBody := false })) s
  let s := s.modPart p (fun q => { q with resupDone := [], run := q.run.map (fun u =>
    { u with step := step, phase := .waitStart, calib := calib, tick := none, acked := [], reported := false, ended := none }) })
  let s := (s.castOut x.core 1 (s.timeBase + 64) (BitVec.ofNat 64 (8 * x.core + p))).boundary p step
  if bad then s.sectionFault p .drainLimit 0 0 [] else s

/-- A pending key install takes effect (R353). -/
def Part.applyKey (q : Part) : Part :=
  match q.pendingKey with
  | none => q
  | some (true, k) => { q with openKey := some k, pendingKey := none }
  | some (false, k) => { q with openKey := q.sealKey, sealKey := some k, pendingKey := none }

/-- Sets the windows, peer descriptors and multicast groups that a section lists (R284, R287; entry 43). -/
def State.setWindows (s : State) (p : Nat) (x : Sect) : State :=
  let desc := fun (q : Part) (d : PeerDecl) => match d.multicast with
    | some g => PeerDesc.multicast g
    | none => match Tbl.lk? q.peers d.idx with
      | some (.unicast v w e) => if v = d.dev ∧ w = d.win then .unicast v w e else .unicast d.dev d.win 0
      | _ => .unicast d.dev d.win 0
  let s := s.modPart p (fun q => { q with
    peers := x.img.peers.foldl (fun l d => Tbl.up l d.idx (desc q d)) q.peers,
    mboxes := x.img.mgroups.foldl (fun l d => Tbl.up l d.1 d.2) q.mboxes })
  x.img.windows.foldl (fun s d => s.openWindow p d) s

/-- COMMIT (R72): a staged and armed section of a partition without a running one is committed; one with tussocks of the east fen not while
the causeway is enabled (R20). -/
def execCommit (part : Fin 8) (s : State) : Host.Outcome State Fault Refusal :=
  let p := part.val
  match (s.part p).staged, (s.part p).run with
  | some g, none =>
    if g.phase ≠ .armed ∨ (s.causeway ∧ g.sec.tussocks.any (fun t => decide (128 ≤ t))) then .next s
    else
      let x := g.sec
      let (s, calib) := s.seedScales p x
      let s := s.applyMerges p x.first
      let s := (s.rect p).tussocks.foldl (fun s t => (upto (24 * t) 24).foldl (fun s r =>
        if (s.reed r).status = .drain then s.modReed r (fun y => { y with status := .unassigned }) else s) s) s
      let s := s.modPart p (fun q => ({ q with staged := none, run := some { sec := x, step := x.first }, faulted := false }).applyKey)
      let s := match (s.part p).sealKey with | some k => if k.job then s.set (0x1200 + p) 2 2 else s | none => s
      .next ((s.arm p x x.first calib true).setWindows p x)
  | _, _ => .next s

/-! ### Drain (R69, R70, R73) -/

/-- Has every reed of a section ended its last firing of the step? -/
def State.allEnded (s : State) (x : Sect) : Bool := x.reeds.all (fun r => (s.reed r).status == .drain)

/-- Does a packet carry a section's token or write? -/
def Pkt.ofSection (ts : List Nat) (p : Pkt) : Bool :=
  match p.src with
  | .tus t => ts.contains t.val && (match p.pay with | .readReq _ => false | _ => true)
  | _ => false

/-- Has a section drained (R69)? -/
def State.drained (s : State) (p : Nat) (x : Sect) : Bool :=
  let ts := x.tussocks
  s.allEnded x && !s.queuesLeft x
    && x.reeds.all (fun r => (s.reed r).ops.isEmpty) && ts.all (fun t => (s.tus1 t).hold.isEmpty && (s.tus1 t).batches.all (fun b => b.2.2.isEmpty))
    && !s.xfers.any (fun f => ts.contains (tusOf f.reed) && f.kind != .load)
    && !s.mesh.any (fun r => r.2.inj.any (Pkt.ofSection ts) || r.2.bufs.any (fun b => b.2.any (Pkt.ofSection ts)))
    && !s.tus.any (fun t => t.2.arrived.any (Pkt.ofSection ts)) && !s.halves.any (fun h => h.2.arrived.any (Pkt.ofSection ts))
    && !s.hbmStacks.any (fun k => k.2.arrived.any (Pkt.ofSection ts))
    && !s.sump.any (fun h => h.2.slots.any (fun k => k.part == p) || h.2.buf.any (fun b => b.part == p))
    && !s.lodes.any (fun l => l.2.egress.any (fun e => e.2.any (fun k => k.spart == p && k.src == s.self && k.fp == x.fingerprint)))

/-- The section ends (R222, R284): its placements without KEEP go unless a staged load uses them, its windows close. -/
def State.endSection (s : State) (p : Nat) (x : Sect) : State :=
  let kept := match (s.part p).staged with | some g => g.sec.uses | none => []
  let s := x.img.windows.foldl (fun s d => s.closeWindow p d.win) s
  let s := x.tussocks.foldl (fun s t => s.modTus t (fun y => { y with owner := none })) s
  let s := if (s.part p).staged.isNone then x.reeds.foldl (fun s r => s.modReed r (fun y => { y with status := .unassigned })) s else s
  (s.modPart p (fun q => { q with run := none })).dropPlaces p (fun y =>
    x.uses.contains y.tensor && !bit y.word.toNat 53 && !kept.contains y.tensor)

/-- SECTION_DRAINED (R28, R69, R73, R164, R175, R323): once the step's records have reached CC0 (entry 154), its completion is posted, and
the section re-arms or ends. A calibration step takes the number of the step it precedes. -/
def execSectionDrained (part : Fin 8) (s : State) : Host.Outcome State Fault Refusal :=
  let p := part.val
  match (s.part p).run with
  | none => .next s
  | some u =>
    let x := u.sec
    if u.phase ≠ .running || !s.drained p x || s.reporting x then .next s
    else
      let s := (s.mergeMasters p u).modPart p (fun q => { q with drainedStep := some u.step })
      let s := if u.calib then (s.mergeCalib p u).countCalib p u.step else s
      let s := s.set (0x5100 + p) 5 (u.step.toNat % 2 ^ 32)
      let body := cplBody [(8, 8, u.step.toNat), (16, 4, x.sectionId), (24, 8, s.get (0x2050 + p) 1), (32, 8, s.timeBase.toNat)]
      let s := s.notifyPart p { type := 3, calib := u.calib, body := body }
      if u.calib then .next ((s.applyMerges p u.step).arm p x u.step false false)
      else if 1 < x.left ∧ !u.stop then
        let s := s.modPart p (fun q => { q with run := q.run.map (fun v => { v with sec := { v.sec with left := v.sec.left - 1 } }) })
        .next ((s.applyMerges p (u.step + 1)).arm p x (u.step + 1) false false)
      else .next (s.endSection p x)

/-- Notes the time at which the last reed of a section ended its last firing (R70). -/
def State.noteEnd (s : State) (p : Nat) : State :=
  match (s.part p).run with
  | some u =>
    if u.phase = .running && u.ended.isNone && s.allEnded u.sec then
      s.modPart p (fun q => { q with run := q.run.map (fun v => { v with ended := some s.timeBase }) })
    else s
  | none => s

/-- DRAIN_LIMIT (R70): the limit has expired since the last reed ended its last firing and the section has not drained. -/
def execDrainLimit (part : Fin 8) (s : State) : Host.Outcome State Fault Refusal :=
  let p := part.val
  let s := s.noteEnd p
  match (s.part p).run with
  | none => .next s
  | some u =>
    if u.phase = .running && s.past u.ended u.sec.drainLimit && !s.drained p u.sec then .next (s.sectionFault p .drainLimit 0 0 []) else .next s

/-- Is something of the section halted or held that PROGRESS_LIMIT waits for (R408)? -/
def State.held (s : State) (p : Nat) (x : Sect) : Bool :=
  s.xfers.any (fun f => x.tussocks.contains (tusOf f.reed) && (f.halted || f.trans)) || s.mcasts.any (fun m => m.part == p)
    || s.sump.any (fun h => h.2.slots.any (fun k => k.part == p))

/-- PROGRESS_LIMIT (R408): a running section has made no progress for PROGRESS_LIMIT. -/
def execProgressLimit (part : Fin 8) (s : State) : Host.Outcome State Fault Refusal :=
  let p := part.val
  match (s.part p).run with
  | none => .next s
  | some u =>
    if u.phase = .running && !s.allEnded u.sec && !s.held p u.sec && s.past (some u.progress) (msCycles (s.get 0x5010 3)) then
      .next (s.sectionFault p .progressLimit 0 0 [])
    else .next s

end Sys2Proof.Machine
end

