-- ==== Sys2Proof/Machine/Fabric.lean ====
section
/-! DEFINITION. The dyke mesh and the rill (R241 to R258): routes, credits, arbiters, replays, stamps, and messages. -/
namespace Sys2Proof.Machine

/-- An output's number within its router. -/
def Port5.num : Port5 → Nat
  | .loc => 0 | .north => 1 | .east => 2 | .south => 3 | .west => 4 | .gripN => 5 | .gripS => 6

/-- The code of an output's link in a unit word (R415); the grip codes are those of the outward grips. The output to the tussock is no link
of the grid. -/
def Port5.dir : Port5 → Option Nat
  | .loc => none | .north => some 0 | .east => some 1 | .south => some 2 | .west => some 3 | .gripN => some 4 | .gripS => some 4

/-- The direction along a row toward a column, if not there. -/
def rowWay (x dx : Nat) : Option Port5 := if x < dx then some .east else if dx < x then some .west else none
/-- The direction along a column toward a row, if not there; row 0 is the north edge (R16). -/
def colWay (y dy : Nat) : Option Port5 := if y < dy then some .south else if dy < y then some .north else none

/-- The output a packet takes at a router of a plane (R245). -/
def Pkt.route (p : Pkt) (plane t : Nat) : Port5 :=
  let x := t / 16
  let y := t % 16
  match p.dst with
  | .tus d =>
    let r := rowWay x (d.val / 16)
    let c := colWay y (d.val % 16)
    if plane = 0 then (r.orElse (fun _ => c)).getD .loc else (c.orElse (fun _ => r)).getD .loc
  | .hbm i => (rowWay x p.col).getD (if stackNorth i.val then .gripN else .gripS)
  | .half h => (rowWay x (15 * h.val)).getD (if h.val = 0 then .west else .east)

/-- The router and the input that a link leads to (R241, R254); none where it leaves the grid. -/
def link (t : Nat) (o : Port5) : Option (Nat × Nat) :=
  match o with
  | .north => if t % 16 = 0 then none else some (t - 1, 3)
  | .south => if t % 16 = 15 then none else some (t + 1, 1)
  | .east => if t / 16 = 15 then none else some (t + 16, 4)
  | .west => if t / 16 = 0 then none else some (t - 16, 2)
  | _ => none

/-- Does a link cross the seam between columns 7 and 8 (R249)? -/
def crossesSeam (t : Nat) (o : Port5) : Bool := (o == .east && t / 16 == 7) || (o == .west && t / 16 == 8)

/-- The packets of a router's input buffer. -/
def State.buf (s : State) (plane t i : Nat) : List Pkt := Tbl.lk [] (Tbl.lk {} s.mesh (routerKey plane t)).bufs i
/-- Changes a router's input buffer. -/
def State.modBuf (s : State) (plane t i : Nat) (f : List Pkt → List Pkt) : State :=
  { s with mesh := Tbl.mod {} s.mesh (routerKey plane t) (fun r => { r with bufs := Tbl.mod [] r.bufs i f }) }

/-- What waits to enter a router (R259). -/
def State.waiting (s : State) (plane t : Nat) : List Pkt := (Tbl.lk {} s.mesh (routerKey plane t)).inj

/-- Has a buffer of so many flits room for a packet (R247)? A packet longer than the buffer enters an empty one (entry 46). -/
def bufRoom (size : Nat) (b : List Pkt) (p : Pkt) : Bool := b.isEmpty || decide (sumOf (b.map (·.flits)) + p.flits ≤ size)
/-- Has the next buffer of a link room for a packet (R247): 8 flits per VC, 12 across the seam; and has the crossing out of the mesh (R251)? -/
def State.credits (s : State) (plane t : Nat) (o : Port5) (p : Pkt) : Bool :=
  match link t o with
  | none => p.contributes || bufRoom 8 ((s.arrivals p.dst).filter (fun q => q.meshed && !q.contributes && q.crossing == p.crossing)) p
  | some (u, i) => bufRoom (if crossesSeam t o then 12 else 8) (s.buf plane u (2 * i + b2n p.rsp)) p

/-! ### The numbers of arbiters -/

/-- The number of a router output's arbiter, the rill's as plane 2 (entry 42). -/
def arbKey (plane t : Nat) (o : Port5) : Nat := 8 * routerKey plane t + o.num
/-- The number of an arbiter of a tussock's injection hierarchy on a plane (R259; entry 42). -/
def injKey (plane t k : Nat) : Nat := 16384 + 32 * routerKey plane t + k
/-- The number of a lode's egress arbiter (entry 42). -/
def lodeArb (n : Nat) : Nat := 8192 + n
/-- The number of the arbiter of a column's outward grip, north or south (R242; entry 42). -/
def gripArb (plane x : Nat) (south : Bool) : Nat := 32768 + 64 * plane + 2 * x + b2n south
/-- The number of an arbiter (entry 42). -/
def ArbId.key : ArbId → Nat
  | .mesh plane t o => arbKey plane.val t.val o
  | .rill t o => arbKey 2 t.val o
  | .inject plane t k => injKey plane.val t.val k.val
  | .grip plane x south => gripArb plane.val x.val south
  | .lode n => lodeArb n.val
  | .bankSpad r b => bankArb (tusOf r.val) (localOf r.val) b.val
  | .bankPool t b => bankArb t.val 24 b.val
/-- The cycle of an arbiter's clock: reed cycles of its tussock for a bank, else mesh cycles. -/
def State.arbNow (s : State) (a : ArbId) : Nat :=
  match a with
  | .bankSpad r _ => (s.tus1 (tusOf r.val)).cycles
  | .bankPool t _ => (s.tus1 t.val).cycles
  | _ => s.meshNow
/-! ### Injection (R247, R259) -/

/-- The input buffer where a packet enters its first router (R254): an outer link's from a crossbar half, else the local one. -/
def Pkt.entry (p : Pkt) : Nat := 2 * (match p.src with | .half h => if h.val = 0 then 4 else 2 | _ => 0) + b2n p.rsp
/-- The packet of a requester that may enter: the first of each VC enters in order, RSP before REQ (R246, R247). -/
def injHead (q : List Pkt) (room : Pkt → Bool) (leaf : Nat) : Option Pkt :=
  let one := fun (rsp : Bool) => match q.find? (fun p => p.leaf == leaf && p.rsp == rsp) with | some p => if room p then some p else none | none => none
  (one true).orElse (fun _ => one false)

/-- What an arbiter of the hierarchy presents to the level above (R259): the stamp, the leaf, the arbiters that the grant passes with
their requests and its request at each. -/
structure Offer where
  age : BitVec 14
  leaf : Nat
  path : List (Nat × List Req × Req) := []
  deriving DecidableEq, Repr

/-- What an arbiter of the hierarchy presents of its inputs (R259): its own choice, which its own age grant gives to the oldest beneath it, and
the oldest stamp beneath it. An input is its index, its rank and its own two offers. -/
def State.offer (s : State) (k : Nat) (ins : List (Nat × Nat × Option (Offer × Offer))) : Option (Offer × Offer) :=
  let a := s.arb k
  let live := ins.filterMap (fun e => e.2.2.map (fun o => (e.1, e.2.1, o)))
  let own := live.map (fun e => ({ idx := e.1, rank := e.2.1, age := e.2.2.1.age } : Req))
  let aged := live.map (fun e => ({ idx := e.1, rank := e.2.1, age := e.2.2.2.age } : Req))
  let pick := fun (l : List Req) (f : Offer × Offer → Offer) (w : Option Req) => w.bind (fun w =>
    (live.find? (fun e => e.1 == w.idx)).map (fun e => { f e.2.2 with path := (k, l, w) :: (f e.2.2).path }))
  let old := pick aged Prod.snd (oldest aged)
  let mine := match a.holder own with
    | some w => pick own Prod.fst (some w)
    | none => if a.ageGrant then old else pick own Prod.fst (a.choose s.meshNow own)
  match mine, old with | some x, some y => some (x, y) | _, _ => none

/-- What the injection hierarchy of a tussock and plane grants (R254, R259): three requesters of a reed, six reeds of a group, and
the four groups with the sluice, pool egress and the trickle batcher, ranked pool egress, sluice, groups, batcher. An age grant passes down to
the oldest of the whole tree, a rank grant as each level's own. -/
def State.injGrant (s : State) (plane t : Nat) (head : Nat → Option Pkt) : Option Offer :=
  let leaf := fun (f : Nat) => (head f).map (fun p => let o : Offer := { age := p.age, leaf := f }; (o, o))
  let reed := fun (r : Nat) => s.offer (injKey plane t r) ((List.range 3).map (fun k => (k, 0, leaf (3 * r + k))))
  let group := fun (g : Nat) => s.offer (injKey plane t (24 + g)) ((List.range 6).map (fun j => (j, 0, reed (6 * g + j))))
  (s.offer (injKey plane t 28)
    ((List.range 4).map (fun g => (g, 2, group g)) ++ [(4, 1, leaf 72), (5, 0, leaf 73), (6, 3, leaf 74)])).map Prod.fst

/-- The next packet that enters the grid at a router: one of an edge unit in order, else the one the hierarchy grants, with every
arbiter that the grant passes (R259). -/
def State.enterNext (s : State) (plane t : Nat) : Option State :=
  let q := s.waiting plane t
  let room := fun (p : Pkt) => bufRoom 8 (s.buf plane t p.entry) p
  let enter := fun (s : State) (p : Pkt) =>
    { s with mesh := Tbl.mod {} s.mesh (routerKey plane t) (fun r => { r with inj := r.inj.erase p, bufs := Tbl.mod [] r.bufs p.entry (· ++ [p]) }) }
  let head := injHead q room
  match head 75 with
  | some p => some (enter s p)
  | none =>
    match s.injGrant plane t head with
    | none => none
    | some o => (head o.leaf).map (fun p =>
        enter (o.path.foldl (fun s (e : Nat × List Req × Req) => s.serve e.1 s.meshNow (s.get 0x3800 1) e.2.1 e.2.2 p.flits) s) p)

/-- So many packets enter the grid at a router, as far as they have room. -/
def enterAll (plane t : Nat) : Nat → State → State
  | 0, s => s
  | n + 1, s => match s.enterNext plane t with | none => s | some u => enterAll plane t n u
/-- All that has room enters the grid at a router (R247, R259). -/
def State.injected (s : State) (plane t : Nat) : State := enterAll plane t (s.waiting plane t).length s

/-- The requests at a router's output: the head of each input buffer bound for it that has a credit. -/
def State.requests (s : State) (plane t : Nat) (o : Port5) : List Req :=
  (List.range 10).filterMap (fun i => match s.buf plane t i with
    | p :: _ => if p.route plane t == o && s.credits plane t o p then some { idx := i, rank := 1 - b2n p.rsp, age := p.age } else none
    | [] => none)

/-- Does an output lead onto a grip, and is it the south one? -/
def Port5.grip : Port5 → Option Bool
  | .gripN => some false
  | .gripS => some true
  | _ => none

/-- What a router's output presents to its column's outward grip (R259). -/
def State.gripOffer (s : State) (plane t : Nat) (o : Port5) : Option (Offer × Offer) :=
  s.offer (arbKey plane t o) ((s.requests plane t o).map (fun r => (r.idx, r.rank, some ({ age := r.age, leaf := r.idx }, { age := r.age, leaf := r.idx }))))

/-- What a router's output serves, with the arbiters the grant passes, their requests and its request at each: its own choice; where it leads onto a
grip, which is one link for all routers of the column (R242), what the grip's arbiter grants this router under R259. -/
def State.outGrant (s : State) (plane t : Nat) (o : Port5) : Option (Nat × List (Nat × List Req × Req)) :=
  match o.grip with
  | none =>
    let l := s.requests plane t o
    ((s.arb (arbKey plane t o)).own s.meshNow l).map (fun w => (w.idx, [(arbKey plane t o, l, w)]))
  | some south =>
    match (s.offer (gripArb plane (t / 16) south) ((List.range 16).map (fun y => (y, 0, s.gripOffer plane (t / 16 * 16 + y) o)))).map Prod.fst with
    | some g => match g.path with
      | e :: path => if e.2.2.idx = t % 16 then some (g.leaf, e :: path) else none
      | [] => none
    | none => none

/-- Is a packet's DEST_PORT one of R243? -/
def Pkt.portOk (p : Pkt) : Bool := decide (p.port ≤ 25) || p.port == 32 || p.port == 33

/-- The side word of a packet (R243), with LAST as in its last flit. -/
def Pkt.sideWord (p : Pkt) : Nat :=
  let d := match p.dst with | .tus t => t.val | .hbm _ => 16 * p.col | .half h => 240 * h.val
  let st := match p.src with | .tus t => t.val | _ => 255
  (d / 16) * 2 ^ 60 + (d % 16) * 2 ^ 56 + p.port * 2 ^ 50 + p.pay.type * 2 ^ 46 + p.epoch.toNat * 2 ^ 43 + b2n p.rsp * 2 ^ 42
    + 2 ^ 41 + p.slot % 2 ^ 14 * 2 ^ 27 + st * 2 ^ 19 + p.srcPort * 2 ^ 14 + p.age.toNat

/-- A packet with a reserved field is discarded by the first router that meets it (R244). -/
def State.misroute (s : State) (t : Nat) (p : Pkt) : State :=
  match p.src with
  | .tus a => match (s.tus1 a.val).owner with
    | some q => s.sectionFault q .meshMisroute (linkUnit 0 0 t) 0 [(64, p.sideWord)]
    | none => s.logPut (s.logRec 1 0x30 none (linkUnit 0 0 t) 0 [(64, p.sideWord)])
  | _ => s.logPut (s.logRec 1 0x30 none (linkUnit 0 0 t) 0 [(64, p.sideWord)])

/-- Moves a granted packet over its output: to the next router's buffer, or to its destination. -/
def State.moveFlits (s : State) (plane t : Nat) (o : Port5) (p : Pkt) : State :=
  let s := if crossesSeam t o then s.bump 0x7500 (if o = .east then 3 else 4) p.flits else s
  match link t o with
  | some (u, i) => s.modBuf plane u (2 * i + b2n p.rsp) (· ++ [p])
  | none => s.deliver p

/-- MESH_PACKET_ROUTE (R242, R245 to R247, R254 to R259): what waits to enter the router enters; then its output serves one request: a
whole packet moves over its link, its grip, or into its tussock. -/
def execMeshPacketRoute (plane : Fin 2) (t : Fin 256) (o : Port5) (s : State) : Host.Outcome State Fault Refusal :=
  let s := s.injected plane.val t.val
  match s.outGrant plane.val t.val o with
  | none => .next s
  | some (i, path) => match s.buf plane.val t.val i with
    | [] => .next s
    | p :: rest =>
      let u := s.modBuf plane.val t.val i (fun _ => rest)
      if !p.portOk then .next (u.misroute t.val p)
      else .next ((path.foldl (fun u e => u.serve e.1 s.meshNow (s.get 0x3800 1) e.2.1 e.2.2 p.flits) u).moveFlits plane.val t.val o p)

/-- Does a running section's traffic with the edge units its handles name pass a link (R245)? -/
def State.crossesLink (s : State) (p : Nat) (l : Nat × Nat) : Bool :=
  match (s.part p).run with
  | none => false
  | some u => u.sec.reeds.any (fun r =>
    let ks := (s.reed r).handles.map (fun h => HInfo.ofBits h.2)
    (edgeLinks (tusOf r) (((ks.filter (fun i => i.kind == 3)).map (·.target)).eraseDups) (ks.any (fun i => decide (4 ≤ i.kind)))).contains l)

/-- FLIT_REPLAY (R244): a replayed flit arrives over a link: clean, it is counted; else the link is out of service, and the sections
whose traffic waits for it, passes its router or crosses it to an edge unit fault with MESH_LINK (entry 47). -/
def execFlitReplay (plane : Fin 2) (t : Fin 256) (o : Port5) (ok : Bool) (s : State) : Host.Outcome State Fault Refusal :=
  match o.dir with
  | none => .next s
  | some d =>
    if ok then .next (s.bump 0x7500 5)
    else
      let all := s.waiting plane.val t.val ++ (List.range 10).flatMap (s.buf plane.val t.val)
      let ps := all.filter (fun p => p.route plane.val t.val == o)
      let own := fun (n : Node) => match n with | .tus u => (s.tus1 u.val).owner | _ => none
      let parts := (ps.flatMap (fun p => (own p.src).toList ++ (own p.dst).toList) ++ (s.tus1 t.val).owner.toList ++ (List.range 8).filter (fun p => s.crossesLink p (d, t.val))).eraseDups
      let unit := linkUnit plane.val d t.val
      .next ((s.takeOut unit (s.tus1 t.val).owner).faultParts parts .meshLink unit 0)

/-- The rank of a message type (R252); a reserved type has none. -/
def rillRank (type : Nat) : Option Nat :=
  match type with | 7 => some 1 | 0 | 4 => some 2 | 1 | 2 | 5 => some 3 | 8 => some 4 | 3 => some 5 | 6 => some 6 | _ => none
/-- Is a rill destination port one of R252? -/
def rillPortOk (p : Nat) : Bool := decide (p ≤ 24) || p == 26 || p == 27 || p == 28

/-- Is a message a broadcast (R252)? One for the rill extension names no tussock. -/
def RillMsg.cast (m : RillMsg) : Bool := decide (0xFE ≤ m.destT) && m.port != 28
/-- The outputs at which a rill router replicates a broadcast (R253): along the sender's row, then along every column, and into each tussock; a
broadcast to the fen stays in its fen. -/
def RillMsg.castOuts (m : RillMsg) (t : Nat) : List Port5 :=
  let outs : List Port5 := match m.inp with
    | 1 => [.loc, .south] | 3 => [.loc, .north] | 2 => [.loc, .north, .south, .west] | 4 => [.loc, .north, .south, .east]
    | _ => [.loc, .north, .south, .east, .west]
  outs.filter (fun o => o == .loc || ((link t o).isSome && !(m.destT == 0xFE && crossesSeam t o)))
/-- The outputs of a message at a rill router that it has still to take: one, column-first (R252), or those of a broadcast. -/
def RillMsg.outs (m : RillMsg) (t : Nat) : List Port5 :=
  if m.cast then (m.castOuts t).filter (fun o => !m.served.contains o.num)
  else [((rowWay (t / 16) (m.destT / 16)).orElse (fun _ => colWay (t % 16) (m.destT % 16))).getD .loc]

/-- A stamp 4,096 units behind the time base where it lies further behind (R257). -/
def State.oldStamp (s : State) (age : BitVec 14) : BitVec 14 := if 4096 < (s.stamp - age).toNat then s.stamp - 4096 else age

/-- STAMP_ADVANCE (R257): an arbiter advances the stamps of a requester that fall further behind to 4,096 units behind the time base,
and counts each. -/
def execStampAdvance (a : ArbId) (i : Fin 76) (s : State) : Host.Outcome State Fault Refusal :=
  let i := i.val
  let mine := fun (hit : Pkt → Bool) (p : Pkt) => if hit p then { p with age := s.oldStamp p.age } else p
  let count := fun (l : List (BitVec 14)) => (l.filter (fun g => s.oldStamp g != g)).length
  match a with
  | .mesh plane t o =>
    let b := s.buf plane.val t.val i
    let hit := fun (p : Pkt) => p.route plane.val t.val == o
    .next ((s.modBuf plane.val t.val i (List.map (mine hit))).bump 0x7500 6 (count ((b.filter hit).map (·.age))))
  | .grip plane x south =>
    let t := 16 * x.val + i % 16
    let hit := fun (p : Pkt) => p.route plane.val t == (if south then .gripS else .gripN)
    .next (((List.range 10).foldl (fun (u : State) k => u.modBuf plane.val t k (List.map (mine hit))) s).bump 0x7500 6
      (count ((((List.range 10).flatMap (s.buf plane.val t)).filter hit).map (·.age))))
  | .rill t o =>
    let q := Tbl.lk [] s.rillq t.val
    let hit := fun (m : RillMsg) => m.inp == i && (m.outs t.val).contains o
    .next (({ s with rillq := Tbl.up s.rillq t.val (q.map (fun m => if hit m then { m with age := s.oldStamp m.age } else m)) }).bump 0x7500 6
      (count ((q.filter hit).map (fun (m : RillMsg) => m.age))))
  | .inject plane t _ =>
    let k := routerKey plane.val t.val
    let hit := fun (p : Pkt) => p.leaf == i
    .next (({ s with mesh := Tbl.mod {} s.mesh k (fun r => { r with inj := r.inj.map (mine hit) }) }).bump 0x7500 6
      (count (((Tbl.lk ({} : Router) s.mesh k).inj.filter hit).map (fun (p : Pkt) => p.age))))
  | .bankSpad .. | .bankPool .. =>
    let t := match a with | .bankSpad r _ => tusOf r.val | .bankPool t _ => t.val | _ => 0
    let (sp, b) : Space × Nat := match a with | .bankSpad r b => (.spad r.val, b.val) | .bankPool t b => (.pool t.val, b.val) | _ => (.pool 0, 0)
    let hit := fun (p : Pkt) => match s.bankRequest sp p with | some e => e.1 == i && e.2.2.contains b | none => false
    .next ((s.modTus t (fun x => { x with arrived := x.arrived.map (mine hit) })).bump 0x7500 6
      (count (((s.tus1 t).arrived.filter hit).map (fun (p : Pkt) => p.age))))
  | .lode n =>
    .next ((s.modLode n.val (fun l => { l with egress := Tbl.mod [] l.egress i (List.map (fun p => { p with age := s.oldStamp p.age })) })).bump 0x7500 6
      (count ((Tbl.lk [] (s.lode n.val).egress i).map (·.age))))

/-- ARB_BACKOFF_END (R255): a requester's back-off count has reached zero, and it is eligible for rank grants; its losses still count as
consecutive. -/
def execArbBackoffEnd (a : ArbId) (i : Fin 20) (s : State) : Host.Outcome State Fault Refusal :=
  .next (if (s.arb a.key).b (s.arbNow a) i.val = 0 then
      { s with arbs := Tbl.mod {} s.arbs a.key (fun (x : Arb) => match Tbl.lk? x.back i.val with
          | some (_, n) => { x with back := Tbl.up x.back i.val (0, n) }
          | none => x) }
    else s)

/-! ### The rill (R252, R253) -/

/-- The word of a control token on the rill extension: path in [31:28] and sequence number (entry 48). -/
def ctlWord (path : Nat) (seq : BitVec 24) : W32 := BitVec.ofNat 32 (path * 2 ^ 28 + seq.toNat)
/-- The path that a control token on the rill extension names. -/
def RillMsg.ctlPath (m : RillMsg) : Nat := (m.words.getD 1 0).toNat / 2 ^ 28
/-- Has the sluice path of a control token no room in its buffer of 32 (R122)? The token then waits in its router. -/
def State.ctlFull (s : State) (t : Nat) (m : RillMsg) : Bool :=
  m.type == 8 && m.port == 24 && m.epoch == (s.tus1 t).epoch && decide (32 ≤ (s.path t m.ctlPath).ctl.toks.length)
/-- Writes a control token into a sluice path's buffer (R122). -/
def State.putCtl (s : State) (t : Nat) (m : RillMsg) : State :=
  match m.words with
  | v :: w :: _ =>
    let tok : Token := { tag := tokTag false false true m.epoch (BitVec.ofNat 24 w.toNat), data := v.zeroExtend 512 }
    s.modPath t m.ctlPath (fun x => { x with ctl := x.ctl.push tok })
  | _ => s

/-- A message reaches its router (R252, R253): the tussock keeps a broadcast until its APPLY; a control core takes an acknowledgement of its
armed notice, and what else comes for it or the reeve waits in its mail; one for port 28 leaves on the rill extension; a control token enters its sluice. -/
def State.rillDeliver (s : State) (t : Nat) (m : RillMsg) : State :=
  if m.cast then
    let b : W32 × Nat × W64 := (m.words.headD 0, m.type, BitVec.ofNat 64 (leNat (m.words.tail.flatMap (fun w => leBytes 4 w.toNat))))
    s.modTus t (fun x => { x with bcasts := x.bcasts ++ [b] })
  else match m.port with
    | 26 => if m.type == 1 && !m.edge then s.ackNotice m else s.modFen (fenOf t) (fun f => { f with mail := f.mail ++ [m] })
    | 27 => s.modFen 2 (fun f => { f with mail := f.mail ++ [m] })
    | 28 => s.rillExt m
    | 24 => if m.epoch == (s.tus1 t).epoch then s.putCtl t m else s.staleAt t m.srcT m.epoch
    | _ => s

/-- The message at the head of an input of a rill router, with its place among the router's (R254). -/
def rillHead (q : List RillMsg) (i : Nat) : Option (Nat × RillMsg) := ((List.range q.length).zip q).find? (fun e => e.2.inp == i)
/-- The requests at a rill router's output: the head of each input bound for it, ranked by message type (R252, R254). -/
def State.rillRequests (s : State) (t : Nat) (o : Port5) : List Req :=
  (List.range 5).filterMap (fun i => match rillHead (Tbl.lk [] s.rillq t) i with
    | some (_, m) => if (m.outs t).contains o && !(o == .loc && s.ctlFull t m) then some { idx := i, rank := (rillRank m.type).getD 0, age := m.age } else none
    | none => none)

/-- The header word of a rill message (R252). -/
def RillMsg.header (m : RillMsg) : Nat :=
  m.destT * 2 ^ 24 + m.port * 2 ^ 19 + m.type * 2 ^ 15 + m.words.length * 2 ^ 11 + m.epoch.toNat * 2 ^ 8

/-- A message leaves a place of a rill router's queue by one output: it is gone, or a broadcast stays for its other outputs. -/
def rillLeave (t i : Nat) (o : Port5) (m : RillMsg) (q : List RillMsg) : List RillMsg :=
  let m' := { m with served := m.served ++ [o.num] }
  if m.cast && !(m'.outs t).isEmpty then setAt q i m' else dropAt q i

/-- A message with a reserved type or port is discarded as in R244, with the event RILL_MISROUTE (R252); where a tussock sent it, the section
that owns the tussock faults. -/
def State.rillMisroute (s : State) (t : Nat) (m : RillMsg) : State :=
  let d := [(32, m.header)]
  match (if m.edge then none else (s.tus1 m.srcT).owner) with
  | some p => s.sectionFault p .rillMisroute (linkUnit 0 0 t) 0 d
  | none => s.logPut (s.logRec 1 0x32 none (linkUnit 0 0 t) 0 d)

/-- RILL_ROUTE (R252 to R256): the output of a rill router serves one request: a whole message moves over its link or reaches
its router. A word is a beat (entry 42). -/
def execRillRoute (t : Fin 256) (o : Port5) (s : State) : Host.Outcome State Fault Refusal :=
  let q := Tbl.lk [] s.rillq t.val
  let l := s.rillRequests t.val o
  let k := arbKey 2 t.val o
  match (s.arb k).own s.meshNow l with
  | none => .next s
  | some w => match rillHead q w.idx with
    | none => .next s
    | some (i, m) =>
      if (rillRank m.type).isNone || !rillPortOk m.port then .next ({ s with rillq := Tbl.up s.rillq t.val (dropAt q i) }.rillMisroute t.val m)
      else
        let u := { s with rillq := Tbl.up s.rillq t.val (rillLeave t.val i o m q) }.serve k s.meshNow (s.get 0x3800 1) l w (1 + m.words.length)
        match link t.val o with
        | some (v, j) => .next { u with rillq := Tbl.mod [] u.rillq v (· ++ [{ m with inp := j, served := [] }]) }
        | none => .next (u.rillDeliver t.val m)

/-- FIRING_NOTICE (R90): a control core receives the k-th message of its mail, a firing notice. -/
def execFiringNotice (f : Fin 2) (k : Nat) (s : State) : Host.Outcome State Fault Refusal :=
  match (s.fen f.val).mail[k]? with
  | some m => if m.type = 3 then .next (s.modFen f.val (fun x => { x with mail := dropAt x.mail k })) else .next s
  | none => .next s

end Sys2Proof.Machine
end

