-- ==== Sys2Proof/Machine/MireOps.lean ====
section
/-! DEFINITION. The mire (R67, R71, R74, R75, R271, R279, R281, R282): arming, the start tick, fault notices and control tokens,
and the section-load command (R23). -/
namespace Sys2Proof.Machine

/-- The messages from a lode, or those of CC0's own mail. -/
def State.mireMail (s : State) (src : Option (Fin 24)) : List RillMsg :=
  match src with | some n => (s.lode n.val).rillIn | none => (s.fen 0).mail
/-- Takes the k-th of them. -/
def State.takeMail (s : State) (src : Option (Fin 24)) (k : Nat) : State :=
  match src with
  | some n => s.modLode n.val (fun l => { l with rillIn := dropAt l.rillIn k })
  | none => s.modFen 0 (fun f => { f with mail := dropAt f.mail k })
/-- Payload word i. -/
def RillMsg.w (m : RillMsg) (i : Nat) : W32 := m.words.getD i 0
/-- The partition of a mire message, whose first word holds the sender's address × 8 + the partition (entry 56). -/
def RillMsg.part (m : RillMsg) : Nat := (m.w 0).toNat % 8

/-- A packet or message with the wrong fingerprint (R271): counted, and the running section faults. -/
def State.configMismatch (s : State) (p : Nat) : State := (s.bump 0x3300 5).sectionFault p .configMismatch 0 0 []

/-! ### Arming (R67, R281) -/

/-- Does the notice of every member equal the master's own values, for a load that awaits the verdict (R67): fingerprint, first step, MIRE_BOX
and MIRE_MASTER? -/
def State.roundGood (s : State) (p : Nat) (g : Staged) (told : List (Nat × W64 × W64 × W64 × Nat)) : Bool :=
  g.phase == .notice && (boxDevs s.mireBox).all (fun d => told.any (fun n =>
    n.1 == 8 * d + p && n.2.1 == g.sec.fingerprint && n.2.2.1 == g.sec.first && n.2.2.2.1 == BitVec.ofNat 64 (s.get 0x3000 3) && n.2.2.2.2 == s.master))

/-- Sends the same message of a partition to every member of the mire (R67, R74). -/
def State.mireCast (s : State) (p type : Nat) (fp : W64) (words : List W32) : State :=
  (boxDevs s.mireBox).foldl (fun s d => s.mireSend p d type fp words) s

/-- The master's verdict on a partition's round (R67), broadcast, and the round is over. -/
def State.verdict (s : State) (p : Nat) : State :=
  let told := s.mire.notices
  let s := { s with mire := { s.mire with notices := told.filter (fun n => n.1 % 8 != p), firstAt := Tbl.del s.mire.firstAt p } }
  match (s.part p).staged with
  | some g => s.mireCast p 1 g.sec.fingerprint [BitVec.ofNat 32 (b2n (s.roundGood p g told))]
  | none => s.mireCast p 1 0 [0]

/-- ARMED_NOTICE (R67): the master receives the k-th message, a member's armed notice, and gives its verdict when every member
of the box has armed. -/
def execArmedNotice (src : Option (Fin 24)) (k : Nat) (s : State) : Host.Outcome State Fault Refusal :=
  match (s.mireMail src)[k]? with
  | some m =>
    if m.type ≠ 1 ∨ m.words.length ≠ 8 ∨ s.master ≠ s.self then .next s
    else
      let s := s.takeMail src k
      let n := ((m.w 0).toNat, m.w64 1, m.w64 3, m.w64 5, (m.w 7).toNat)
      let first := (Tbl.lk? s.mire.firstAt m.part).getD s.timeBase
      let s := { s with mire := { s.mire with notices := s.mire.notices.filter (fun e => e.1 != n.1) ++ [n], firstAt := Tbl.up s.mire.firstAt m.part first } }
      if (boxDevs s.mireBox).all (fun d => s.mire.notices.any (fun e => e.1 == 8 * d + m.part)) then .next (s.verdict m.part) else .next s
  | none => .next s

/-- ARM_VERDICT_TIMEOUT (R67): one mire tick after the first notice of a partition's round the master gives its verdict. -/
def execArmVerdictTimeout (s : State) : Host.Outcome State Fault Refusal :=
  .next ((List.range 8).foldl (fun s p => if s.past (Tbl.lk? s.mire.firstAt p) (2 ^ s.get 0x3400 2) then s.verdict p else s) s)

/-- MIRE_VERDICT (R67): a member receives the verdict and posts its one load completion. -/
def execMireVerdict (src : Option (Fin 24)) (k : Nat) (s : State) : Host.Outcome State Fault Refusal :=
  match (s.mireMail src)[k]? with
  | some m =>
    if m.type ≠ 1 ∨ m.words.length ≠ 2 then .next s
    else
      let s := s.takeMail src k
      match (s.part m.part).staged with
      | some g =>
        if g.phase ≠ .notice then .next s
        else if m.w 1 = 1 then .next ((s.modPart m.part (fun q => { q with staged := some { g with phase := .armed } })).loadDone m.part g 0 0)
        else .next (s.refuseLoad m.part 0x12 0)
      | none => .next s
  | none => .next s

/-! ### The common start (R74, R282, R329, R331) -/

/-- OP_SETTLE in mesh cycles (R331). -/
def opSettle : Nat := 32768
/-- The first mire tick at or after a time (R282). -/
def State.tickFrom (s : State) (t : Nat) : Nat := ceilDiv t (2 ^ s.get 0x3400 2) * 2 ^ s.get 0x3400 2

/-- DRAIN_REPORT (R74, R282, R329): a member's report reaches the master; with the last one the master chooses the tick and
the slowest point reported, and broadcasts the start message. -/
def execDrainReport (src : Option (Fin 24)) (k : Nat) (s : State) : Host.Outcome State Fault Refusal :=
  match (s.mireMail src)[k]? with
  | some m =>
    if m.type ≠ 2 ∨ s.master ≠ s.self then .next s
    else
      let s := s.takeMail src k
      if s.fp m.part ≠ m.fp then .next (s.configMismatch m.part)
      else
        let l := s.mire.reports.filter (fun r => r.1 != (m.w 0).toNat) ++ [((m.w 0).toNat, (m.w 1).toNat)]
        if (boxDevs s.mireBox).all (fun d => l.any (fun r => r.1 == 8 * d + m.part)) then
          let pt := maxOf ((l.filter (fun r => r.1 % 8 == m.part)).map (·.2))
          let lead := s.get 0x3400 4 + (if pt = s.get 0x2000 3 ∧ s.power.trimPending = 0 then 0 else opSettle)
          let tick := s.tickFrom (s.timeBase.toNat + lead)
          let s := { s with mire := { s.mire with reports := l.filter (fun r => r.1 % 8 != m.part) } }
          .next (s.mireCast m.part 0 m.fp (BitVec.ofNat 32 pt :: w2 (BitVec.ofNat 64 tick)))
        else .next { s with mire := { s.mire with reports := l } }
  | none => .next s

/-- MIRE_START_MESSAGE (R282, R331): a member receives the tick and the common point; one that receives it after its tick
faults with MIRE_START_LATE. -/
def execMireStartMessage (src : Option (Fin 24)) (k : Nat) (s : State) : Host.Outcome State Fault Refusal :=
  match (s.mireMail src)[k]? with
  | some m =>
    if m.type ≠ 0 then .next s
    else
      let s := s.takeMail src k
      let tick := m.w64 2
      if s.fp m.part ≠ m.fp then .next (s.configMismatch m.part)
      else if tick.toNat < s.timeBase.toNat then .next (s.sectionFault m.part .mireStartLate 0 0 [])
      else .next ((s.modPart m.part (fun q => { q with run := q.run.map (fun u => { u with tick := some tick }) })).changePoint (m.w 1).toNat)
  | none => .next s

/-- MIRE_TICK (R74, R282): a mire tick falls; the members' sections whose chosen tick has come start their steps. -/
def execMireTick (s : State) : Host.Outcome State Fault Refusal :=
  if s.timeBase.toNat % 2 ^ s.get 0x3400 2 ≠ 0 ∨ !s.inMire then .next s
  else .next ((List.range 8).foldl (fun s p => match (s.part p).run with
    | some r => if s.mayStart r then s.startStep p else s
    | none => s) s)

/-! ### Fault notices, control tokens, section-load commands (R23, R71, R75, R279) -/

/-- FAULT_NOTICE (R75, R279): a member's fault notice arrives; this member's section faults with PEER_SECTION_FAULT. -/
def execFaultNotice (n : Fin 24) (k : Nat) (s : State) : Host.Outcome State Fault Refusal :=
  match (s.mireMail (some n))[k]? with
  | some m =>
    if m.type ≠ 7 then .next s
    else
      let s := s.takeMail (some n) k
      let p := (m.w 0).toNat % 8
      if (s.part p).run.isSome ∧ s.fp p ≠ m.fp then .next (s.configMismatch p)
      else .next (s.sectionFault p .peerSectionFault 0 (m.w 1).toNat [])
  | none => .next s

/-- RILL_CONTROL_TOKEN (R71, R271, R279): a control token from another member is checked at ingress and enters the rill toward
its sluice; one that is one epoch ahead stays at the ingress. -/
def execRillControlToken (n : Fin 24) (k : Nat) (s : State) : Host.Outcome State Fault Refusal :=
  match (s.mireMail (some n))[k]? with
  | some m =>
    if m.type ≠ 8 then .next s
    else match (s.tus1 m.destT).owner with
      | none => .next ((s.takeMail (some n) k).staleAt m.destT 0 m.epoch)
      | some p =>
        let e := (s.tus1 m.destT).epoch
        if s.fp p ≠ m.fp then .next ((s.takeMail (some n) k).configMismatch p)
        else if m.epoch = e then .next ((s.takeMail (some n) k).rillSend { m with port := 24, srcT := 240 * fenOf m.destT, edge := true })
        else if m.epoch = e + 1 then .next s
        else .next ((s.takeMail (some n) k).stale (some p) 0 m.epoch)
  | none => .next s

/-- SECTION_LOAD_COMMAND (R23): a control core takes the k-th message of its mail, a section-load command, and begins its share
of PREPARE; CC0 passes the share of a partition with east tussocks to CC1, which reports its completion to CC0 over the rill by a message of the
same type with a second word of 1 (entry 148). -/
def execSectionLoadCommand (f : Fin 2) (k : Nat) (s : State) : Host.Outcome State Fault Refusal :=
  match ((s.fen f.val).mail)[k]? with
  | some m =>
    if m.type ≠ 5 then .next s
    else
      let s := s.modFen f.val (fun x => { x with mail := dropAt x.mail k })
      let p := (m.w 0).toNat % 8
      let r := s.rect p
      let share := fun (s : State) (n : Nat) => s.modPart p (fun q => { q with staged := q.staged.map (fun g => { g with shares := addOnce g.shares n }) })
      if f.val = 1 then .next (s.rillSend { m with destT := 0, srcT := 240, words := [m.w 0, 1] })
      else if m.w 1 = 1 then .next (share s 1)
      else
        let s := share s 0
        if 8 < r.x + r.w then .next (s.rillSend { m with destT := 240, srcT := 0 }) else .next s
  | none => .next s

end Sys2Proof.Machine
end

