-- ==== Sys2Proof/Machine/LodeIn.lean ====
section
/-! DEFINITION. Packets received whole at a lode and not yet taken (R269 to R271, R274). -/
namespace Sys2Proof.Machine

/-- The k-th packet received at a lode, where it is the first in its VC's buffer (R274, R277; entry 151). -/
def State.lodePkt (s : State) (n k : Nat) : Option LPkt :=
  ((s.lode n).inbox[k]?).bind (fun x => if ((s.lode n).inbox.take k).any (fun y => y.vc == x.vc) then none else some x)
/-- Takes the k-th packet of a lode: its buffers are free, and their credits go back with the next control block (R274). -/
def State.takeLode (s : State) (n k : Nat) : State :=
  match s.lodePkt n k with
  | none => s
  | some p => s.modLode n (fun l => { l with inbox := dropAt l.inbox k, back := Tbl.mod 0 l.back p.vc (· + p.flits) })

/-- The fingerprint check of the types that carry a section's traffic (R271): on a mismatch the packet is discarded and the
running section faults with CONFIG_MISMATCH. A partition with no running section has no fingerprint to differ from (entry 152). -/
def State.checkFp (s : State) (n k : Nat) (f : LPkt → State → State) : State :=
  match s.lodePkt n k with
  | none => s
  | some x =>
    let p := x.dpart
    if (s.part p).run.isNone || x.fp == s.fp p then f x (s.takeLode n k)
    else ((s.takeLode n k).bump 0x3300 5).sectionFault p .configMismatch (lodeUnit n) 0 []

end Sys2Proof.Machine
end

