-- ==== Sys2Proof/Machine/Sump.lean ====
section
/-! DEFINITION. The sump (R290 to R308): contributions, partials, the root's rounding, results, thinning and norms; and the
re-read of a tile whose CRC failed (R133). -/
namespace Sys2Proof.Machine

/-! ### Slots and groups (R294, R295) -/

/-- A crossbar half's sump. -/
def State.sumpHalf (s : State) (h : Nat) : SumpHalf := Tbl.lk {} s.sump h
/-- Changes a crossbar half's sump. -/
def State.modSump (s : State) (h : Nat) (f : SumpHalf → SumpHalf) : State := { s with sump := Tbl.mod {} s.sump h f }
/-- Is a slot the one of a tile of a group? -/
def SumpSlot.is (k : SumpSlot) (p g q : Nat) : Bool := k.part == p && k.group == g && k.seq == q
/-- The slot of a tile: in the west half for an even TILE_SEQ (R292). -/
def State.slot? (s : State) (p g q : Nat) : Option SumpSlot := (s.sumpHalf (q % 2)).slots.find? (fun k => k.is p g q)
/-- Sets the slot of a tile. -/
def State.setSlot (s : State) (k : SumpSlot) : State :=
  s.modSump (k.seq % 2) (fun h =>
    { h with slots := if h.slots.any (fun o => o.is k.part k.group k.seq)
                      then h.slots.map (fun o => if o.is k.part k.group k.seq then k else o) else h.slots ++ [k] })
/-- Frees the slot of a tile. -/
def State.freeSlot (s : State) (k : SumpSlot) : State :=
  s.modSump (k.seq % 2) (fun h => { h with slots := h.slots.filter (fun o => !o.is k.part k.group k.seq) })
/-- Changes a group's progress in the step. -/
def State.modGroupRun (s : State) (p g : Nat) (f : GroupRun → GroupRun) : State :=
  let r := f (s.groupRun p g)
  { s with groups := s.groups.filter (fun o => !(o.part == p && o.group == g)) ++ [r] }

/-- Adds integers by position; a sum of 0 leaves no entry. -/
def addInts (t : Tbl Int) (vs : List (Nat × Int)) : Tbl Int :=
  vs.foldl (fun t v => let n := Tbl.lk 0 t v.1 + v.2; if n = 0 then Tbl.del t v.1 else Tbl.up t v.1 n) t
/-- Combines special maps by bitwise OR (R294). -/
def orMap (t : Tbl Nat) (vs : List (Nat × Nat)) : Tbl Nat :=
  vs.foldl (fun t v => if v.2 = 0 then t else Tbl.up t v.1 (Tbl.lk 0 t v.1 ||| v.2)) t
/-- The special code of an element (R294): 0 finite, 1 +∞, 2 -∞, 3 NaN. -/
def specialOf (w : W32) : Nat :=
  match f32 w with | .nan => 3 | .inf neg => if neg then 2 else 1 | .fin .. => 0

/-- The valid elements of a quadrant tile, by position. -/
def quadElems (t : List Byte) (rows cols : Nat) : List (Nat × W32) :=
  ((List.range 1024).filter (fun i => decide (i / 32 < rows) && decide (i % 32 < cols))).map (fun i =>
    (i, BitVec.ofNat 32 (tileElem .fp32 t (i / 32) (i % 32))))
/-- The exact sum of values. -/
def sumInts (l : List Int) : Int := l.foldl (· + ·) 0

/-- DETAIL_WORD of the sump's faults: the group and TILE_SEQ (R300; entry 53). -/
def tileWord (g q : Nat) : Nat := g * 2 ^ 24 + q % 2 ^ 24

/-! ### Thinning (R301, R302) -/

/-- The step number of a partition's section. -/
def State.runStep (s : State) (p : Nat) : Nat := match (s.part p).run with | some r => r.step.toNat | none => 0
/-- START_STEP of a partition's manifest (R290). -/
def State.startOf (s : State) (p : Nat) : Nat := match (s.part p).manifest with | some m => m.startStep.toNat | none => 0
/-- Is the step thinned for a group (R301)? -/
def State.thinned (s : State) (p : Nat) (g : GroupDecl) : Bool :=
  g.thinning != 0 && (if g.densePeriod = 0 then s.runStep p != s.startOf p
    else ((s.runStep p : Int) - s.startOf p) % g.densePeriod != 0)
/-- Rows and columns of a quadrant tile that lie inside its tensor (DEDUCED: what VALID_ROWS and VALID_COLS give). -/
def GroupTensor.extent (t : GroupTensor) (row col : Nat) : Nat × Nat := (Nat.min 32 (t.rows - 32 * row), Nat.min 32 (t.cols - 32 * col))
/-- Rank value of a reference element (R302): its magnitude, NaN above +∞. -/
def refRank (w : W32) : Nat := if (f32 w).isNan then 2 ^ 31 else w.toNat % 2 ^ 31
/-- The mask of a tile (R302): the k = ⌈n × f⌉ valid positions of largest |REF|, lower positions first among equals. -/
def maskOf (thin rows cols : Nat) (ref : Tbl W32) : List Nat :=
  let ps := (List.range 1024).filter (fun i => decide (i / 32 < rows) && decide (i % 32 < cols))
  let k := ceilDiv ps.length (4 ^ thin)
  let rank := fun (i : Nat) => refRank (Tbl.lk 0 ref i)
  ps.filter (fun i => decide ((ps.filter (fun j => decide (rank i < rank j) || (rank j == rank i && decide (j < i)))).length < k))
/-- The positions whose values a tile's partial and result carry, in order (R296, R302). -/
def State.positions (s : State) (p : Nat) (g : GroupDecl) (k : SumpSlot) : List Nat :=
  if s.thinned p g then
    match g.tileOf k.seq, k.efRef with
    | some (t, row, col, _), some (_, ref) => let e := t.extent row col; maskOf g.thinning e.1 e.2 ref
    | _, _ => []
  else List.range 1024

/-! ### Packets of the sump (R296, R297) -/

/-- TARGET of a sump packet (R297). -/
def sumpTarget (kind group seq : Nat) : Nat := kind * 2 ^ 29 + group * 2 ^ 24 + seq % 2 ^ 24
/-- ARG of a sump packet (R297). -/
def sumpArg (step : Nat) (epoch : BitVec 3) (nonfinite thinned last : Bool) (index : Nat) : Nat :=
  (step % 2 ^ 32) * 2 ^ 32 + epoch.toNat * 2 ^ 29 + b2n nonfinite * 2 ^ 28 + b2n thinned * 2 ^ 27 + b2n last * 2 ^ 26 + index * 2 ^ 20
/-- The lowest bit position of a nonzero integer. -/
def lowBit (i : Int) : Nat := ((List.range 320).find? (fun b => i.natAbs.testBit b)).getD 0
/-- Bits of an integer in two's complement. -/
def signedBits (i : Int) : Nat := if 0 ≤ i then bitLen i.toNat + 1 else bitLen (-i - 1).toNat + 1
/-- LSB and WIDTH of a run (R296): the smallest WIDTH that holds its values after the shift by LSB; both 0 where every value is zero. -/
def runShape (vs : List Int) : Nat × Nat :=
  match minOf? ((vs.filter (· != 0)).map lowBit) with
  | none => (0, 0)
  | some lsb => (lsb, ceilDiv (maxOf (vs.map (fun v => signedBits (v / 2 ^ lsb)))) 8)
/-- Bytes of a run (R296): its header, and COUNT values of WIDTH bytes. -/
def runBytes (vs : List Int) : Nat := 4 + vs.length * (runShape vs).2
/-- Cuts values into runs of 32. -/
def runsOf : Nat → List Int → List (List Int)
  | 0, _ => []
  | n + 1, l => if l.isEmpty then [] else l.take 32 :: runsOf n (l.drop 32)
/-- Groups runs into packets of at most 7,648 payload bytes (R296): index of the first run, its runs, its bytes. -/
def packRuns : List (List Int) → Nat → Nat × List (List Int) × Nat → List (Nat × List (List Int) × Nat)
  | [], _, cur => [cur]
  | r :: t, i, (first, rs, n) =>
    if n + runBytes r ≤ 7648 then packRuns t (i + 1) (first, rs ++ [r], n + runBytes r)
    else (first, rs, n) :: packRuns t (i + 1) (i, [r], runBytes r)
/-- The packets of a partial: index of the first run, the values, the payload bytes; the special map follows the last run. -/
def partialPackets (x : SumpPart) : List (Nat × List Int × Nat) :=
  let l := (packRuns (runsOf 32 x.vals) 0 (0, [], 64)).map (fun k => (k.1, k.2.1.flatten, k.2.2))
  if x.special.isEmpty then l
  else match l.reverse with
    | [] => l
    | (i, vs, n) :: r => if n + 256 ≤ 7648 then (((i, vs, n + 256) :: r).reverse) else l ++ [(i + (vs.length + 31) / 32, [], 256)]

/-- Sends a tile's partial to the parent (R296). -/
def State.sendPartial (s : State) (p : Nat) (g : GroupDecl) (k : SumpSlot) (x : SumpPart) : State :=
  match g.parentOf s.self with
  | none => s
  | some d =>
    let ps := partialPackets x
    let last := ps.length - 1
    ((List.range ps.length).zip ps).foldl (fun s e =>
      let (j, i, vs, n) := e
      let arg := sumpArg (s.runStep p) k.epoch (!x.special.isEmpty) (s.thinned p g) (j == last) i
      let part := { x with vals := vs, special := if j = last then x.special else [] }
      s.hopSend d (s.mkPkt p d p 16 (sumpTarget 0 g.group k.seq) arg (.part part) (payFlits n))) s

/-- Sends a tile's result to one child (R298). -/
def State.sendResultTo (s : State) (p : Nat) (g : GroupDecl) (k : SumpSlot) (x : SumpRes) (d : Nat) : State :=
  let arg := sumpArg (s.runStep p) k.epoch (x.vals.any nonFinite) (s.thinned p g) true 0
  s.hopSend d (s.mkPkt p d p 16 (sumpTarget 1 g.group k.seq) arg (.res x) (payFlits (64 + 4 * x.vals.length)))

/-- Asks a neighbour to send a partial or a result again (R300). -/
def State.askAgain (s : State) (p : Nat) (g : GroupDecl) (k : SumpSlot) (kind d : Nat) : State :=
  let s := s.setSlot { k with asked := addOnce k.asked d }
  s.hopSend d (s.mkPkt p d p 16 (sumpTarget kind g.group k.seq) (sumpArg (s.runStep p) k.epoch false (s.thinned p g) true 0) .none)

/-! ### Landing a result (R298, R299, R304) -/

/-- Children of this device in a group's tree. -/
def State.kids (s : State) (g : GroupDecl) : List Nat := g.kidsOf s.self

/-- A result has landed in a subtree (R298): the member reports MC_LANDED once its children have; at the root the commit is due. -/
def State.checkLanded (s : State) (p : Nat) (g : GroupDecl) (q : Nat) : State :=
  match s.slot? p g.group q with
  | none => s
  | some k =>
    if k.result.isNone || !(s.kids g).all k.landed.contains || k.landedUp || (g.root == s.self && k.sentAt.isNone) then s
    else
      let s := s.setSlot { k with landedUp := true, due := g.root == s.self }
      match g.parentOf s.self with
      | none => s
      | some d => s.hopSend d (s.mkPkt p d p 11 (32 + g.group) q .none)

/-- The root sends a tile's result down the tree (R298). -/
def State.sendResult (s : State) (p : Nat) (g : GroupDecl) (k : SumpSlot) (x : SumpRes) : State :=
  let k := { k with result := some x, sentAt := some s.timeBase, limitAt := s.timeBase.toNat + usCycles (s.get 0x3300 1) }
  ((s.kids g).foldl (fun s d => s.sendResultTo p g k x d) (s.setSlot k)).checkLanded p g k.seq

/-- A result as 1,024 elements: +0 outside the mask. -/
def State.spread (s : State) (p : Nat) (g : GroupDecl) (k : SumpSlot) (x : SumpRes) : List W32 :=
  let ps := (s.positions p g k).zip x.vals
  (List.range 1024).map (fun i => Tbl.lk 0 ps i)

/-- The landed tile (R299), for a landing tussock's epoch. -/
def landedTile (tensor row col : Nat) (e : Nat × Nat) (epoch : BitVec 3) (ws : List W32) (residue : Nat) (nonfinite : Bool) : List Byte :=
  mkTile { tensor := BitVec.ofNat 32 tensor, row := BitVec.ofNat 32 row, col := BitVec.ofNat 32 col, fmt := 1, epoch := epoch.toNat,
           vrows := e.1, vcols := e.2, residue := residue, nonfinite := nonfinite } (packElems 4 (ws.map (·.toNat)))

/-- The 256 bytes of a norm slot (R304). -/
def normBytes (total sum : W32) (contribs tensor step : Nat) (thinned : Bool) : List Byte :=
  leBytes 4 total.toNat ++ leBytes 4 sum.toNat ++ leBytes 4 contribs ++ leBytes 4 tensor ++ leBytes 4 step
    ++ leBytes 1 (b2n thinned) ++ rep 235 0

/-- The tussock of a landing. -/
def Landing.tus (l : Landing) : Nat := match l.space with | .pool t => t | .spad r => tusOf r | _ => tusOf l.reed

/-- Sends one slot of a landing as a fill write from a crossbar half, acknowledged to its result buffer (R299). -/
def State.landFill (s : State) (h id : Nat) (l : Landing) (slot : Nat) (data : List Byte) : State :=
  s.inject (slot % 2) (halfNode (fenOf l.tus)) (l.space.node l.tus) 75 l.space.port slot
    (.fill { space := l.space, slot := slot, data := data, ack := some (sumpAck h, id) } none 0)

/-- The place of a tile of a tensor's copy in HBM4, with its stack (R221, R322). -/
def State.hbmTile (s : State) (p : Nat) (role : PPRole) (tensor row col : Nat) : Option (Nat × Nat) :=
  let c := copyOf (s.part p).manifest (s.runStep p) role tensor
  match (s.part p).places.find? (fun y => y.tensor == c) with
  | none => none
  | some y => match y.space with
    | some (.hbm i) => some (i, y.addr + 4608 * (row * (tileGrid y.rows y.cols y.fmt).2 + col))
    | _ => none
/-- Writes a tile of EF or REF in its NEXT copy (R303, R322). -/
def State.putNext (s : State) (p tensor row col : Nat) (e : Nat × Nat) (epoch : BitVec 3) (ws : List W32) : State :=
  match s.hbmTile p .next tensor row col with
  | none => s
  | some (i, a) => s.putBytes (.hbm i) a (landedTile tensor row col e epoch ws 0 false)

/-- Advances BASE past the tiles already committed (R295). -/
def advanceBase : Nat → GroupRun → GroupRun
  | 0, r => r
  | n + 1, r => if r.done.contains r.base then advanceBase n { r with base := r.base + 1, done := r.done.filter (· != r.base) } else r

/-- The result leaves its slot (R298): BASE advances, MC_COMMIT goes down, every landing and REF are written; a tensor's last
tile brings the norm slots and the report to CC0 (R304). -/
def State.commitTile (s : State) (p : Nat) (g : GroupDecl) (k : SumpSlot) (x : SumpRes) : State :=
  match g.tileOf k.seq with
  | none => s.freeSlot k
  | some (t, row, col, _) =>
    let h := k.seq % 2
    let id := (s.sumpHalf h).nextOut
    let ws := s.spread p g k x
    let bad := x.vals.any nonFinite
    let thin := s.thinned p g
    let per := if x.norms.isSome then 19 else 18
    let s := s.freeSlot k
    let s := s.modSump h (fun y => { y with nextOut := id + 1,
                                            buf := if k.landings.isEmpty then y.buf else y.buf ++ [{ id := id, part := p, acks := per * k.landings.length }] })
    let s := s.modGroupRun p g.group (fun r => advanceBase (g.slots + 1) { r with done := addOnce r.done k.seq })
    let s := (s.kids g).foldl (fun s d => s.hopSend d (s.mkPkt p d p 12 (32 + g.group) k.seq .none)) s
    let s := k.landings.foldl (fun s l =>
      let b := landedTile t.id row col (k.rows, k.cols) (s.tus1 l.tus).epoch ws x.residue bad
      let s := (List.range 18).foldl (fun s i => s.landFill h id l (l.slot + i) ((b.drop (256 * i)).take 256)) s
      match x.norms with
      | none => s
      | some n => s.landFill h id l (l.slot - 18 * l.quad + 72) (normBytes n.1 n.2 x.contribs t.id (s.runStep p) thin)) s
    let s := if g.thinning = 0 then s else s.putNext p t.refId row col (k.rows, k.cols) k.epoch ws
    match x.norms, (s.part p).run with
    | some n, some r =>
      s.modPart p (fun q => { q with merges := addMerge q.merges { r.merge t.id with sqnorm := some n.1 } })
    | _, _ => s

/-- Commits the tiles of a half whose MC_COMMIT has come, while its result buffer has room (R298). -/
def State.runCommits (s : State) (h : Nat) : State :=
  ((s.sumpHalf h).slots.filter (·.due)).foldl (fun s k =>
    if 64 ≤ (s.sumpHalf h).buf.length then s
    else match (s.boundGroups k.part).find? (fun g => g.group == k.group), k.result with
      | some g, some x => s.commitTile k.part g k x
      | _, _ => s.freeSlot k) s

/-! ### The root (R298, R304) -/

/-- One result element (R298): NaN and infinities from the special map, else the exact sum rounded once to RESULT_FMT. -/
def rootElem (fmt : Nat) (k : SumpSlot) (i : Nat) : W32 :=
  match Tbl.lk 0 k.special i with
  | 3 => 0x7FC00000
  | 2 => 0xFF800000
  | 1 => 0x7F800000
  | _ =>
    let v := Tbl.lk 0 k.el i
    if v = 0 then 0
    else if fmt = 2 then BitVec.ofNat 32 ((Fmt.bf16.encode .near false (.ofInt v (-160))).bits * 2 ^ 16)
    else toF32 (.ofInt v (-160))
/-- The square of a finite element as an integer of units 2^-298. -/
def squareInt (w : W32) : Int :=
  match f32 w with | .fin _ m e _ => finInt false (m * m) (2 * e) (-298) | _ => 0
/-- A norm of R304: NaN and +∞ by its flags, else the exact sum rounded once to FP32. -/
def normOf (i e : Int) (flags : Nat) : W32 :=
  if bit flags 1 then 0x7FC00000 else if bit flags 0 then 0x7F800000 else if i = 0 then 0 else toF32 (.ofInt i e)

/-- The root's tile is complete (R298, R304): rounded, its norms added to its tensor's; its result leaves, but the last tile's
waits until every tile of the tensor is complete. -/
def State.rootTile (s : State) (p : Nat) (g : GroupDecl) (k : SumpSlot) : State :=
  match g.tileOf k.seq with
  | none => s
  | some (t, row, col, last) =>
    let vals := (s.positions p g k).map (rootElem t.fmt k)
    let x : SumpRes := { residue := residueOf (sumInts (vals.map accInt)), contribs := k.contribs, norms := none, vals := vals }
    let old := ((s.groupRun p g.group).norms.find? (fun n => n.tensor == t.id)).getD { tensor := t.id }
    let flags := (if !k.special.isEmpty || vals.any (fun w => (f32 w).isNan) then 2 else 0) ||| (if vals.any nonFinite then 1 else 0)
    let n : NormAcc := { old with sq := old.sq + k.sq, sqFlags := old.sqFlags ||| k.sqFlags,
                                  tot := old.tot + sumInts (vals.map squareInt), totFlags := old.totFlags ||| flags, tiles := old.tiles + 1 }
    let s := s.modGroupRun p g.group (fun r => { r with norms := r.norms.filter (fun m => m.tensor != t.id) ++ [n] })
    let s := s.setSlot { k with result := some x }
    let s := if last then s else s.sendResult p g k x
    if n.tiles < t.tiles then s
    else
      let lastSeq := k.seq + (t.tiles - 1 - (row * t.tileCols + col))
      match s.slot? p g.group lastSeq with
      | some e => match e.result with
        | some y => s.sendResult p g e { y with norms := some (normOf n.tot (-298) n.totFlags, normOf n.sq (-160) n.sqFlags) }
        | none => s
      | none => s

/-! ### Completing a tile (R296, R303) -/

/-- EF's new value at a position (R303): fp32(v) outside the mask, +0 inside it and where v is not finite. -/
def efElem (k : SumpSlot) (mask : List Nat) (i : Nat) : W32 :=
  if mask.contains i ∨ Tbl.lk 0 k.localSpecial i ≠ 0 then 0
  else let v := Tbl.lk 0 k.el i; if v = 0 then 0 else toF32 (.ofInt v (-160))

/-- A tile with everything added (R296): EF is written, then the partial goes up, or the root, whose check of the sum's residue comes first
(R300), rounds it. -/
def State.settleTile (s : State) (p : Nat) (g : GroupDecl) (q : Nat) : State :=
  match s.slot? p g.group q with
  | none => s
  | some k =>
    if k.sent.isSome || k.result.isSome || k.local_ != g.contrib || !k.efDone || k.kids.length != (s.kids g).length then s
    else
      let thin := s.thinned p g
      let ps := s.positions p g k
      if g.root = s.self ∧ residueOf (sumInts (k.el.map (fun e => e.2))) ≠ k.residue then
        s.failCollective p g .sumpResidue (sumpUnit (q % 2)) (tileWord g.group q)
      else
      let s := match g.tileOf q with
        | some (t, row, col, _) =>
          if g.thinning = 0 then s
          else
            let ws := if thin then (List.range 1024).map (efElem k ps) else rep 1024 0
            s.putNext p t.efId row col (k.rows, k.cols) k.epoch ws
        | none => s
      let s := if thin then s.bump 0x7600 3 else s
      if g.root = s.self then s.rootTile p g k
      else
        let vals := ps.map (fun i => Tbl.lk 0 k.el i)
        let x : SumpPart := { residue := residueOf (sumInts vals), contribs := k.contribs, sq := k.sq, sqFlags := k.sqFlags, vals := vals, special := k.special }
        ((s.setSlot { k with sent := some x }).bump 0x7600 2).sendPartial p g k x

/-- The adder's residue check after an addition (R300): a transient is counted; a second failure places the half out of
service and fails the collective. -/
def State.adderCheck (s : State) (p : Nat) (g : GroupDecl) (q : Nat) (chk : AddCheck) (f : State → State) : State :=
  match chk with
  | .good => f s
  | .transient => f (s.bump 0x7600 4)
  | .bad => (s.takeOut (sumpUnit (q % 2)) (some p)).failCollective p g .sumpResidue (sumpUnit (q % 2)) (tileWord g.group q)

/-! ### Contributions (R293 to R295) -/

/-- A slot for a tile that has none (R295): a group with thinning awaits its EF and REF tiles (R303). -/
def State.newSlot (s : State) (p : Nat) (g : GroupDecl) (q : Nat) (epoch : BitVec 3) : SumpSlot :=
  { part := p, group := g.group, seq := q, epoch := epoch, efDone := g.thinning == 0, since := s.timeBase }

/-- A contribution with its local values added to its tile's slot (R294, R304). -/
def SumpSlot.addLocal (k : SumpSlot) (w : SumpWait) (vr vc : Nat) : SumpSlot :=
  let es := quadElems w.tile vr vc
  let sp := es.map (fun e => (e.1, specialOf e.2))
  { k with
    el := addInts k.el (es.map (fun e => (e.1, accInt e.2))), special := orMap k.special sp, localSpecial := orMap k.localSpecial sp,
    residue := (k.residue + (TileHdr.ofTile w.tile).residue) % (2 ^ 31 - 1), local_ := k.local_ + 1, contribs := k.contribs + 1,
    sq := k.sq + accInt w.norm,
    sqFlags := k.sqFlags ||| (match specialOf w.norm with | 0 => 0 | 3 => 2 | _ => 1),
    rows := vr, cols := vc, landings := k.landings ++ [{ space := w.space, slot := w.slot, quad := w.quad, reed := w.reed, op := w.op }] }

/-- A checked contribution finds its tile (R294, R295, R300): none, or one that has them all, fails the collective; above the
window it waits; else it is added. -/
def State.addContribution (s : State) (h : Nat) (w : SumpWait) (chk : AddCheck) : State :=
  match s.groupOfReed w.reed w.group with
  | none => s
  | some (p, g) =>
    let hd := TileHdr.ofTile w.tile
    match g.seqOf hd.tensor.toNat hd.row.toNat hd.col.toNat with
    | none => s.failCollective p g .sumpCount (sumpUnit h) (tileWord g.group 0)
    | some q =>
      let run := s.groupRun p g.group
      let k := (s.slot? p g.group q).getD (s.newSlot p g q w.epoch)
      if q < run.base ∨ run.done.contains q ∨ g.contrib ≤ k.local_ then s.failCollective p g .sumpCount (sumpUnit h) (tileWord g.group q)
      else if run.base + g.slots ≤ q then s.modSump h (fun y => { y with waits := y.waits ++ [w] })
      else if k.local_ ≠ 0 ∧ (k.rows ≠ hd.vrows ∨ k.cols ≠ hd.vcols) then s.failCollective p g .tileExtent (sumpUnit h) (tileWord g.group q)
      else if residueOf (sumInts ((quadElems w.tile hd.vrows hd.vcols).map (fun e => accInt e.2))) ≠ hd.residue then
        s.failCollective p g .sumpResidue (sumpUnit h) (tileWord g.group q)
      else (s.bump 0x7600 1).adderCheck p g q chk (fun s => (s.setSlot (k.addLocal w hd.vrows hd.vcols)).settleTile p g q)

/-- Does a waiting contribution's tile now lie inside its window? -/
def State.inWindow (s : State) (w : SumpWait) : Bool :=
  match s.groupOfReed w.reed w.group with
  | none => true
  | some (p, g) =>
    let hd := TileHdr.ofTile w.tile
    match g.seqOf hd.tensor.toNat hd.row.toNat hd.col.toNat with
    | none => true
    | some q => decide (q < (s.groupRun p g.group).base + g.slots)

/-- Commits what is due in both halves and admits the contributions that its advances let in, as long as there are any. -/
def sumpRun : Nat → State → State
  | 0, s => s
  | n + 1, s =>
    let s := (s.runCommits 0).runCommits 1
    match [0, 1].findSome? (fun h => ((s.sumpHalf h).waits.find? s.inWindow).map (fun w => (h, w))) with
    | none => s
    | some (h, w) => sumpRun n ((s.modSump h (fun y => { y with waits := y.waits.erase w })).addContribution h w .good)
/-- Runs the sumps on after an event. -/
def State.sumpOn (s : State) : State := sumpRun ((s.sumpHalf 0).waits.length + (s.sumpHalf 1).waits.length + 1) s

/-- A contribution whose CRC has passed (R294): the header, then the epoch, then its tile. -/
def State.takeContribution (s : State) (h : Nat) (w : SumpWait) (chk : AddCheck) : State :=
  let hd := TileHdr.ofTile w.tile
  if !headerOk { hd with residue := 0, nonfinite := false } .fp32 false then
    s.reedFault w.reed .tileFormat 0 []
  else if BitVec.ofNat 3 hd.epoch ≠ s.epochOf w.reed then s.stale (s.partOf w.reed) (tusOf w.reed) w.epoch
  else (s.addContribution h w chk).sumpOn

/-- Is a packet a part of one contribution: of a reed's operation and quadrant (R293)? -/
def Pkt.partOf (p : Pkt) (reed op q : Nat) : Bool :=
  match p.pay with | .contribution _ _ _ r o u _ _ _ _ => r == reed && o == op && u == q | _ => false
/-- The contribution whose record is the k-th packet delivered to a crossbar half, once its 18 slots are there (R293). -/
def State.contribution (s : State) (h k : Nat) : Option SumpWait :=
  match (s.arrivals (halfNode h))[k]? with
  | some p => match p.pay with
    | .contribution tile group norm reed op q sp landing _ i =>
      if i = 18 ∧ ((s.arrivals (halfNode h)).filter (fun p => p.partOf reed op q)).length = 19 then
        some { tile := tile, group := group, norm := norm, reed := reed, op := op, quad := q, space := sp, slot := landing, epoch := p.epoch }
      else none
    | _ => none
  | none => none
/-- Takes a contribution's packets from a crossbar half. -/
def State.takeParts (s : State) (h : Nat) (w : SumpWait) : State :=
  { s with halves := Tbl.mod {} s.halves h (fun x => { x with arrived := x.arrived.filter (fun p => !p.partOf w.reed w.op w.quad) }) }

/-- SUMP_CONTRIBUTION (R132, R133, R294): the k-th packet at a crossbar half; one whose CRC fails stays for its re-read. -/
def execSumpContribution (h : Fin 2) (k : Nat) (chk : AddCheck) (s : State) : Host.Outcome State Fault Refusal :=
  match s.contribution h.val k with
  | none => .next s
  | some w =>
    if tileCrc w.tile ≠ (TileHdr.ofTile w.tile).crc then .next s
    else .next ((s.takeParts h.val w).takeContribution h.val w chk)

/-- The re-read of a contribution from the arrival buffer ends (R133). -/
def State.sumpReread (s : State) (h k : Nat) : State :=
  match s.contribution h k with
  | none => s
  | some w =>
    let hd := TileHdr.ofTile w.tile
    let t := s.takeParts h w
    if tileCrc w.tile ≠ hd.crc then
      t.reedFault w.reed .tileCrc 0 [(16, w.reed), (32, hd.tensor.toNat), (32, hd.row.toNat), (32, hd.col.toNat)]
    else (t.logEvent 0 0x0101 (t.partOf w.reed) (sumpUnit h) 0 [(16, w.reed)]).takeContribution h w .good

/-- The second read of one tile of a descriptor's source (R133): from the same slots, and from a tier outside the package with what it then
answers; none where that read fails. -/
def State.tileAgain (s : State) (x : Xfer) (i : Nat) (d : HostData) : Option (List Byte) :=
  match x.src with
  | .spad _ | .pool _ | .hbm _ => some ((upto (18 * i) 18).flatMap (fun j => s.bytes x.src (256 * x.srcSlot j) 256))
  | _ => match s.tierRead x.part x.src (x.srcAddr (18 * i)) d with | .ok _ b => some b | _ => none

/-- The re-read of a transposing mover's source tile ends (R133): its 18 slots are read again from the source, the tile is checked, and the
mover goes on or the section faults. -/
def State.moverReread (s : State) (id : Nat) (ds : List HostData) : State :=
  match s.xfer? id with
  | none => s
  | some x =>
    if x.mode ≠ 2 ∨ x.stage.length < x.slots then s
    else
      let tiles := fun (st : Tbl (List Byte)) => tilesOf (x.slots / 18) ((upto 0 x.slots).flatMap (fun i => Tbl.lk (rep 256 0) st i))
      match transposeTiles (tiles x.stage) with
      | .crc i =>
        let s := s.modReed x.reed (fun r => { r with correcting := false })
        match s.tileAgain x i (dataOr x.src ds) with
        | none => s.readLost x (18 * i) (18 * i)
        | some b =>
          let hd := TileHdr.ofTile b
          if tileCrc b ≠ hd.crc then s.reedFault x.reed .tileCrc 0 [(16, x.reed), (32, hd.tensor.toNat), (32, hd.row.toNat), (32, hd.col.toNat)]
          else
            let y : Xfer := { x with stage := (List.range 18).foldl (fun m j => Tbl.up m (18 * i + j) ((b.drop (256 * j)).take 256)) x.stage }
            ((s.modXfer id (fun _ => y)).logEvent 0 0x0101 (some x.part) (reedUnit x.reed) 0 [(16, x.reed)]).moverDone y
      | _ => s

/-- TILE_REREAD_DONE (R133): the re-read of a tile whose CRC failed ends at the unit that consumed it. -/
def execTileRereadDone (u : TileUnit) (s : State) : Host.Outcome State Fault Refusal :=
  match u with
  | .matrix r => .next (s.matReread r.val)
  | .mover x ds => .next (s.moverReread x ds)
  | .sump h k => .next (s.sumpReread h.val k)

/-- One write of an accepted put has been made (R285): WIN_ACK follows its last (DEDUCED from R104: a held write stays
unacknowledged); a window whose close waits is closed with the last put. op is window + 64 × the put's number. -/
def State.windowWritten (s : State) (p op : Nat) : State :=
  let w := op % 64
  let x := s.window p w
  match x.puts.find? (fun e => e.1 == op / 64) with
  | none => s
  | some (i, src, off, left) =>
    if 1 < left then s.modWindow p w (fun x => { x with puts := x.puts.map (fun e => if e.1 = i then (i, src, off, left - 1) else e) })
    else
      let s := s.modWindow p w (fun x => { x with puts := x.puts.filter (fun e => e.1 != i) })
      let s := s.lodeSend (s.mkPkt p src p 4 w off .none)
      if (s.window p w).closing then s.closeWindow p w else s

/-- WRITE_ACK_ARRIVE (R88, R285, R298): an acknowledgement reaches the reed that issued the write, the window of an accepted
put, or the result buffer of a crossbar half, whose result leaves with its last one. -/
def execWriteAckArrive (n : Node) (k : Nat) (s : State) : Host.Outcome State Fault Refusal :=
  match s.arrival n k with
  | some p => match p.pay with
    | .ack r op =>
      let t := s.take n k
      if 8192 ≤ r then .next (t.windowWritten (r - 8192) op)
      else if 6144 ≤ r then
        let less := fun (b : SumpOut) => if b.id = op then { b with acks := b.acks - 1 } else b
        .next (t.modSump (r - 6144) (fun y => { y with buf := (y.buf.map less).filter (fun b => b.acks != 0) })).sumpOn
      else .next (t.ackOp r op)
    | _ => .next s
  | none => .next s

/-! ### Error feedback and reference (R303) -/

/-- The elements of an FP32 tile in HBM4 that are not +0. -/
def State.hbmElems (s : State) (i a : Nat) : Tbl W32 :=
  (quadElems (s.bytes (.hbm i) a 4608) 32 32).filter (fun e => e.2 != 0)

/-- A partial's values added to its tile's slot (R296). -/
def State.addPartial (s : State) (p : Nat) (g : GroupDecl) (k : SumpSlot) (d : Nat) (x : SumpPart) : SumpSlot :=
  { k with
    el := addInts k.el ((s.positions p g k).zip x.vals), special := orMap k.special x.special,
    residue := (k.residue + x.residue) % (2 ^ 31 - 1), kids := k.kids ++ [d], contribs := k.contribs + x.contribs,
    sq := k.sq + x.sq, sqFlags := k.sqFlags ||| x.sqFlags }

/-- SUMP_EF_REF_READ (R303): a tile's EF and REF arrive from HBM4 and EF is added (zero at START_STEP); partials that awaited the
mask follow. -/
def execSumpEfRefRead (part : Fin 8) (group : Fin 16) (q : Nat) (s : State) : Host.Outcome State Fault Refusal :=
  let p := part.val
  match (s.boundGroups p).find? (fun g => g.group == group.val), s.slot? p group.val q with
  | some g, some k =>
    if k.efDone then .next s
    else match g.tileOf q with
      | none => .next s
      | some (t, row, col, _) =>
        let rd : Nat → Tbl W32 := fun id => match s.hbmTile p .cur id row col with | some (i, a) => s.hbmElems i a | none => []
        let ef : Tbl W32 := if s.runStep p = s.startOf p then [] else rd t.efId
        let vs : List (Nat × Int) := ef.map (fun e => (e.1, accInt e.2))
        let sp := ef.map (fun e => (e.1, specialOf e.2))
        let k : SumpSlot := { k with efRef := some (ef, rd t.refId), efDone := true, el := addInts k.el vs,
                                     special := orMap k.special sp, localSpecial := orMap k.localSpecial sp,
                                     residue := (k.residue + residueOf (sumInts (vs.map (fun v => v.2)))) % (2 ^ 31 - 1) }
        let held := k.heldKids
        let k0 : SumpSlot := { k with heldKids := [] }
        let k := held.foldl (fun k e => s.addPartial p g k e.1 e.2) k0
        .next ((s.setSlot k).settleTile p g q).sumpOn
  | _, _ => .next s

/-! ### Packets (R296 to R298, R300, R306) -/

/-- A sump packet at a lode of one KIND (R297): the fingerprint is compared first, then the epoch and the step (R306). -/
def State.sumpPacket (s : State) (n k kind : Nat) (f : LPkt → GroupDecl → Nat → State → State) : State :=
  match s.lodePkt n k with
  | none => s
  | some x =>
    let tg := x.target.toNat
    if x.ptype ≠ 16 ∨ bits tg 31 29 ≠ kind then s
    else
      let t := s.takeLode n k
      let p := x.dpart
      let q := bits tg 23 0
      let stale := (t.bump 0x7600 7).logEvent 11 0x01A0 (some p) (lodeUnit n) x.src [(16, x.src), (3, bits x.arg.toNat 31 29)]
      match (t.boundGroups p).find? (fun g => g.group == bits tg 27 24) with
      | none => if x.fp = t.fp p then stale else t.configMismatch p
      | some g =>
        if x.fp ≠ t.fp p then (t.bump 0x3300 5).failCollective p g .configMismatch (sumpUnit (q % 2)) (tileWord g.group q)
        else
          let epoch := match (t.part p).run with | some r => t.sectEpoch r.sec | none => 0
          if bits x.arg.toNat 31 29 ≠ epoch.toNat ∨ bits x.arg.toNat 63 32 ≠ t.runStep p % 2 ^ 32 then stale
          else (f x g q t).sumpOn

/-- A whole partial of a child (R296, R300): its residue is checked, it is added, or held until the mask is known. -/
def State.takePartial (s : State) (p : Nat) (g : GroupDecl) (q d : Nat) (k : SumpSlot) (x : SumpPart) (chk : AddCheck) : State :=
  if residueOf (sumInts x.vals) ≠ x.residue then
    if k.asked.contains d then s.failCollective p g .sumpResidue (sumpUnit (q % 2)) (tileWord g.group q) else s.askAgain p g k 2 d
  else
    let s := if k.asked.contains d then s.bump 0x7600 4 else s
    let k := { k with asked := without k.asked d }
    s.adderCheck p g q chk (fun s =>
      if s.thinned p g && k.efRef.isNone then s.setSlot { k with heldKids := Tbl.up k.heldKids d x }
      else (s.setSlot (s.addPartial p g k d x)).settleTile p g q)

/-- SUMP_PARTIAL (R296, R300, R307): a PARTIAL packet of a child arrives; with its last packet the partial is checked and added. One more
than a tile's children send it fails the collective. -/
def execSumpPartial (n : Fin 24) (k : Nat) (chk : AddCheck) (s : State) : Host.Outcome State Fault Refusal :=
  .next (s.sumpPacket n.val k 0 (fun x g q s =>
    let p := x.dpart
    match x.pay with
    | .part part =>
      let run := s.groupRun p g.group
      let k := (s.slot? p g.group q).getD (s.newSlot p g q (BitVec.ofNat 3 (bits x.arg.toNat 31 29)))
      if !(s.kids g).contains x.src || k.kids.contains x.src || (Tbl.lk? k.heldKids x.src).isSome || decide (q < run.base) || run.done.contains q
          || (g.tileOf q).isNone then s.failCollective p g .sumpCount (sumpUnit (q % 2)) (tileWord g.group q)
      else
        let got := if bits x.arg.toNat 25 20 = 0 then part
          else match Tbl.lk? k.gather x.src with | some o => { part with vals := o.vals ++ part.vals } | none => part
        if bit x.arg.toNat 26 then s.takePartial p g q x.src { k with gather := Tbl.del k.gather x.src } got chk
        else s.setSlot { k with gather := Tbl.up k.gather x.src got }
    | _ => s))

/-- SUMP_RESULT (R298, R300): a RESULT arrives at a member, is staged in its slot, checked, passed on to the children, and
answered with MC_LANDED. -/
def execSumpResult (n : Fin 24) (k : Nat) (s : State) : Host.Outcome State Fault Refusal :=
  .next (s.sumpPacket n.val k 1 (fun x g q s =>
    let p := x.dpart
    match s.slot? p g.group q, x.pay with
    | some k, .res r =>
      if residueOf (sumInts (r.vals.map accInt)) ≠ r.residue then
        if k.asked.contains x.src then s.failCollective p g .sumpResidue (sumpUnit (q % 2)) (tileWord g.group q) else s.askAgain p g k 3 x.src
      else
        let s := if k.asked.contains x.src then s.bump 0x7600 4 else s
        let k := { k with asked := without k.asked x.src, result := some r }
        ((s.kids g).foldl (fun s d => s.sendResultTo p g k r d) (s.setSlot k)).checkLanded p g q
    | _, _ => s))

/-- RESEND_PARTIAL (R300): a child sends the partial it holds again. -/
def execResendPartial (n : Fin 24) (k : Nat) (s : State) : Host.Outcome State Fault Refusal :=
  .next (s.sumpPacket n.val k 2 (fun x g q s =>
    match s.slot? x.dpart g.group q with
    | some k => match k.sent with | some y => s.sendPartial x.dpart g k y | none => s
    | none => s))

/-- RESEND_RESULT (R300): a parent sends the result it holds again to the child that asks. -/
def execResendResult (n : Fin 24) (k : Nat) (s : State) : Host.Outcome State Fault Refusal :=
  .next (s.sumpPacket n.val k 3 (fun x g q s =>
    match s.slot? x.dpart g.group q with
    | some k => match k.result with | some y => s.sendResultTo x.dpart g k y x.src | none => s
    | none => s))

/-- SUMP_LIMIT (R307): a slot held longer than SUMP_LIMIT fails its collective. -/
def execSumpLimit (part : Fin 8) (group : Fin 16) (q : Nat) (s : State) : Host.Outcome State Fault Refusal :=
  let p := part.val
  match (s.boundGroups p).find? (fun g => g.group == group.val), s.slot? p group.val q with
  | some g, some k =>
    if s.timeBase.toNat - k.since.toNat < msCycles (s.get 0x3600 1) then .next s
    else .next (s.failCollective p g .sumpLimit (sumpUnit (q % 2)) (tileWord g.group q))
  | _, _ => .next s

end Sys2Proof.Machine
end

