-- ==== Sys2Proof/Machine/LodeBytes.lean ====
section
/-! DEFINITION. The bytes of what a lode sends (R265 to R270, R296 to R298, R355): payloads, packets, flits, control blocks, and the blocks
of an encrypted frame. -/
namespace Sys2Proof.Machine

/-! ### Payloads (R117, R269, R296, R298) -/

/-- The 68 bytes of a token in a packet (R117, R270). -/
def Token.bytes (t : Token) : List Byte := leBytes 4 t.tag.toNat ++ leBytes 64 t.data.toNat
/-- The bytes of words, each in the order of R7. -/
def wordBytes (ws : List W32) : List Byte := ws.flatMap (fun w => leBytes 4 w.toNat)
/-- n bytes of an integer in two's complement. -/
def intBytes (n : Nat) (i : Int) : List Byte := leBytes n (i % 2 ^ (8 * n)).toNat
/-- A run of a partial (R296): its header, then COUNT values of the smallest WIDTH, shifted right by LSB. -/
def runEnc (vs : List Int) : List Byte :=
  let (lsb, width) := runShape vs
  leBytes 4 (lsb * 2 ^ 23 + width * 2 ^ 17 + vs.length * 2 ^ 11) ++ vs.flatMap (fun v => intBytes width (v / 2 ^ lsb))
/-- The 256 bytes of a special map (R294, R296): two bits an element. -/
def specialBytes (t : Tbl Nat) : List Byte := leBytes 256 (sumOf (t.map (fun e => e.2 * 2 ^ (2 * e.1))))
/-- The payload of a PARTIAL packet (R296, R297): the tile record in the first packet of its tile, then runs, then the special map where the
packet brings one. -/
def SumpPart.bytes (x : SumpPart) (first : Bool) : List Byte :=
  (if first then leBytes 4 x.residue ++ leBytes 4 x.contribs ++ rep 16 0 ++ intBytes 40 x.sq else [])
    ++ (runsOf 32 x.vals).flatMap runEnc ++ (if x.special.isEmpty then [] else specialBytes x.special)
/-- The payload of a RESULT (R298): its tile record, then the FP32 values. -/
def SumpRes.bytes (x : SumpRes) : List Byte :=
  let norms := match x.norms with | some (t, m) => wordBytes [t, m] | none => rep 8 0
  leBytes 4 x.residue ++ leBytes 4 x.contribs ++ norms ++ rep 48 0 ++ wordBytes x.vals
/-- The words of a rill message: its header and its payload (R252). -/
def RillMsg.wire (m : RillMsg) : List W32 := BitVec.ofNat 32 m.header :: m.words
/-- The bytes of a payload; a partial's first packet is the one whose first run is run 0 (R297). -/
def LPay.bytes (first : Bool) : LPay → List Byte
  | .none => []
  | .toks ts => ts.flatMap Token.bytes
  | .slots b => b
  | .part p => p.bytes first
  | .res r => r.bytes
  | .rill m => wordBytes m.wire

/-! ### Packets and flits (R266, R269, R279) -/

/-- The 32 bytes of a packet header (R269), as a number in the order of R7. -/
def LPkt.header (x : LPkt) : Nat :=
  x.src + x.ptype * 2 ^ 16 + (x.spart * 32 + x.dpart * 4) * 2 ^ 24 + x.target.toNat * 2 ^ 32 + x.arg.toNat * 2 ^ 64 + x.fp.toNat * 2 ^ 128
    + x.wepoch.toNat * 2 ^ 192
/-- The bytes of a packet: header and payload (R269). -/
def LPkt.bytes (x : LPkt) : List Byte := leBytes 32 x.header ++ x.pay.bytes (bits x.arg.toNat 25 20 == 0)
/-- The 240-byte body of a packet's flit i (R266, R269), filled with zeros beyond the packet's end. -/
def LPkt.body (x : LPkt) (i : Nat) : List Byte := (((x.bytes.drop (240 * i)) ++ rep 240 0).take 240)
/-- The words of a message on the rill extension: its own, and two trailing words that hold its FINGERPRINT (R279). -/
def RillMsg.extWire (m : RillMsg) : List W32 := m.wire ++ w2 m.fp

/-- The body of a flit; that of an idle flit is zero (entry 149). -/
def Flit.body (f : Flit) : List Byte := match f.part with | some (p, i) => p.body i | none => rep 240 0
/-- The RILL field of a flit (R266); zero where RILL_V is 0. -/
def Flit.rillWord (f : Flit) : W32 := match f.rill with | some (m, i) => m.extWire.getD i 0 | none => 0
/-- Sideband bits 127 to 96 and 63 to 32 of a flit (R266): all but RILL and CRC, as two words. -/
def Flit.side (f : Flit) : Nat × Nat :=
  let of_ := fun (g : LPkt → Nat → Nat) => match f.part with | some (p, i) => g p i | none => 0
  (f.lseq.toNat * 2 ^ 16 + of_ (fun p _ => p.vc) * 2 ^ 11 + f.pos * 2 ^ 9 + of_ (fun p _ => p.epoch.toNat) * 2 ^ 6
    + of_ (fun p _ => b2n p.cls) * 2 ^ 5 + b2n f.idle * 2 ^ 4 + b2n f.rill.isSome * 2 ^ 3,
   of_ (fun p i => if i = 0 then p.dst * 2 ^ 16 + p.flits * 2 ^ 8 else 0))

/-- A flit as transmitted (R266, R268): a body and a RILL field, both already encrypted, and the rest of the sideband in the clear, with the
CRC-32C of all but itself. -/
def Flit.block (f : Flit) (body : List Byte) (rill : List Byte) : List Byte :=
  let (hi, lo) := f.side
  let side := leBytes 4 lo ++ rill ++ leBytes 4 hi
  body ++ leBytes 4 (crc32c (body ++ side)).toNat ++ side

/-! ### Control blocks and frames (R265, R267, R268, R355) -/

/-- Bytes 0 to 239 of a control block (R267). -/
def CtlBlock.bytes (c : CtlBlock) : List Byte :=
  leBytes 6 c.frameSeq ++ leBytes 2 c.ackLseq.toNat ++ leBytes 1 (b2n c.nak + 2 * b2n c.throttle + 4 * b2n c.locked)
    ++ (List.range 20).flatMap (fun v => leBytes 1 (Tbl.lk 0 c.credits v)) ++ rep 3 0
    ++ leBytes 8 c.tbMark.toNat ++ leBytes 6 c.tbSync ++ leBytes 2 c.srcDev ++ rep 192 0

/-- The nonce of a frame (R355): lode, direction (0 from the lower address), four zero bytes, FRAME_SEQ in the order of R7 (entry 149). -/
def frameNonce (n dir seq : Nat) : List Byte := leBytes 1 n ++ leBytes 1 dir ++ rep 4 0 ++ leBytes 6 seq

/-- The 18 blocks of a frame (R265, R267, R268): the flits' bodies and RILL fields encrypted, the rest of their sidebands and the control
block authenticated; the tag ends the control block. -/
def frameBlocks (key : BitVec 256) (nonce : List Byte) (fs : List Flit) (cb : CtlBlock) : List (List Byte) :=
  let cipher := gcmXor key nonce (fs.flatMap (fun f => f.body ++ leBytes 4 f.rillWord.toNat))
  let bs := ((List.range fs.length).zip fs).map (fun e => e.2.block ((cipher.drop (244 * e.1)).take 240) ((cipher.drop (244 * e.1 + 240)).take 4))
  let clear := bs.flatMap (fun b => (b.drop 240).take 8 ++ b.drop 252)
  bs ++ [cb.bytes ++ leBytes 16 (Config.gcmTag key nonce (clear ++ cb.bytes) cipher).toNat]

/-- Blocks with the lanes they travel on, from block k of the lode on (R265). -/
def onLanes (k : Nat) (bs : List (List Byte)) : List (Nat × List Byte) := ((List.range bs.length).zip bs).map (fun e => ((k + e.1) % 4, e.2))

end Sys2Proof.Machine
end

