-- ==== Sys2Proof/Machine/LodePkts.lean ====
section
/-! DEFINITION. What the packets of a lode do when they arrive: tokens, bulk puts, windows, multicasts, CTRL and THROTTLE (R71,
R270, R271, R279, R283 to R287, R298, R307). -/
namespace Sys2Proof.Machine

/-! ### Tokens and bulk puts (R71, R270, R271) -/

/-- The tussock and port of TARGET (R270). -/
def targetTus (x : LPkt) : Nat := bits x.target.toNat 15 8
/-- The port of TARGET (R270). -/
def targetPort (x : LPkt) : Nat := bits x.target.toNat 7 3

/-- The ingress checks of a TOKEN or BULK_PUT (R271): fingerprint, then epoch; a packet one epoch ahead is held, up to 64 flits a
lode, and beyond that it keeps its buffer (R71). -/
def State.atIngress (s : State) (n k ptype : Nat) (f : LPkt → State → State) : State :=
  match s.lodePkt n k with
  | none => s
  | some x =>
    if x.ptype ≠ ptype then s
    else if (s.part x.dpart).run.isSome && x.fp != s.fp x.dpart then s.checkFp n k (fun _ s => s)
    else
      let e := (s.tus1 (targetTus x)).epoch
      if x.epoch = e then f x (s.takeLode n k)
      else if x.epoch = e + 1 then
        (if sumOf ((s.lode n).held.map (·.flits)) + x.flits ≤ 64 then (s.takeLode n k).modLode n (fun l => { l with held := l.held ++ [x] }) else s)
      else (s.takeLode n k).stale (some x.dpart) x.src x.epoch

/-- TOKEN (R270, R271): the tokens of a packet enter the mesh toward their queue. -/
def execToken (n : Fin 24) (k : Nat) (s : State) : Host.Outcome State Fault Refusal :=
  .next (s.atIngress n.val k 1 (fun x s =>
    let t := targetTus x
    match x.pay with
    | .toks ts => if 24 ≤ targetPort x then s else ts.foldl (fun s tok =>
        s.inject ((t / 16) % 2) (halfNode (fenOf t)) (tusNode t) 75 (targetPort x) 0
          (.token tok (.queue (24 * t + targetPort x) (bits x.target.toNat 2 0)))) s
    | _ => s))

/-- BULK_PUT (R270): a slot or a tile enters the mesh toward its slots as fill writes. -/
def execBulkPut (n : Fin 24) (k : Nat) (s : State) : Host.Outcome State Fault Refusal :=
  .next (s.atIngress n.val k 2 (fun x s =>
    let t := targetTus x
    let sp := if targetPort x = 24 then Space.pool t else Space.spad (24 * t + targetPort x)
    let slot := bits x.arg.toNat 31 16
    match x.pay with
    | .slots b => (List.range (b.length / 256)).foldl (fun s i =>
        s.inject ((slot + i) % 2) (halfNode (fenOf t)) (tusNode t) 75 (targetPort x) (slot + i)
          (.fill { space := sp, slot := slot + i, data := (b.drop (256 * i)).take 256 } none 0)) s
    | _ => s))

/-! ### Windows (R284 to R286) -/

/-- Answers a put that is dropped with WIN_CLOSED and the window's epoch (R285). -/
def State.dropPut (s : State) (p w : Nat) (x : LPkt) : State :=
  (s.bump 0x3300 4).lodeSend (s.mkPkt p x.src x.spart 5 w (s.window p w).epoch.toNat .none)

/-- An accepted put writes its slots (R285): into a pool as fill writes, into HBM4 at once. -/
def State.acceptPut (s : State) (p w : Nat) (x : LPkt) (b : List Byte) : State :=
  let v := s.window p w
  let off := x.arg.toNat
  if v.hbm then
    (s.putBytes (.hbm v.place) (256 * v.first + off) b).lodeSend (s.mkPkt p x.src x.spart 4 w off .none)
  else
    let i := v.nextPut
    let m := b.length / 256
    let s := s.modWindow p w (fun y => { y with puts := y.puts ++ [(i, x.src, off, m)], nextPut := i + 1 })
    (List.range m).foldl (fun s j =>
      let slot := v.first + off / 256 + j
      s.inject (slot % 2) (halfNode (fenOf v.place)) (tusNode v.place) 75 24 slot
        (.fill { space := .pool v.place, slot := slot, data := (b.drop (256 * j)).take 256, ack := some (windowAck p, w + 64 * i) } none 0)) s

/-- WIN_PUT (R285): a put is accepted at an open window of its epoch, from inside the peer box; else it is dropped. -/
def execWinPut (n : Fin 24) (k : Nat) (s : State) : Host.Outcome State Fault Refusal :=
  match s.lodePkt n.val k with
  | none => .next s
  | some x =>
    if x.ptype ≠ 3 then .next s
    else .next (s.checkFp n.val k (fun x s =>
      let p := x.dpart
      let w := x.target.toNat % 64
      let v := s.window p w
      match x.pay with
      | .slots b =>
        if v.isOpen && !v.closing && v.epoch == x.wepoch && inBox v.box x.src && decide (x.arg.toNat + b.length ≤ 256 * v.slots) then
          s.acceptPut p w x b
        else s.dropPut p w x
      | _ => s))

/-- WIN_ACK (R285): the put of one slot of a descriptor has been written. -/
def execWinAck (n : Fin 24) (k : Nat) (s : State) : Host.Outcome State Fault Refusal :=
  match s.lodePkt n.val k with
  | none => .next s
  | some x =>
    if x.ptype ≠ 4 then .next s
    else
      let t := s.takeLode n.val k
      let slot := x.arg.toNat / 256
      let hit := fun (f : Xfer) => decide (f.dstBase ≤ slot) && decide (slot < f.dstBase + f.slots) && !f.got.contains (slot - f.dstBase)
      match (t.putsTo x.dpart x.src x.target.toNat).find? hit with
      | some f => .next (t.putDone f (slot - f.dstBase))
      | none => .next t

/-- WIN_CLOSED (R286): the streams with puts to that window halt with WINDOW_CLOSED and the owner's epoch; WINDOW_LIMIT starts. -/
def execWinClosed (n : Fin 24) (k : Nat) (s : State) : Host.Outcome State Fault Refusal :=
  match s.lodePkt n.val k with
  | none => .next s
  | some x =>
    if x.ptype ≠ 5 then .next s
    else
      let t := s.takeLode n.val k
      .next (((t.putsTo x.dpart x.src x.target.toNat).filter (fun f => !f.halted)).foldl (fun t f =>
        (t.haltXfer f .windowClosed (f.dstAddr f.done) x.arg.toNat none).modXfer f.id (fun y =>
          { y with limitAt := t.timeBase.toNat + msCycles (t.get 0x3300 2) })) t)

/-- WIN_OPEN (R284, R286): the unicast descriptors that name the window take its new epoch, and halted streams resume. -/
def execWinOpen (n : Fin 24) (k : Nat) (s : State) : Host.Outcome State Fault Refusal :=
  match s.lodePkt n.val k with
  | none => .next s
  | some x =>
    if x.ptype ≠ 6 then .next s
    else
      let t := s.takeLode n.val k
      let w := x.target.toNat
      let e := BitVec.ofNat 16 x.arg.toNat
      let upd := fun (d : PeerDesc) => match d with
        | .unicast dev win _ => if dev = x.src ∧ win = w then .unicast dev win e else d
        | d => d
      let t := t.modPart x.dpart (fun q => { q with peers := q.peers.map (fun d => (d.1, upd d.2)) })
      .next (((t.putsTo x.dpart x.src w).filter (fun f => f.halted && f.fault == .windowClosed)).foldl (fun t f => t.resumePuts f x.src w e) t)

/-- WIN_CLOSE (R285): a close message. A descriptor of the partition that names the sender's window keeps its epoch, so a later put
is answered with WIN_CLOSED; where the message names, by its epoch, an open window of this device whose peer box holds the
sender, that window closes after its accepted puts are written (entry 59). -/
def execWinClose (n : Fin 24) (k : Nat) (s : State) : Host.Outcome State Fault Refusal :=
  match s.lodePkt n.val k with
  | none => .next s
  | some x =>
    if x.ptype ≠ 7 then .next s
    else
      let t := s.takeLode n.val k
      let w := x.target.toNat % 64
      let v := t.window x.dpart w
      let peer := (t.part x.dpart).peers.any (fun d => match d.2 with | .unicast dev win _ => dev == x.src && win == w | _ => false)
      if !peer && v.isOpen && inBox v.box x.src && v.epoch == BitVec.ofNat 16 x.arg.toNat then .next (t.closeWindow x.dpart w) else .next t

/-- WINDOW_LIMIT (R286): no WIN_OPEN has come within the limit for a halted stream, and its section faults. -/
def execWindowLimit (xfer : Nat) (s : State) : Host.Outcome State Fault Refusal :=
  match s.xfer? xfer with
  | none => .next s
  | some x =>
    if x.halted && x.fault == .windowClosed && decide (x.limitAt ≤ s.timeBase.toNat) then
      .next (s.reedFault x.reed .windowLimit 0 [])
    else .next s

/-! ### Multicasts (R287) -/

/-- The group a sump message names: a bound group of the partition, or one of its manifest once the section has faulted. -/
def State.groupNamed (s : State) (p g : Nat) : Option GroupDecl :=
  match (s.boundGroups p).find? (fun d => d.group == g) with
  | some d => some d
  | none => match (s.part p).manifest with | some m => (s.bind m).find? (fun d => d.group == g) | none => none

/-- Has everything a multicast awaits in its subtree been granted? -/
def Mcast.allGranted (m : Mcast) : Bool := m.kids.all m.granted.contains && (!m.target || m.reserved)
/-- Has all its data landed in its subtree? -/
def Mcast.allLanded (m : Mcast) : Bool := m.kids.all m.landed.contains && (!m.target || m.landedSelf)

/-- The packets of a multicast's data (R270): tiles of 18 slots, then single slots; offset and bytes. -/
def mcChunks : Nat → Nat → List Byte → List (Nat × List Byte)
  | 0, _, _ => []
  | n + 1, off, b =>
    if b.isEmpty then []
    else
      let k := if 4608 ≤ b.length then 4608 else 256
      (off, b.take k) :: mcChunks n (off + k) (b.drop k)

/-- Sends the data down, and lands the root's own copy where the root is a target. -/
def State.mcSendData (s : State) (m : Mcast) : State :=
  let cs := mcChunks (m.bytes.length / 256 + 1) 0 m.bytes
  let s := cs.foldl (fun s c => s.mcDown m 10 (c.1 + m.seq * 2 ^ 32) (payFlits c.2.length) (.slots c.2)) s
  let own : Tbl (List Byte) := (List.range m.slots).map (fun i => (i, (m.bytes.drop (256 * i)).take 256))
  s.setMcast { m with grantSent := true, data := if m.target then own else [], landedSelf := m.target }

/-- The window slot at which a multicast's slot i lands. -/
def Window.slotAt (v : Window) (m : Mcast) (i : Nat) : Nat := v.first + m.first + i

/-- A target commits (R287): every reserved slot takes its data and turns FULL. -/
def State.mcFill (s : State) (m : Mcast) : State :=
  if !m.target then s
  else
    let v := s.window m.part m.group
    m.data.foldl (fun s d =>
      let slot := v.slotAt m d.1
      if v.hbm then s.putBytes (.hbm v.place) (256 * slot) d.2
      else s.fillSlot { space := .pool v.place, slot := slot, data := d.2 }) s

/-- The root commits (R287): MC_COMMIT goes down, the sending reed's write is acknowledged. -/
def State.mcCommitRoot (s : State) (m : Mcast) : State :=
  let s := (s.mcDown m 12 m.seq 1 .none).mcFill m
  let s := match m.reed with
    | none => s
    | some (r, op) =>
      let s := s.modReed r (fun x => x.finishOp op)
      (s.xfers.filter (fun (x : Xfer) => x.reed == r && x.op == op)).foldl (fun s x => s.dropXfer x) s
  s.dropMcast m

/-- Sends up, or at the root does next, what the multicast's progress allows (R287). -/
def State.mcAdvance (s : State) (p g root seq : Nat) : State :=
  match s.mcast? p g root seq with
  | none => s
  | some m =>
    let s := if m.allGranted && !m.grantSent then
        (match m.parent with
          | none => s.mcSendData m
          | some _ => (s.setMcast { m with grantSent := true }).mcUp m 9)
      else s
    match s.mcast? p g root seq with
    | none => s
    | some m =>
      if m.grantSent && m.allLanded && !m.landedSent then
        (match m.parent with
          | none => s.mcCommitRoot m
          | some _ => (s.setMcast { m with landedSent := true }).mcUp m 11)
      else s

/-- MC_RESERVE (R287): a reservation arrives at a target or a branch and is forwarded down. -/
def execMcReserve (n : Fin 24) (k : Nat) (s : State) : Host.Outcome State Fault Refusal :=
  match s.lodePkt n.val k with
  | none => .next s
  | some x =>
    if x.ptype ≠ 8 then .next s
    else .next (s.checkFp n.val k (fun x s =>
      let g := x.target.toNat % 32
      let a := x.arg.toNat
      let box := Tbl.lk [] (s.part x.dpart).mboxes g
      let m : Mcast := { part := x.dpart, group := g, seq := bits a 63 32, slots := bits a 15 0, first := bits a 31 16, root := x.src,
                         parent := mcParent x.src box s.self, kids := mcKids x.src box s.self, target := inBox box s.self }
      if (s.mcast? m.part g m.root m.seq).isSome then s
      else ({ s with mcasts := s.mcasts ++ [m] }).mcDown m 8 a 1 .none))

/-- MC_TARGET_RESERVE (R287): a target reserves its window slots once all are EMPTY and no other multicast holds them, then
grants. -/
def execMcTargetReserve (part : Fin 8) (group : Fin 32) (root : W16) (seq : Nat) (s : State) : Host.Outcome State Fault Refusal :=
  match s.mcast? part.val group.val root.toNat seq with
  | none => .next s
  | some m =>
    let v := s.window m.part m.group
    let mine := (List.range m.slots).map (v.slotAt m)
    let held := s.mcasts.any (fun o => o.part == m.part && o.group == m.group && o.reserved && !(o.root == m.root && o.seq == m.seq)
      && (List.range o.slots).any (fun i => mine.contains (v.slotAt o i)))
    if !m.target || m.reserved || !v.isOpen || held || (!v.hbm && mine.any (fun i => s.tag (.pool v.place) i != .empty)) then .next s
    else .next ((s.setMcast { m with reserved := true }).mcAdvance m.part m.group m.root m.seq)

/-- MC_GRANT (R287): a child's grant arrives; a branch grants when every child has, and the root sends the data. -/
def execMcGrant (n : Fin 24) (k : Nat) (s : State) : Host.Outcome State Fault Refusal :=
  match s.lodePkt n.val k with
  | none => .next s
  | some x =>
    if x.ptype ≠ 9 then .next s
    else .next (s.checkFp n.val k (fun x s =>
      let g := x.target.toNat
      let seq := bits x.arg.toNat 31 0
      let root := bits x.arg.toNat 63 32
      match s.mcast? x.dpart g root seq with
      | none => s
      | some m => (s.setMcast { m with granted := addOnce m.granted x.src }).mcAdvance x.dpart g root seq))

/-- MC_DATA (R287): data lands in reserved slots, whose tags stay EMPTY, and is forwarded down; after the last, MC_LANDED. -/
def execMcData (n : Fin 24) (k : Nat) (s : State) : Host.Outcome State Fault Refusal :=
  match s.lodePkt n.val k with
  | none => .next s
  | some x =>
    if x.ptype ≠ 10 then .next s
    else .next (s.checkFp n.val k (fun x s =>
      let g := x.target.toNat
      let seq := bits x.arg.toNat 63 32
      let off := bits x.arg.toNat 31 0 / 256
      match s.mcast? x.dpart g x.src seq, x.pay with
      | some m, .slots b =>
        let s := s.mcDown m 10 x.arg.toNat x.flits x.pay
        let data := (List.range (b.length / 256)).foldl (fun t i => Tbl.up t (off + i) ((b.drop (256 * i)).take 256)) m.data
        let m := if m.target then { m with data := data, landedSelf := decide (m.slots ≤ data.length) } else m
        (s.setMcast m).mcAdvance x.dpart g x.src seq
      | _, _ => s))

/-- MC_LANDED (R287, R298): a child's report arrives, of a multicast or of a reduction group's result. -/
def execMcLanded (n : Fin 24) (k : Nat) (s : State) : Host.Outcome State Fault Refusal :=
  match s.lodePkt n.val k with
  | none => .next s
  | some x =>
    if x.ptype ≠ 11 then .next s
    else .next (s.checkFp n.val k (fun x s =>
      let g := x.target.toNat
      if 32 ≤ g then
        let q := x.arg.toNat
        match (s.boundGroups x.dpart).find? (fun d => d.group + 32 == g), s.slot? x.dpart (g - 32) q with
        | some d, some k => ((s.setSlot { k with landed := addOnce k.landed x.src }).checkLanded x.dpart d q).sumpOn
        | _, _ => s
      else
        let seq := bits x.arg.toNat 31 0
        let root := bits x.arg.toNat 63 32
        match s.mcast? x.dpart g root seq with
        | none => s
        | some m => (s.setMcast { m with landed := addOnce m.landed x.src }).mcAdvance x.dpart g root seq))

/-- MC_COMMIT (R287, R298): a target sets its reserved slots FULL and passes the commit down; a sump member moves the result out
of its slot and advances its window. -/
def execMcCommit (n : Fin 24) (k : Nat) (s : State) : Host.Outcome State Fault Refusal :=
  match s.lodePkt n.val k with
  | none => .next s
  | some x =>
    if x.ptype ≠ 12 then .next s
    else .next (s.checkFp n.val k (fun x s =>
      let g := x.target.toNat
      let a := x.arg.toNat
      if 32 ≤ g then
        match s.slot? x.dpart (g - 32) a with
        | some k => if k.result.isSome then (s.setSlot { k with due := true }).sumpOn else s
        | none => s
      else match s.mcast? x.dpart g x.src a with
        | none => s
        | some m => ((s.mcDown m 12 a 1 .none).mcFill m).dropMcast m))

/-- MC_ABORT (R271, R287, R307): a multicast's targets discard its data and release their slots. For a reduction group every member
passes the abort on, up to the root or down from it, and faults with the carried cause; one that has faulted ignores it. -/
def execMcAbort (n : Fin 24) (k : Nat) (s : State) : Host.Outcome State Fault Refusal :=
  match s.lodePkt n.val k with
  | none => .next s
  | some x =>
    if x.ptype ≠ 13 then .next s
    else
      let p := x.dpart
      let g := x.target.toNat
      let cause := bits x.arg.toNat 7 0
      if 32 ≤ g then
        if (s.part p).run.isSome ∧ x.fp ≠ s.fp p then .next (s.checkFp n.val k (fun _ s => s)) else
        let s := s.takeLode n.val k
        match s.groupNamed p (g - 32) with
        | none => .next s
        | some d =>
          let s := s.bump 0x7600 5
          let fwd := fun (s : State) (dest : Nat) => s.hopSend dest { s.mkPkt p dest p 13 g cause .none with fp := x.fp }
          let down := d.root == s.self || d.parentOf s.self == some x.src
          let s := if down then (s.kids d).foldl fwd s
            else match d.parentOf s.self with | some u => fwd s u | none => s
          if (s.part p).run.isSome then .next (s.sectionFault p (SCause.ofCode cause) (lodeUnit n.val) (tileWord d.group 0) [] (some d.group))
          else .next s
      else .next (s.checkFp n.val k (fun x s =>
        match s.mcast? p g x.src (bits x.arg.toNat 63 32) with
        | none => s
        | some m => (s.mcDown m 13 x.arg.toNat 1 .none).dropMcast m))

/-- HOLD_LIMIT (R287, R298): a hold timer expires before the commit: MC_ABORT is sent and the section, or the collective, fails
with MULTICAST_TIMEOUT. -/
def execHoldLimit (h : HoldKind) (s : State) : Host.Outcome State Fault Refusal :=
  match h with
  | .mcast p g seq =>
    match s.mcast? p.val g.val s.self seq with
    | none => .next s
    | some m =>
      if s.timeBase.toNat < m.limitAt then .next s
      else
        let s := ((s.mcDown m 13 (m.seq * 2 ^ 32 + 0x3B) 1 .none).dropMcast m).bump 0x3300 3
        .next (s.sectionFault p.val .multicastTimeout 0 g.val [])
  | .sump p g q =>
    match (s.boundGroups p.val).find? (fun d => d.group == g.val), s.slot? p.val g.val q with
    | some d, some k =>
      if k.sentAt.isNone || k.due || decide (s.timeBase.toNat < k.limitAt) then .next s
      else .next ((s.bump 0x3300 3).failCollective p.val d .multicastTimeout (sumpUnit (q % 2)) (tileWord g.val q))
    | _, _ => .next s

/-! ### CTRL and THROTTLE (R279, R283) -/

/-- CTRL (R271, R279): a rill message carried between mires enters the rill toward its destination. -/
def execCtrl (n : Fin 24) (k : Nat) (s : State) : Host.Outcome State Fault Refusal :=
  match s.lodePkt n.val k with
  | none => .next s
  | some x =>
    if x.ptype ≠ 17 then .next s
    else .next (s.checkFp n.val k (fun x s =>
      match x.pay with | .rill m => s.rillSend { m with srcT := 240 * fenOf m.destT, dev := 0 } | _ => s))

/-- THROTTLE (R283): a peer enters or leaves the set of peers that have announced emergency throttle. -/
def execThrottle (n : Fin 24) (k : Nat) (s : State) : Host.Outcome State Fault Refusal :=
  match s.lodePkt n.val k with
  | none => .next s
  | some x =>
    if x.ptype ≠ 18 then .next s
    else
      let t := s.takeLode n.val k
      .next { t with throttled := if x.arg = 1 then addOnce t.throttled x.src else without t.throttled x.src }

end Sys2Proof.Machine
end

