-- ==== Sys2Proof/Machine/LodeLink.lean ====
section
/-! DEFINITION. The lodes as links (R264 to R275, R277, R279): frames, control blocks, retry, failure, training; the handshake and
the rekey (R355, R356); SYNC (R280, R281). -/
namespace Sys2Proof.Machine

/-! ### State of a lode -/

/-- Flits of a VC's ingress buffer (R274). -/
def vcBuffer (vc : Nat) : Nat := match vc with | 0 => 64 | 1 => 160 | 2 => 96 | 3 => 96 | _ => 128
/-- Egress rank of a VC (R274). -/
def vcRank (vc : Nat) : Nat := match vc with | 0 => 1 | 1 => 5 | 2 => 4 | 3 => 3 | _ => 2
/-- Sets LODE_STATE. -/
def State.setLodeState (s : State) (n v : Nat) : State := s.set (0x3100 + n) 1 v
/-- The section of a partition, as a user of a lode (R273). -/
def State.userOf (s : State) (p : Nat) : List (Nat × Nat) := match (s.part p).run with | some r => [(p, r.sec.sectionId)] | none => []

/-- A lode goes out of service (R273): logged where its tag check failed twice, what is in flight on it is lost, and the sections
whose traffic used it fault with LODE_DOWN. -/
def State.lodeOut (s : State) (n : Nat) (auth : Bool) : State :=
  let ps := ((List.range 8).filter (fun p => (s.userOf p).any (fun u => (s.lode n).users.contains u)))
  let s := if auth then (s.logEvent 4 0x0130 none (lodeUnit n) 0 []).bump 0x1300 3 else s
  let s := (s.setLodeState n 3).takeOut (lodeUnit n) none
  let s := s.modLode n (fun l => { l with sent := [], again := [], egress := [], cur := none, rillOut := [], rillPos := 0, held := [] })
  s.faultParts ps .lodeDown (lodeUnit n) 0

/-! ### Frames received (R266, R268, R271, R272, R274, R275) -/

/-- Must a packet be discarded on receipt (R271): a reserved type or sump KIND, a VC that does not match, no route? -/
def State.lodeMisrouted (s : State) (x : LPkt) : Bool :=
  vcOf x.ptype x.target.toNat != some x.vc || (x.ptype == 16 && decide (4 ≤ bits x.target.toNat 31 29)) || (x.dst != s.self && (s.groupTo x.dst).isNone)

/-- A packet received whole (R271, R275, R277): discarded, counted and logged with its header, kept for this device, or passed on toward its device. -/
def State.lodeArrive (s : State) (n : Nat) (x : LPkt) : State :=
  let free := fun (s : State) => s.modLode n (fun l => { l with back := Tbl.mod 0 l.back x.vc (· + x.flits) })
  if s.lodeMisrouted x then
    free ((s.logEvent 7 0x0162 none (lodeUnit n) 0 [(192, x.header)]).modLode n (fun l => { l with misroutes := l.misroutes + 1 }))
  else if x.dst = s.self then
    s.modLode n (fun l => { l with inbox := l.inbox ++ [x], users := (s.userOf x.dpart).foldl addOnce l.users })
  else match s.groupTo x.dst with
    | some g => free (s.egress g { x with cls := (n / 4) % 3 == g % 3 && x.cls })
    | none => s

/-- A rill-extension message received whole (R279, R316): for this device it is kept for its row, a snapshot of the mire master is
broadcast at once; else it is passed on inside the box. -/
def State.rillArrive (s : State) (n : Nat) (m : RillMsg) : State :=
  if m.dev ≠ s.self then s.rillExt m
  else if m.type = 4 then
    let v := m.words.getD 1 0
    let apply := BitVec.ofNat 64 ((m.words.getD 2 0).toNat + (m.words.getD 3 0).toNat * 2 ^ 32)
    let at_ := if s.locked then apply else s.timeBase
    let k : Snap := { value := v, issued := apply - BitVec.ofNat 64 (s.get 0x3400 4), apply := at_, unlocked := !s.locked }
    if s.snap.isSome then { s with snapWait := s.snapWait ++ [(v, none)] } else ({ s with snap := some k }).castSnap v at_
  else s.modLode n (fun l => { l with rillIn := l.rillIn ++ [m] })

/-- One flit in order and good (R272): a flit that failed once is counted as good on resend. -/
def State.acceptFlit (s : State) (n : Nat) (f : Flit) : State :=
  let l := s.lode n
  let s := match l.failed with
    | some (q, tag) => if q = f.lseq then (s.modLode n (fun l => { l with failed := none })).bump (0x3100 + n) (if tag then 7 else 4) else s
    | none => s
  let s := s.modLode n (fun l => { l with rxSeq := l.rxSeq + 1 })
  let s := match f.msg with | some m => s.rillArrive n m | none => s
  match f.pkt with | some x => s.lodeArrive n x | none => s

/-- The flits of a frame in order (R272): after a failed one every later flit is discarded; a second failure is lasting. -/
def takeFlits (n : Nat) : List Flit → State → State
  | [], s => s
  | f :: t, s =>
    if f.lseq ≠ (s.lode n).rxSeq then takeFlits n t s
    else if f.good then takeFlits n t (s.acceptFlit n f)
    else match (s.lode n).failed with
      | some (q, _) => if q = f.lseq then s.lodeOut n false else s.modLode n (fun l => { l with nak := true, failed := some (f.lseq, false) })
      | none => s.modLode n (fun l => { l with nak := true, failed := some (f.lseq, false) })

/-- The next frame number expected, under a new key from the switch on (R356). -/
def Lode.rxNext (l : Lode) : Lode :=
  if l.switchRx = some l.rxFrame then { l with keyRx := l.newRx, newRx := none, switchRx := none, rxFrame := 1 } else { l with rxFrame := l.rxFrame + 1 }

/-- LODE_FRAME_RECEIVE (R265, R268, R272, R273): a frame of flits with the outcome of its tag's check, the symbols its FEC corrected
by lane and its uncorrectable codewords. Nothing is released of a frame whose tag does not verify; where it brings again the flit that has
failed before, the fault is lasting. -/
def execLodeFrameReceive (n : Fin 24) (flits : List Flit) (tagOk : Bool) (corrected : List Nat) (uncorrectable : Nat) (s : State) :
    Host.Outcome State Fault Refusal :=
  let n := n.val
  if s.lodeState n ≠ 2 then .next s
  else
    let s := (s.bump (0x3100 + n) 5 (sumOf corrected)).bump (0x3100 + n) 6 uncorrectable
    let fec := fun (l : Lode) => ((List.range 4).zip corrected).foldl (fun t e => Tbl.mod 0 t e.1 (· + e.2)) l.fec
    let s := s.modLode n (fun l => { l.rxNext with fec := fec l })
    if tagOk then .next (takeFlits n flits s)
    else
      let q := (s.lode n).rxSeq
      match (s.lode n).failed with
      | some (f, tag) => if f = q then .next (if flits.any (·.lseq == q) then s.lodeOut n tag else s.modLode n (fun l => { l with nak := true })) else .next (s.modLode n (fun l => { l with nak := true, failed := some (q, true) }))
      | none => .next (s.modLode n (fun l => { l with nak := true, failed := some (q, true) }))

/-- Is sequence number a at most b, within half the range? -/
def seqLe (a b : W16) : Bool := decide ((b - a).toNat < 2 ^ 15)

/-- LODE_CONTROL_BLOCK (R267, R272, R274, R280): credits return, acknowledged flits are dropped, a NAK queues the later ones to be
sent again, the neighbour's flags and TB_SYNC are noted. -/
def execLodeControlBlock (n : Fin 24) (cb : CtlBlock) (s : State) : Host.Outcome State Fault Refusal :=
  let n := n.val
  if s.lodeState n ≠ 2 then .next s
  else .next (s.modLode n (fun l =>
    let left := l.sent.filter (fun f => !seqLe f.lseq cb.ackLseq)
    let fresh := cb.tbSync ≠ l.tbSync
    { l with
      credits := cb.credits.foldl (fun t e => Tbl.up t e.1 (Nat.min (vcBuffer e.1) (Tbl.lk (vcBuffer e.1) t e.1 + e.2))) l.credits,
      sent := left, again := if cb.nak then left else l.again, throttle := cb.throttle, locked := cb.locked,
      tbPrev := if fresh then some l.tbSync else l.tbPrev, tbSync := cb.tbSync, tbAt := if fresh then s.timeBase else l.tbAt }))

/-! ### Frames sent (R265, R267, R272, R274 to R277, R279) -/

/-- The VCs whose head packet has its credits (R274, R275): a packet of class 0 leaves 24 flits free. -/
def State.lodeReqs (s : State) (n : Nat) : List Req :=
  let l := s.lode n
  (List.range 20).filterMap (fun vc => match Tbl.lk [] l.egress vc with
    | p :: _ => if p.flits + (if p.cls then 0 else 24) ≤ Tbl.lk (vcBuffer vc) l.credits vc then some { idx := vc, rank := vcRank vc, age := p.age } else none
    | [] => none)

/-- Sends one word of the waiting rill-extension message (R279). -/
def Lode.rillWord (l : Lode) : Lode × Option (RillMsg × Nat) :=
  match l.rillOut with
  | [] => (l, none)
  | m :: t => (if l.rillPos + 1 < m.extWords then { l with rillPos := l.rillPos + 1 } else { l with rillOut := t, rillPos := 0 }, some (m, l.rillPos))

/-- The packet the next flit belongs to, its VC and its flits already sent: the one in progress, else one that the arbiter
grants. -/
def State.egressNext (s : State) (n : Nat) : Option (State × Nat × LPkt × Nat) :=
  let l := s.lode n
  let head := fun (vc : Nat) => (Tbl.lk [] l.egress vc).head?
  match l.cur with
  | some (vc, i) => (head vc).map (fun p => (s, vc, p, i))
  | none =>
    match (s.arb (lodeArb n)).own s.meshNow (s.lodeReqs n) with
    | none => none
    | some w => (head w.idx).map (fun p =>
        let s := s.serve (lodeArb n) s.meshNow (s.get 0x3800 2) (s.lodeReqs n) w p.flits
        (s.modLode n (fun l => { l with credits := Tbl.up l.credits w.idx (Tbl.lk (vcBuffer w.idx) l.credits w.idx - p.flits),
                                        users := (s.userOf p.spart).foldl (fun us u => if p.src = s.self then addOnce us u else us) l.users }), w.idx, p, 0))

/-- One flit of a frame (R266, R272): a flit to send again, one of a packet, or an idle one. -/
def State.oneFlit (s : State) (n : Nat) : State × Flit :=
  match (s.lode n).again with
  | f :: t => (s.modLode n (fun l => { l with again := t }), f)
  | [] =>
    let keep := fun (s : State) (f : Flit) =>
      (s.modLode n (fun l => { l with txSeq := l.txSeq + 1, sent := (l.sent ++ [f]).drop (l.sent.length + 1 - 512) }), f)
    let (s, rill) := (let r := (s.lode n).rillWord; (s.modLode n (fun _ => r.1), r.2))
    let q := (s.lode n).txSeq
    match s.egressNext n with
    | none => keep s { lseq := q, rill := rill }
    | some (s, vc, p, i) =>
      keep (s.modLode n (fun l => if i + 1 < p.flits then { l with cur := some (vc, i + 1) }
        else { l with cur := none, egress := Tbl.mod [] l.egress vc List.tail })) { lseq := q, part := some (p, i), rill := rill }

/-- The flits of a frame. -/
def flitsOf (n : Nat) : Nat → State → List Flit → State × List Flit
  | 0, s, acc => (s, acc)
  | k + 1, s, acc => let r := s.oneFlit n; flitsOf n k r.1 (acc ++ [r.2])

/-- Is the device's mire time base locked, as its control blocks show (R267)? -/
def State.showsLocked (s : State) : Bool := s.inMire && s.locked

/-- Does this device initiate a lode's handshakes: has it the lower address (R355)? -/
def State.initiates (s : State) (n : Nat) : Bool := decide (s.self < s.get (0x3100 + n) 2)
/-- Is the ingress hold buffer of a lode full (R71, R271)? -/
def Lode.holdFull (l : Lode) : Bool := decide (64 ≤ sumOf (l.held.map (·.flits)))

/-- A frame of a lode that is UP leaves (R265, R267): 17 flits and a control block; the frame that would carry SWITCH_SEQ is frame 0
under the new key (R356). While the hold buffer is full the credits of VC1 stay behind (R271). Without a new key no frame leaves that would
carry FRAME_SEQ 2^47 (R268). -/
def State.transmit (s : State) (n : Nat) : State :=
  if s.lodeState n ≠ 2 then s
  else
    let s := if (s.lode n).switchTx = some (s.lode n).txFrame then
        s.modLode n (fun l => { l with keyTx := l.newTx, newTx := none, switchTx := none, txFrame := 0 }) else s
    if 2 ^ 47 ≤ (s.lode n).txFrame then s else
    let (s, fs) := flitsOf n 17 s []
    let l := s.lode n
    let stay := l.back.filter (fun e => e.1 == 1 && l.holdFull)
    let cb : CtlBlock := { frameSeq := l.txFrame, ackLseq := l.rxSeq - 1, nak := l.nak, throttle := s.power.throttled, locked := s.showsLocked,
                           credits := l.back.filter (fun e => !(e.1 == 1 && l.holdFull)), tbMark := s.timeBase, tbSync := s.mire.lastSync, srcDev := s.self }
    let blocks := frameBlocks (l.keyTx.getD 0) (frameNonce n (b2n (!s.initiates n)) l.txFrame) fs cb
    (s.modLode n (fun l => { l with back := stay, nak := false, txFrame := l.txFrame + 1, txBlock := l.txBlock + 18 })).emit
      (.frame n fs cb (onLanes l.txBlock blocks))

/-- LODE_FRAME_TRANSMIT (R265, R267): a frame time of a lode's egress. -/
def execLodeFrameTransmit (n : Fin 24) (s : State) : Host.Outcome State Fault Refusal := .next (s.transmit n.val)

/-! ### Failure and training (R264, R273) -/

/-- LANE_LOCK_LOSS (R273): a lane loses lock and its lode goes out of service. -/
def execLaneLockLoss (n : Fin 24) (lane : Fin 4) (s : State) : Host.Outcome State Fault Refusal :=
  if s.lodeState n.val = 3 ∨ 4 ≤ lane.val then .next s else .next (s.lodeOut n.val false)

/-- LODE_FEC_RATE_CHECK (R273): the one-second check of a lode's lanes. -/
def execLodeFecRateCheck (n : Fin 24) (s : State) : Host.Outcome State Fault Refusal :=
  let l := s.lode n.val
  let s := s.modLode n.val (fun l => { l with fecMark := l.fec })
  if (List.range 4).any (fun i => decide (Tbl.lk 0 l.fecMark i + 2 ^ 20 < Tbl.lk 0 l.fec i)) ∧ s.lodeState n.val ≠ 3 then .next (s.lodeOut n.val false) else .next s

/-- May the device take part in a lode handshake (R342, R358)? Not once decommissioned, nor in VENDOR_TEST, whose key-derivation engine
is blocked. -/
def State.mayHandshake (s : State) : Bool := !s.fuses.decommissioned && s.get 0x1100 1 == 0

/-- This device's HELLO with random value i (R355): its certificate chain, 32 random bytes, REEVE_SVN and LIFECYCLE (entry 158). -/
def State.helloBytes (s : State) (i : Nat) : List Byte :=
  s.fuses.certificate ++ padTo 4672 Config.issuer ++ leBytes 32 (Config.random i).toNat ++ leBytes 2 (Tbl.lk {} s.slots s.bootSlot).svn
    ++ leBytes 1 (s.get 0x1100 1)

/-- Sends this device's HELLO, with which the transcript begins (R355). -/
def State.sendHello (s : State) (n : Nat) : State :=
  let (i, s) := s.draw
  let m := s.helloBytes i
  (s.modLode n (fun l => { l with hs := .hello, transcript := m })).emit (.lodeHs n .hello m)

/-- LODE_TRAINING (R264, R288, R413): the lanes of a lode have been trained, from phase H on. A failure or another rate leaves it DOWN with LODE_TRAINING; a
peer that is not the expected neighbour, with LODE_NEIGHBOUR; else the handshake begins. -/
def execLodeTraining (n : Fin 24) (r : Trained) (s : State) : Host.Outcome State Fault Refusal :=
  let n := n.val
  if s.lodeState n = 2 ∨ s.lodeState n = 3 ∨ (s.boot ≠ .training ∧ s.boot ≠ .ready) then .next s
  else if !r.locked ∨ r.rate ≠ s.get 0x3020 (n / 4 + 1) then .next ((s.setLodeState n 0).logEvent 7 0x0160 none (lodeUnit n) 0 [])
  else
    let s := (s.set (0x3100 + n) 2 r.peer.toNat).modLode n (fun l => { l with hsFailed := false })
    match s.neighbour (n / 4) with
    | some (d, _) =>
      if !s.mayHandshake then .next ((s.set (0x3100 + n) 3 r.delay.toNat).setLodeState n 0)
      else if d = r.peer.toNat then .next (((s.set (0x3100 + n) 3 r.delay.toNat).setLodeState n 1).sendHello n)
      else .next ((s.setLodeState n 0).logEvent 7 0x0161 none (lodeUnit n) 0 [(16, r.peer.toNat)])
    | none => .next ((s.setLodeState n 0).logEvent 7 0x0161 none (lodeUnit n) 0 [(16, r.peer.toNat)])

/-! ### The handshake and the rekey (R355, R356) -/

/-- A handshake fails (R355): once, to be retried; a second time LODE_AUTH is logged and the lode stays DOWN. A rekey that fails
leaves the keys as they are. -/
def State.hsFail (s : State) (n : Nat) : State :=
  if (s.lode n).rekey then s.modLode n (fun l => { l with rekey := false, hs := .done })
  else if (s.lode n).hsFailed then
    ((s.modLode n (fun l => { l with hs := .dead })).setLodeState n 0).logEvent 4 0x0130 none (lodeUnit n) 0 [] |>.bump 0x1300 3
  else s.modLode n (fun l => { l with hs := .failed, hsFailed := true })

/-- The keys of both directions from the shared secret and the transcript (R355): lower to higher address, higher to lower. -/
def Lode.keys (l : Lode) : BitVec 256 × BitVec 256 :=
  let k := Config.kmac l.secret (leBytes 32 (Config.shake l.transcript).toNat)
  (k.setWidth 256, (k >>> 256).setWidth 256)

/-- The tag of a DONE over the transcript under the derived key of its sender's direction; in a rekey the SWITCH_SEQ that DONE names stands
after the transcript (R355, R356; entry 158). -/
def doneTag (key : BitVec 256) (transcript : List Byte) (switchSeq : Option Nat) : BitVec 128 :=
  Config.kmacTag key (transcript ++ (match switchSeq with | some q => leBytes 6 q | none => []))

/-- Derives the keys and sends DONE; in a rekey DONE names the sender's SWITCH_SEQ (R355, R356). -/
def State.sendDone (s : State) (n : Nat) : State :=
  let up := s.initiates n
  let l := s.lode n
  let (lo, hi) := l.keys
  let tx := if up then lo else hi
  let q := if l.rekey then some (l.txFrame + 2 ^ 16) else none
  let b := (match q with | some q => leBytes 6 q | none => []) ++ leBytes 16 (doneTag tx l.transcript q).toNat
  (s.modLode n (fun l => { l with hs := .done, newTx := some tx, newRx := some (if up then hi else lo), switchTx := q })).emit (.lodeHs n .done b)

/-- A handshake message signed with the identity key over the transcript so far, the message included (R355; entry 158). -/
def State.signedHs (s : State) (n : Nat) (m : List Byte) : List Byte := m ++ s.fuses.sign ((s.lode n).transcript ++ m)

/-- The initiator sends its ephemeral encapsulation key, signed (R355 step 2). -/
def State.sendKemKey (s : State) (n : Nat) : State :=
  let (i, s) := s.draw
  let m := s.signedHs n (padTo 1568 (Config.kemPk ((Config.random i).setWidth 512)))
  (s.modLode n (fun l => { l with hs := .cipher, secret := Config.random i, transcript := l.transcript ++ m })).emit (.lodeHs n .kemKey m)

/-- The responder answers a key with its ciphertext, signed, and holds the shared secret (R355 step 3). -/
def State.sendCipher (s : State) (n : Nat) (msg : List Byte) : State :=
  let (i, s) := s.draw
  let ek := msg.take 1568
  let s := s.modLode n (fun l => { l with secret := Config.kemShared ek (Config.random i), transcript := l.transcript ++ msg })
  let m := s.signedHs n (padTo 1568 (Config.kemCipher ek (Config.random i)))
  (s.modLode n (fun l => { l with transcript := l.transcript ++ m })).emit (.lodeHs n .cipher m)

/-- LODE_HELLO (R355): the peer's HELLO. Its chain, GENERATION, LIFECYCLE PRODUCTION and REEVE_SVN are checked; the initiator then
sends its key. -/
def execLodeHello (n : Fin 24) (m : PeerHello) (s : State) : Host.Outcome State Fault Refusal :=
  let n := n.val
  if (s.lode n).hs ≠ .hello then .next s
  else if !m.chainOk || m.generation != s.get 0x0000 4 || m.lifecycle != 0 || decide (m.svn < s.get 0x1300 1) then .next (s.hsFail n)
  else
    let t := s.modLode n (fun l => { l with hs := .kemKey, transcript := if s.initiates n then l.transcript ++ m.bytes else m.bytes ++ l.transcript })
    .next (if t.initiates n then t.sendKemKey n else t)

/-- LODE_KEM_KEY (R355, R356): the responder receives the initiator's signed key, answers with its ciphertext and sends DONE; on a
lode that is UP the message begins a rekey. -/
def execLodeKemKey (n : Fin 24) (msg : List Byte) (sigOk : Bool) (s : State) : Host.Outcome State Fault Refusal :=
  let n := n.val
  let rekey := s.lodeState n == 2 && (s.lode n).hs == .done
  if s.initiates n || !((s.lode n).hs == .kemKey || rekey) then .next s
  else
    let s := s.modLode n (fun l => { l with rekey := rekey, transcript := if rekey then [] else l.transcript })
    if !sigOk then .next (s.hsFail n)
    else
      .next ((s.sendCipher n msg).sendDone n)

/-- LODE_KEM_CIPHERTEXT (R355): the initiator receives the responder's signed ciphertext, derives the keys and sends DONE. -/
def execLodeKemCiphertext (n : Fin 24) (msg : List Byte) (sigOk : Bool) (s : State) : Host.Outcome State Fault Refusal :=
  let n := n.val
  if (s.lode n).hs ≠ .cipher then .next s
  else if !sigOk then .next (s.hsFail n)
  else
    .next ((s.modLode n (fun l => { l with secret := Config.kemDecap (l.secret.setWidth 512) (msg.take 1568), transcript := l.transcript ++ msg })).sendDone n)

/-- LODE_DONE (R355, R356): the peer's DONE. A tag that verifies confirms the keys: the lode is UP with full credits, or in a rekey
switches at the SWITCH_SEQ that the DONE names. -/
def execLodeDone (n : Fin 24) (tag : BitVec 128) (switchSeq : Nat) (s : State) : Host.Outcome State Fault Refusal :=
  let n := n.val
  let l := s.lode n
  if l.hs ≠ .done ∨ l.newRx.isNone then .next s
  else if tag ≠ doneTag (l.newRx.getD 0) l.transcript (if l.rekey then some switchSeq else none) then .next (s.hsFail n)
  else
    let s := s.bump 0x1300 2
    if l.rekey then .next (s.modLode n (fun l => { l with rekey := false, switchRx := some switchSeq }))
    else
      let up : Lode := { l with keyTx := l.newTx, keyRx := l.newRx, newTx := none, newRx := none, credits := [], back := [], txFrame := 0, rxFrame := 0, txBlock := 0,
                                txSeq := 0, rxSeq := 0, sent := [], again := [], nak := false, failed := none, hsFailed := false }
      .next ((s.modLode n (fun _ => up)).setLodeState n 2)

/-- LODE_HANDSHAKE_RETRY (R355): 1 ms after it failed, a handshake is tried once more. -/
def execLodeHandshakeRetry (n : Fin 24) (s : State) : Host.Outcome State Fault Refusal :=
  if (s.lode n.val).hs = .failed ∧ s.mayHandshake then .next (s.sendHello n.val) else .next s

/-- LODE_REKEY (R356): FRAME_SEQ of a direction has reached 2^46, and the initiator runs the key exchange again under the keys. -/
def execLodeRekey (n : Fin 24) (s : State) : Host.Outcome State Fault Refusal :=
  let n := n.val
  let l := s.lode n
  if s.lodeState n ≠ 2 ∨ !s.initiates n ∨ l.rekey ∨ (l.txFrame < 2 ^ 46 ∧ l.rxFrame < 2 ^ 46) then .next s
  else .next ((s.modLode n (fun l => { l with rekey := true, transcript := [] })).sendKemKey n)

/-! ### SYNC (R280, R281) -/

/-- Mesh cycles of a sync period. -/
def State.syncPeriod (s : State) : Nat := 2 ^ s.get 0x3400 1
/-- SYNC_ADJ, signed. -/
def State.syncAdj (s : State) : Int := toSigned 16 (s.get 0x3400 3)
/-- The number n of the nearest expected edge to a time base, and the error e = t - E (R280). -/
def State.syncError (s : State) : Int × Int :=
  let p : Int := s.syncPeriod
  let t : Int := s.timeBase.toNat - s.syncAdj
  let n := (t + p / 2) / p
  (n, t - n * p)

/-- TB_SYNC of a neighbour inside the mire that shows LOCKED, from a control block at least 4 µs old (R280). -/
def State.syncSource (s : State) : Option Nat :=
  (List.range 24).findSome? (fun n =>
    let l := s.lode n
    if s.lodeState n == 2 && l.locked && s.mirePeers.contains (s.get (0x3100 + n) 2) then
      (if l.tbAt.toNat + usCycles 4 ≤ s.timeBase.toNat then some l.tbSync else l.tbPrev)
    else none)

/-- Sets the mire's SYNC fields. -/
def State.modMire (s : State) (f : Mire → Mire) : State := { s with mire := f s.mire }

/-- A member that is not locked takes its starting value at an edge (R280). -/
def State.syncAcquire (s : State) : State :=
  match s.syncSource with
  | none => s
  | some n =>
    let t := ((n + 1) * s.syncPeriod : Int) + s.syncAdj
    ((({ s with timeBase := BitVec.ofInt 64 t }).modMire (fun m => { m with goodEdges := 0, missed := 0, slew := 0, lastSync := n + 1 })).set 0x3400 5 1)

/-- SYNC_IN_EDGE (R280, R281): an accepted edge. A locked member slews, ignoring an edge too far from E; a member that acquires
counts edges with |e| ≤ 4 and is locked after four in a row; a free one takes its starting value. -/
def execSyncInEdge (s : State) : Host.Outcome State Fault Refusal :=
  if !s.inMire ∨ s.master = s.self then .next s
  else
    let (n, e) := s.syncError
    let note := fun (s : State) => (s.modMire (fun m => { m with missed := 0, lastSync := n.toNat })).set 0x3400 7 (BitVec.ofInt 16 e).toNat
    match s.get 0x3400 5 with
    | 2 => if 256 < e.natAbs then .next (s.bump 0x3400 6) else .next ((note s).modMire (fun m => { m with slew := -e }))
    | 1 =>
      if e.natAbs ≤ 4 then
        let s := (note s).modMire (fun m => { m with goodEdges := m.goodEdges + 1 })
        .next (if 4 ≤ s.mire.goodEdges then (s.modMire (fun m => { m with goodEdges := 0 })).set 0x3400 5 2 else s)
      else .next ((s.modMire (fun m => { m with goodEdges := 0 })).syncAcquire)
    | _ => .next s.syncAcquire

/-- SYNC_OUT_PULSE (R280): at a multiple of the sync period the device drives SYNC_OUT high for 8 µs. -/
def execSyncOutPulse (s : State) : Host.Outcome State Fault Refusal :=
  if s.timeBase.toNat % s.syncPeriod ≠ 0 then .next s
  else
    let n := s.timeBase.toNat / s.syncPeriod
    .next ((s.modMire (fun m => { m with syncOut := true, lastSync := if s.master = s.self then n else m.lastSync })).emit .syncOut)

/-- SYNC_LOST (R281): eight expected edges in a row have brought no accepted edge; the member's lock drops. -/
def execSyncLost (s : State) : Host.Outcome State Fault Refusal :=
  if !s.inMire ∨ s.master = s.self ∨ s.get 0x3400 5 = 0 ∨ s.mire.missed < 8 then .next s
  else .next (((s.modMire (fun m => { m with goodEdges := 0, missed := 0, slew := 0 })).set 0x3400 5 0).logEvent 7 0x0163 none 0 0 [])

/-- What a mesh cycle does to SYNC (R280, R281): the slew's next count each 64 cycles, SYNC_OUT's fall, an expected edge passed. -/
def State.tickSync (s : State) : State :=
  let s := if s.mire.slew = 0 then s
    else if s.mire.slewAt < 63 then s.modMire (fun m => { m with slewAt := m.slewAt + 1 })
    else
      let d : Int := if 0 < s.mire.slew then 1 else -1
      ({ s with timeBase := s.timeBase + BitVec.ofInt 64 d }).modMire (fun m => { m with slew := m.slew - d, slewAt := 0 })
  let s := if s.mire.syncOut ∧ usCycles 8 ≤ s.timeBase.toNat % s.syncPeriod then s.modMire (fun m => { m with syncOut := false }) else s
  if s.inMire && s.master != s.self && decide (((s.timeBase.toNat : Int) - s.syncAdj) % s.syncPeriod = 0) then
    s.modMire (fun m => { m with missed := m.missed + 1 })
  else s

end Sys2Proof.Machine
end

