-- ==== Sys2Proof/Machine/HostLoss.lean ====
section
/-! DEFINITION. The host ports as links and registers (R392, R395, R396, R399 to R403): rings, doorbells, interrupts, heartbeats,
the loss and the return of a host, a partition's change of owner. -/
namespace Sys2Proof.Machine

/-! ### Registers that are computed (R395) -/

/-- The partitions a host owns, as a mask (R395 OWNED). -/
def State.ownedMask (s : State) (q : Nat) : Nat := sumOf ((List.range 8).map (fun p => if s.owner p = q then 2 ^ p else 0))
/-- PORT_STATUS (R395). -/
def State.portStatus (s : State) (q : Nat) : W32 :=
  let p := s.port q
  let ready := s.boot == .ready && s.get 0x6020 1 == 0 && s.get 0x6020 2 == 0
  BitVec.ofNat 32 (p.rate * 2 ^ 28 + p.width * 2 ^ 23 + b2n p.flit * 2 ^ 22 + b2n (s.boot == .recovery) * 2 ^ 21 + b2n ready * 2 ^ 20
    + b2n (s.port (1 - q)).loss.isEmpty * 2 ^ 19 + s.ownedMask q * 2 ^ 8)
/-- PORT_INFO (R395). -/
def portInfo (q : Nat) : Nat := 0x02 * 2 ^ 56 + 0x01 * 2 ^ 48 + q * 2 ^ 40 + 16 * 2 ^ 32 + 4 * 2 ^ 24

/-- Does a port answer a write of its BAR0 and BAR2 (R395, R413)? Its link is up, and the device is neither held nor in RECOVERY. -/
def State.barOpen (s : State) (q : Nat) : Bool :=
  s.boot != .held && s.boot != .recovery && !(s.port q).loss.any (fun k => k == .linkDown || k == .perst || k == .flr || k == .refclk)

/-! ### Reads of registers (R11, R393, R395, R396, R405) -/

/-- A little-endian part of a register: n bytes from a byte offset. -/
def regPart (v off n : Nat) : Nat := v / 2 ^ (8 * off) % 2 ^ (8 * n)

/-- The registers of a ring as 64 bytes (R395): CMD_BASE, CPL_BASE, RING_CTL, RING_STATUS, CMD_HEAD, CPL_TAIL. -/
def Ring.regs (x : Ring) : List Byte :=
  leBytes 8 x.cmdBase.toNat ++ leBytes 8 x.cplBase.toNat ++ leBytes 4 x.ctl.toNat ++ leBytes 4 x.status.toNat ++ leBytes 4 x.cmdHead
    ++ leBytes 4 x.cplTail ++ rep 32 0

/-- BAR0 below 0x1000 as bytes (R395): a field RW returns its last value, one RO or W1C its current value (R11); what is not listed reads 0. -/
def State.portRegs (s : State) (q : Nat) : List Byte :=
  let p := s.port q
  leBytes 8 (portInfo q) ++ leBytes 4 (s.portStatus q).toNat ++ rep 4 0 ++ leBytes 4 p.intStatus.toNat ++ leBytes 4 p.intMask.toNat
    ++ leBytes 4 p.heartbeat.toNat ++ leBytes 4 p.hbLimit.toNat ++ leBytes 8 s.timeBase.toNat ++ rep 24 0
    ++ (List.range 8).flatMap (fun i => leBytes 4 (Tbl.lk 0 p.notify i).toNat) ++ rep 32 0
    ++ (List.range 4).flatMap (fun w => leBytes 8 (Tbl.lk {} p.apert w).reg.toNat ++ rep 8 0)

/-- The recovery registers as bytes (R405): RCV_CMD is WO and reads 0; on port 1 all read 0. -/
def State.rcvRegs (s : State) (q : Nat) : List Byte :=
  let p := s.port 0
  if q = 0 then leBytes 8 p.rcvAddr.toNat ++ leBytes 4 p.rcvBytes.toNat ++ leBytes 1 p.rcvSlot.toNat ++ rep 3 0 ++ rep 4 0 ++ leBytes 1 p.rcvStatus ++ rep 11 0
  else rep 32 0

/-- A read of n bytes of BAR0 (R11, R395): in RECOVERY the recovery registers alone respond. -/
def State.readBar0 (s : State) (q off n : Nat) : Nat :=
  let of_ := fun (l : List Byte) (o : Nat) => leNat ((l.drop o).take n)
  if 0xC000 ≤ off ∧ off < 0xC020 then of_ (s.rcvRegs q) (off - 0xC000)
  else if s.boot = .recovery then 0
  else if off < 0x1000 then of_ (s.portRegs q) off
  else if off < 0x1400 then of_ (s.ring q ((off - 0x1000) / 64)).regs (off % 64)
  else if 0x8000 ≤ off ∧ off < 0x8400 then regPart (Tbl.lk 0 (s.port q).msix ((off - 0x8000) / 16)).toNat (off % 16) n
  else if 0x9000 ≤ off ∧ off < 0x9008 then regPart (s.port q).pba.toNat (off - 0x9000) n
  else 0

/-- A read of BAR2 (R396): the doorbells are WO, and every read returns zero. -/
def readBar2 (_off : Nat) : Nat := 0

/-- The identity of a port's configuration space (R393): Vendor ID, Device ID, Revision ID, class code; the sizes of BAR0, BAR2 and BAR4. -/
def configIds : Nat × Nat × Nat × Nat := (0x1F3A, 0x6144, 0x01, 0x120000)
/-- The sizes of BAR0, BAR2 and BAR4. -/
def barSizes : Nat × Nat × Nat := (65536, 65536, 2 ^ 34)

/-! ### Owners (R402) -/

/-- A window of the tile aperture with its mapping disabled and its buffers emptied (R401). -/
def Aperture.off (a : Aperture) : Aperture := { reg := BitVec.ofNat 64 (a.reg.toNat / 2 * 2) }
/-- Disables every window that maps a partition (R401). -/
def State.dropApertures (s : State) (p : Nat) : State :=
  let one := fun (a : Aperture) => if bits a.reg.toNat 7 5 = p then a.off else a
  { s with ports := s.ports.map (fun q => (q.1, { q.2 with apert := q.2.apert.map (fun a => (a.1, one a.2)) })) }

/-- A partition changes owner (R402): its host regions go, its apertures close, both ports set OWNERSHIP_CHANGED. -/
def State.changeOwner (s : State) (p q : Nat) : State :=
  let s := s.set (0x5100 + p) 2 q
  let s := (s.modPart p (fun x => { x with regions := [] })).recount p
  ((s.dropApertures p).raiseInt 0 5).raiseInt 1 5

/-! ### Loss and return (R403) -/

/-- A port after its reset: every register at its reset value; the link's state stands unless the link is down. -/
def Port.reset (p : Port) (k : LossKind) : Port :=
  let down := k == .linkDown || k == .perst || k == .refclk
  { rate := if down then 0 else p.rate, width := if down then 0 else p.width, flit := !down && p.flit, loss := [k] }

/-- Host 1's partitions pass to host 0 (R403), which receives HOST_LOST and a fresh request for every open resupply entry. -/
def State.passToHost0 (s : State) : State :=
  let ps := (List.range 8).filter (fun p => s.owner p == 1)
  match ps with
  | [] => s
  | p0 :: _ =>
    let s := ps.foldl (fun s p => s.changeOwner p 0) s
    let s := s.notifyPart p0 { type := 7, body := cplBody [(8, 1, 1), (9, 1, s.ownedMask 0)] }
    ps.foldl (fun s p => (s.part p).resup.foldl (fun s e =>
      s.notifyPart p (e.request (match (s.part p).run with | some r => r.step.toNat | none => 0))) s) s

/-- A host is lost (R403). Only the first reason that holds acts. -/
def State.hostLost (s : State) (q : Nat) (k : LossKind) : State :=
  if !(s.port q).loss.isEmpty then s.modPort q (fun p => { p with loss := addOnce p.loss k })
  else
    let s := s.modPort q (fun p => p.reset k)
    let ps := (List.range 8).filter (fun p => s.owner p == q)
    let s := ps.foldl (fun s p => if (s.part p).run.isSome then s.sectionFault p .hostLost 0 0 [] else s.abortStaged p) s
    let s := ps.foldl (fun s p => (s.modPart p (fun x => { x with regions := [] })).recount p) s
    let s := (s.logEvent 9 0x05 none 0 0 []).raiseInt (1 - q) 0
    if q = 1 then s.passToHost0 else s

/-- A reason for a host's loss ends (R403). -/
def State.lossEnds (s : State) (q : Nat) (k : LossKind) : State := s.modPort q (fun p => { p with loss := without p.loss k })

/-- PCIE_LINK_UP (R392, R395, R413): a port's link has trained, with the RATE, the WIDTH and FLIT of PORT_STATUS. -/
def execPcieLinkUp (q : Fin 2) (rate : Fin 7) (width : Fin 17) (flit : Bool) (s : State) : Host.Outcome State Fault Refusal :=
  if s.boot = .held ∨ (s.port q.val).loss.contains .perst ∨ rate.val = 0 then .next s
  else
    let s := ((s.modPort q.val (fun p => { p with rate := rate.val, width := width.val, flit := flit })).lossEnds q.val .linkDown).lossEnds q.val .refclk
    .next (if width.val < 16 ∨ rate.val < 6 then s.raiseInt q.val 4 else s)

/-- PERST_N_ASSERT (R403, R432): PERST_N of a port is accepted as asserted. -/
def execPerstNAssert (q : Fin 2) (s : State) : Host.Outcome State Fault Refusal := .next (s.hostLost q.val .perst)
/-- LINK_DOWN_TIMEOUT (R403): a port's link has been down for 100 ms. -/
def execLinkDownTimeout (q : Fin 2) (s : State) : Host.Outcome State Fault Refusal := .next (s.hostLost q.val .linkDown)
/-- FUNCTION_LEVEL_RESET (R403). -/
def execFunctionLevelReset (q : Fin 2) (s : State) : Host.Outcome State Fault Refusal := .next (s.hostLost q.val .flr)
/-- BUS_MASTER_DISABLE (R403): Bus Master Enable is cleared, or the function enters D3hot. -/
def execBusMasterDisable (q : Fin 2) (s : State) : Host.Outcome State Fault Refusal := .next (s.hostLost q.val .busMaster)

/-- HEARTBEAT (R395, R403): a write of HEARTBEAT counts as a heartbeat; one of HEARTBEAT_LIMIT takes 0 or 10 to 60,000 ms and begins the
time anew, and any other value is ignored. -/
def execHeartbeat (q : Fin 2) (w : HbWrite) (s : State) : Host.Outcome State Fault Refusal :=
  if !s.barOpen q.val then .next s
  else match w with
    | .beat v => .next ((s.modPort q.val (fun p => { p with heartbeat := v, hbTime := s.timeBase })).lossEnds q.val .heartbeat)
    | .limit v =>
      if v = 0 ∨ (10 ≤ v.toNat ∧ v.toNat ≤ 60000) then .next (s.modPort q.val (fun p => { p with hbLimit := v, hbTime := s.timeBase }))
      else .next s

/-- HEARTBEAT_TIMEOUT (R403): HEARTBEAT_LIMIT is set and no heartbeat has come within it. -/
def execHeartbeatTimeout (q : Fin 2) (s : State) : Host.Outcome State Fault Refusal :=
  let p := s.port q.val
  if p.hbLimit ≠ 0 && s.past (some p.hbTime) (msCycles p.hbLimit.toNat) then .next (s.hostLost q.val .heartbeat) else .next s

/-- HOST_RETURN (R403): PERST_N is deasserted, a Function Level Reset ends, Bus Master Enable is set again or the function returns to
D0. The host finds its rings disabled. -/
def execHostReturn (q : Fin 2) (k : ReturnKind) (s : State) : Host.Outcome State Fault Refusal :=
  .next (s.lossEnds q.val (match k with | .perst => .perst | .flr => .flr | .busMaster => .busMaster))

/-! ### Rings and doorbells (R395, R396) -/

/-- A base address: a multiple of 4 KiB. -/
def pageBase (a : W64) : W64 := BitVec.ofNat 64 (a.toNat / 4096 * 4096)

/-- Clearing ENABLE (R395): commands not started are discarded, started ones run on with their completions discarded, and DRAINING is set
until they have ended. -/
def Ring.off (x : Ring) : Ring :=
  let d := x.discard ++ x.started.filter (fun i => !x.discard.contains i)
  { x with ctl := BitVec.ofNat 32 (bits x.ctl.toNat 30 0), cmdTail := x.cmdHead, held := [], discard := d, draining := !d.isEmpty }

/-- A write of the base registers and of RING_CTL (R395). While ENABLE = 1 the other fields are ignored, and ENABLE may be cleared. A write that
sets ENABLE with CMD_LOG2, CPL_LOG2 or VECTOR out of range leaves it at 0; else the indices, the phase and ERROR start anew. -/
def Ring.write (x : Ring) (ctl : W32) (cmdBase cplBase : W64) : Ring :=
  let c := ctl.toNat
  if x.enabled then (if bit c 31 then x else x.off)
  else
    let inLog := fun (n : Nat) => decide (4 ≤ n) && decide (n ≤ 12)
    let good := bit c 31 && inLog (bits c 30 27) && inLog (bits c 26 23) && bits c 22 17 != 0
    let x : Ring := { x with cmdBase := pageBase cmdBase, cplBase := pageBase cplBase, ctl := BitVec.ofNat 32 (bits c 30 0) }
    if good then { x with ctl := BitVec.ofNat 32 (bits c 30 0 + 2 ^ 31), cmdHead := 0, cplTail := 0, cmdTail := 0, cplHead := 0, phase := true,
                          error := 0, unsignalled := 0 }
    else x

/-- RING_ENABLE (R395): the base registers and RING_CTL are written, with ENABLE set or not. -/
def execRingEnable (q : Fin 2) (r : Fin 16) (ctl : W32) (cmdBase cplBase : W64) (s : State) : Host.Outcome State Fault Refusal :=
  if s.barOpen q.val then .next (s.modRing q.val r.val (fun x => x.write ctl cmdBase cplBase)) else .next s

/-- RING_DISABLE (R395): ENABLE is cleared. -/
def execRingDisable (q : Fin 2) (r : Fin 16) (s : State) : Host.Outcome State Fault Refusal :=
  if !s.barOpen q.val ∨ !(s.ring q.val r.val).enabled then .next s else .next (s.modRing q.val r.val Ring.off)

/-- CMD_TAIL (R394, R396): a command doorbell, with what came of the ring's reads and writes that follow it. A ring that is not active
ignores it; a value out of range halts the ring with ERROR 1; a ring read that fails twice with ERROR 2, a completion write with
ERROR 3. -/
def execCmdTail (q : Fin 2) (r : Fin 16) (v : W32) (io : RingIo) (s : State) : Host.Outcome State Fault Refusal :=
  let x := s.ring q.val r.val
  if !s.barOpen q.val ∨ !x.active then .next s
  else if x.cmdSize ≤ v.toNat then .next (s.haltRing q.val r.val 1)
  else
    let s := s.modRing q.val r.val (fun x => { x with cmdTail := v.toNat })
    match io with
    | .ok => .next s
    | .readFailed => .next (s.haltRing q.val r.val 2)
    | .writeFailed => .next (s.haltRing q.val r.val 3)

/-- CPL_HEAD (R396, R399): a completion doorbell returns slots, and what waits for them is posted. -/
def execCplHead (q : Fin 2) (r : Fin 16) (v : W32) (s : State) : Host.Outcome State Fault Refusal :=
  let x := s.ring q.val r.val
  if !s.barOpen q.val ∨ !x.active then .next s
  else if x.cplSize ≤ v.toNat then .next (s.haltRing q.val r.val 1)
  else .next ((s.modRing q.val r.val (fun x => { x with cplHead := v.toNat })).flushPort q.val)

/-! ### Interrupts (R395, R400) -/

/-- COALESCE_TIMEOUT (R400): COALESCE_US after the first unsignalled entry of a ring its vector fires. -/
def execCoalesceTimeout (q : Fin 2) (r : Fin 16) (s : State) : Host.Outcome State Fault Refusal :=
  let x := s.ring q.val r.val
  if x.unsignalled ≠ 0 && s.past (some x.firstUnsig) (usCycles x.coalesceUs) then
    .next ((s.modRing q.val r.val (fun x => { x with unsignalled := 0 })).signal q.val x.vector)
  else .next s

/-- INT_MASK (R395): a write of INT_MASK, which raises vector 0 where it unmasks a bit that is set; of INT_STATUS, where a 1 clears the
bit; or of PART_NOTIFY. -/
def execIntMask (q : Fin 2) (w : IntWrite) (s : State) : Host.Outcome State Fault Refusal :=
  if !s.barOpen q.val then .next s
  else match w with
    | .mask v =>
      let p := s.port q.val
      let s := s.modPort q.val (fun p => { p with intMask := v })
      .next (if p.intStatus &&& p.intMask &&& ~~~v ≠ 0 then s.signal q.val 0 else s)
    | .ack v => .next (s.modPort q.val (fun p => { p with intStatus := p.intStatus &&& ~~~v }))
    | .notify part r => .next (s.modPort q.val (fun p => { p with notify := Tbl.up p.notify part.val (BitVec.ofNat 32 r.val) }))

/-- MSIX_VECTOR_UNMASK (R400): a write of an entry of MSIX_TABLE; one that leaves the vector unmasked sends its pending message. -/
def execMsixVectorUnmask (q : Fin 2) (v : Fin 64) (entry : BitVec 128) (s : State) : Host.Outcome State Fault Refusal :=
  if !s.barOpen q.val then .next s
  else
    let s := s.modPort q.val (fun p => { p with msix := Tbl.up p.msix v.val entry })
    if !bit entry.toNat 96 ∧ (s.port q.val).pba.getLsbD v.val then
      .next ((s.modPort q.val (fun p => { p with pba := p.pba &&& ~~~(BitVec.ofNat 64 (2 ^ v.val)) })).emit (.msix q.val v.val))
    else .next s

/-! ### Reference clocks (R430) -/

/-- LREF_LOSS (R430): a lode reference is lost: every lane of its group loses lock, and its lodes go out of service (R273). -/
def execLrefLoss (g : Fin 6) (s : State) : Host.Outcome State Fault Refusal :=
  .next ((upto (4 * g.val) 4).foldl (fun s n => if s.lodeState n = 3 then s else s.lodeOut n false) s)

/-- PREF_LOSS (R430): a port's reference is lost and its host with it (R403). -/
def execPrefLoss (q : Fin 2) (s : State) : Host.Outcome State Fault Refusal := .next (s.hostLost q.val .refclk)

end Sys2Proof.Machine
end

