-- ==== Sys2Proof/Machine/Boot.lean ====
section
/-! DEFINITION. Resets and the reset sequence (R342 to R345, R381, R382, R412 to R416, R420, R422, R424, R428, R430, R431, R436), the
watchdog (R416), and the recovery of a fen (R20, R417 to R419). -/
namespace Sys2Proof.Machine

/-! ### Resets (R412) -/

/-- The highest sequence number of the flash log (R420). -/
def flashTop (l : List LogRec) : Nat := maxOf (l.map (·.seq))

/-- What a reset leaves (R352, R361, R374, R379, R381, R412, R415, R416, R422): the fuses, flash, the sampled straps and the test port
stay; every other thing has its reset value. A cold reset holds the device and loses the crash record. -/
def State.afterReset (s : State) (cold : Bool) (cause : Nat) : State :=
  let log : ErrLog := { flash := s.log.flash, tags := s.log.tags, flashCount := s.log.flashCount, next := flashTop s.log.flash + 1 }
  let board : Board := { nodeId := s.boardRec.nodeId, straps := s.boardRec.straps }
  let sedge : Sedge := { copyA := s.sedge.copyA, copyB := s.sedge.copyB, oosA := s.sedge.oosA, oosB := s.sedge.oosB }
  { pending := s.pending, tap := s.tap, fuses := s.fuses, slots := s.slots, boardRec := board, oos := s.oosFlash, oosFlash := s.oosFlash,
    retest := if cold then none else s.retest, rails := s.rails, crash := if cold then none else s.crash, boot := if cold then .held else .phaseA,
    log := log, sedge := sedge, dict := if cause = 0 then [] else [(dk 0x6010 1, cause)], freeCtr := s.freeCtr, out := s.out }

/-- A device reset with its RESET_CAUSE (R412). -/
def State.deviceReset (s : State) (cause : Nat) : State := s.afterReset false cause
/-- A cold reset: RESET_N is asserted and every clock stands (R412). -/
def State.coldReset (s : State) : State := s.afterReset true 0

/-- RAIL_APPLY (R428): a step of the rail order comes into regulation under RESET_N asserted; a step begins only after the one before. -/
def execRailApply (step : Fin 4) (s : State) : Host.Outcome State Fault Refusal :=
  if s.rails = step.val then .next { s.coldReset with rails := step.val + 1 } else .next s

/-- RAIL_OUT_OF_REGULATION (R412, R428): a rail of a step leaves regulation, and the board asserts RESET_N. -/
def execRailOutOfRegulation (step : Fin 4) (s : State) : Host.Outcome State Fault Refusal :=
  .next { s.coldReset with rails := Nat.min s.rails step.val }

/-- RESET_N_ASSERT (R412, R432): RESET_N is accepted as asserted, and every clock of the device stops. -/
def execResetNAssert (s : State) : Host.Outcome State Fault Refusal := .next s.coldReset

/-- SYSCLK_LOSS (R430): the system reference is lost and the device stops; the board treats it as a rail failure. -/
def execSysclkLoss (s : State) : Host.Outcome State Fault Refusal := .next s.coldReset

/-- Does a boundary-scan instruction drive lands (R435)? -/
def TapInstr.drives : TapInstr → Bool
  | .extest | .clamp | .highz | .extestPulse | .extestTrain => true
  | _ => false

/-- RESET_N_RELEASE (R413 phase A, R431, R436): with every rail in regulation RESET_N is released: the straps are sampled; an instruction
that drives lands gives way to IDCODE. -/
def execResetNRelease (nodeId : Byte) (straps : Fin 8) (s : State) : Host.Outcome State Fault Refusal :=
  if s.boot ≠ .held ∨ s.rails ≠ 4 then .next s
  else
    let tap : Tap := if s.tap.ir.drives then { s.tap with ir := .idcode, driving := false, hiz := false } else s.tap
    .next { s with boot := .phaseA, tap := tap, boardRec := { s.boardRec with nodeId := nodeId, straps := straps.val } }

/-! ### Phases B to D (R344, R345, R382, R414, R415, R420, R422) -/

/-- The board configuration record (R414); none where it is invalid. -/
def parseBoard (b : List Byte) : Option Board :=
  let gib := fld b 6 1
  let n := fld b 10 1
  let ok := b.length == 64 && fld b 0 4 == 0x43424756 && fld b 4 2 == 1 && fld b 60 4 == (crc32c (b.take 60)).toNat
    && [0, 16, 32, 64].contains gib && decide (fld b 7 1 ≤ 2) && decide (200 ≤ fld b 8 2) && decide (fld b 8 2 ≤ 3000)
    && decide (1 ≤ n) && decide (n ≤ 16)
  if ok then
    let map := (List.range n).map (fun i => let v := fld b (12 + i) 1; (bit v 7, v % 128))
    some { recordOk := true, channelGib := gib, lpddrRate := fld b 7 1, ocLimit := fld b 8 2, pmbusCount := n, pmbusMap := map }
  else none

/-- Of two slots of a class the valid one with the higher SEQ, slot A between equals (R344). -/
def State.pickSlot (s : State) (a b : Nat) : Option Nat :=
  match s.slotOk a, s.slotOk b with
  | true, true => if (Tbl.lk {} s.slots a).seq.toNat < (Tbl.lk {} s.slots b).seq.toNat then some b else some a
  | true, false => some a
  | false, true => some b
  | false, false => none

/-- Logs the slots of a class that are passed over (R344, R423). -/
def State.logSlots (s : State) (l : List Nat) : State :=
  (l.filter (fun i => !s.slotOk i)).foldl (fun s i => s.logEvent 12 0x01B0 none mgmtUnit i []) s

/-- Is a value within an entry's type and range? -/
def EDef.holds (e : EDef) (v : Nat) : Bool := decide (e.lo ≤ v) && decide (v ≤ e.hi) && decide (v < 2 ^ (8 * e.ty.len))

/-- Is a value outside the range that its entry's fields have, whatever the state (R223, R308, R328, R369, R388, R390)? -/
def fieldRange (i sub v : Nat) : Bool :=
  if i = 0x1010 then decide (4 < bits v 263 256)
  else if i = 0x2000 ∧ sub = 1 then !(decide (500 ≤ bits v 47 32) && decide (bits v 47 32 ≤ 1800))
  else if i = 0x3000 ∧ sub = 1 then
    !(decide (1 ≤ bits v 23 16) && decide (bits v 23 16 ≤ 48) && decide (1 ≤ bits v 15 8) && decide (bits v 15 8 ≤ 32) && decide (1 ≤ bits v 7 0)
      && decide (bits v 7 0 ≤ 32))
  else if 0x5100 ≤ i ∧ i < 0x5108 ∧ sub = 1 then
    let r := Rect.ofWord v
    !(r.w == 0 || (decide (r.w ≤ 16) && decide (1 ≤ r.h) && decide (r.x + r.w ≤ 16) && decide (r.y + r.h ≤ 16)))
  else if i = 0x7000 then bits v 30 29 == 3
  else false

/-- MAGIC of a persistent copy, the ASCII bytes "VGPD" (R382), and of a copy of the out-of-service record, "VGOS" (R415). -/
def magicVgpd : Nat := 0x44504756
/-- MAGIC of a copy of the out-of-service record (R415). -/
def magicVgos : Nat := 0x534F4756
/-- SEQ of a copy (R382). -/
def copySeq (b : List Byte) : Nat := fld b 8 8
/-- Bytes 0 to 63 of a copy of a body (R382). -/
def copyHeader (magic seq : Nat) (body : List Byte) : List Byte :=
  leBytes 4 magic ++ leBytes 2 1 ++ rep 2 0 ++ leBytes 8 seq ++ leBytes 4 body.length ++ digestBytes (Config.shake body) ++ rep 12 0
/-- A copy (R382): header, the identity key's signature over the bytes of MAGIC and the header, the body from byte 4,096. -/
def Fuses.copy (f : Fuses) (magic seq : Nat) (body : List Byte) : List Byte :=
  let h := copyHeader magic seq body
  h ++ f.sign (leBytes 4 magic ++ h) ++ rep 2752 0 ++ body
/-- The body of a copy (R382). -/
def copyBody (b : List Byte) : List Byte := (b.drop 4096).take (fld b 16 4)
/-- Is a copy valid (R382): form, digest, a signature that verifies under this device's identity key? -/
def Fuses.copyOk (f : Fuses) (magic : Nat) (b : List Byte) : Bool :=
  fld b 0 4 == magic && fld b 4 2 == 1 && (b.drop 20).take 32 == digestBytes (Config.shake (copyBody b))
    && verifies f.idKey (leBytes 4 magic ++ b.take 64) ((b.drop 64).take 1280)
/-- The records of a body, at most n: entry, length, value (R382). -/
def parseRecords : Nat → List Byte → List (Nat × Nat × Nat)
  | 0, _ => []
  | n + 1, b =>
    let len := fld b 3 2
    if b.length < 5 + len then [] else (dk (fld b 0 2) (fld b 2 1), len, fld b 5 len) :: parseRecords n (b.drop (5 + len))

/-- A flash copy as the boot finds it: none where it reads as invalid (R382). -/
def Fuses.readCopy (f : Fuses) (magic : Nat) (readOk : Bool) (c : Option (List Byte)) : Option (List Byte) :=
  c.filter (fun b => readOk && f.copyOk magic b)
/-- Of two copies the one that is taken (R382): the valid one with the higher SEQ. -/
def newestCopy (a b : Option (List Byte)) : Option (List Byte) :=
  match a, b with
  | some c, some d => if copySeq c < copySeq d then some d else some c
  | some c, none => some c
  | none, o => o

/-- One record of a persistent copy (R382, R414): an unknown entry or a value outside its range is ignored and logged; an OC_LIMIT above
the board record's is lowered to it and logged. -/
def State.loadRecord (s : State) (k len v : Nat) : State :=
  match entryAt (k / 256) (k % 256) with
  | none => s.logEvent 11 0x01A3 none 0 k []
  | some e =>
    if !e.keep || len != e.ty.len || !e.holds v || fieldRange (k / 256) (k % 256) v then s.logEvent 11 0x01A3 none 0 k []
    else if k = dk 0x2000 5 ∧ s.boardRec.ocLimit < v then (s.set 0x2000 5 s.boardRec.ocLimit).logEvent 11 0x01A3 none 0 k []
    else s.set (k / 256) (k % 256) v

/-- A drawn SEAL key of a partition that is defined (R352). -/
def State.drawKey (s : State) (p : Nat) : State :=
  let (i, s) := s.draw
  let k : TierKey := { key := Config.random i }
  (s.modPart p (fun x => { x with sealKey := some k, openKey := none, pendingKey := none })).set (0x1200 + p) 2 1

/-- Phase D (R278, R352, R381, R382, R413, R415, R420, R422): the flash log into the ring, the persistent values, the routing tables
that flash does not hold, the keys of the defined partitions. -/
def State.phaseD (s : State) (f : FlashRead) : State :=
  let mark := fun (i : Nat) (e : LogRec) => { e with persisted := true, unverified := f.badLog.contains i }
  let ring := s.log.flash.zipIdx.map (fun e => mark e.2 e.1)
  let s := { s with log := { s.log with ring := ring, next := flashTop s.log.flash + 1 } }
  let s := s.modSedge (fun x => { x with copyA := s.fuses.readCopy magicVgpd f.aOk x.copyA, copyB := s.fuses.readCopy magicVgpd f.bOk x.copyB,
                                         oosA := s.fuses.readCopy magicVgos f.oosAOk x.oosA, oosB := s.fuses.readCopy magicVgos f.oosBOk x.oosB })
  let units := match newestCopy s.sedge.oosA s.sedge.oosB with | some b => let c := copyBody b; (List.range (c.length / 4)).map (fun i => fld c (4 * i) 4) | none => []
  let s := { s with oos := units, oosFlash := units }
  let s := match newestCopy s.sedge.copyA s.sedge.copyB with
    | some b => (parseRecords b.length (copyBody b)).foldl (fun (s : State) (e : Nat × Nat × Nat) => s.loadRecord e.1 e.2.1 e.2.2) s
    | none => s.logEvent 10 0x0192 none 0 0 []
  let s := s.modSedge (fun x => { x with port := s.get 0x1000 2 })
  let s := (List.range 3).foldl (fun s a => if (Tbl.lk? s.dict (dk 0x3010 (a + 1))).isNone then s.set 0x3010 (a + 1) (s.shortTable a) else s) s
  let s := (List.range 8).foldl (fun s p => if s.defined p then s.drawKey p else s) s
  { s with causeway := true }

/-- The event of the fatal fault that caused a device reset (R409, R416), written after phase D. -/
def State.logFatal (s : State) : State :=
  let cause := s.get 0x6010 1
  if cause = 3 ∨ cause = 4 then
    let d := match s.crash with | some b => [(192, leNat (b.take 24))] | none => []
    s.logPut { s.logRec 3 (if cause = 3 then 0x0120 else 0x0121) none mgmtUnit 0 d with fromEast := true }
  else s

/-- BOOT_REEVE_START (R344, R345 stages 1 to 3, R413 phases B to D): the board record is read, the reeve's slot chosen and started; with no
valid slot the device is in RECOVERY. -/
def execBootReeveStart (f : FlashRead) (s : State) : Host.Outcome State Fault Refusal :=
  if s.boot ≠ .phaseA then .next s
  else
    let bad : Board := { nodeId := s.boardRec.nodeId, straps := s.boardRec.straps }
    let rec_ := match parseBoard f.record with
      | some b => { b with nodeId := s.boardRec.nodeId, straps := s.boardRec.straps }
      | none => bad
    let s := { s with boardRec := rec_, boardOut := !rec_.recordOk }
    match s.pickSlot 0 1 with
    | none => .next ({ s with boot := .recovery }.set 0x1100 1 2)
    | some k =>
      let s := ({ s with boot := .reeve, bootSlot := k }.phaseD f).logSlots [0, 1]
      let s := if rec_.recordOk then s else s.logEvent 11 0x01A2 none 0 0 []
      .next s.logFatal

/-- CC_FIRMWARE_LOADED (R345 stage 4, R413 phase E): the control cores' slot is chosen and loaded; with none valid the reeve runs on, and
every load is refused (R344). -/
def execCcFirmwareLoaded (s : State) : Host.Outcome State Fault Refusal :=
  if s.boot ≠ .reeve then .next s
  else
    let s := s.logSlots [2, 3]
    .next { s with boot := .ccLoad, ccSlot := (s.pickSlot 2 3).getD 4 }

/-- SELF_TEST_COMPLETE (R27, R413 phase F, R415): the units named failed and go out of service; a mesh link or lode on record, and the unit
named for a retest, return to service where they passed. -/
def execSelfTestComplete (failed : List Nat) (s : State) : Host.Outcome State Fault Refusal :=
  if s.boot ≠ .ccLoad then .next s
  else
    let again := fun (u : Nat) => u / 2 ^ 28 == 5 || u / 2 ^ 28 == 6 || s.retest == some u
    let s := { s with boot := .selfTest, retest := none, oos := s.oos.filter (fun u => !again u || failed.contains u) }
    .next (failed.foldl (fun s u => s.takeOut u none) s)

/-- MEMORY_TRAINING_COMPLETE (R217, R413 phase G): HBM4 and LPDDR5X have been trained and tested; channels that failed or differ from the
record hold the board tier out of service. -/
def execMemoryTrainingComplete (failed : List Nat) (boardOk : Bool) (s : State) : Host.Outcome State Fault Refusal :=
  if s.boot ≠ .selfTest then .next s
  else
    let s := failed.foldl (fun s u => s.takeOut u none) s
    .next { s with boot := .training, boardOut := s.boardOut || !boardOk }

/-- DEVICE_READY (R20, R413 phase H): the east fen reports ready, the causeway is disabled, DEVICE_READY is set after a number of µs. -/
def execDeviceReady (us : W32) (s : State) : Host.Outcome State Fault Refusal :=
  if s.boot ≠ .training then .next s
  else .next (({ s with boot := .ready, causeway := false }.set 0x6010 2 us.toNat).logEvent 12 0x01B1 none mgmtUnit 0 [])

/-! ### Fatal faults (R416) -/

/-- The crash record of 256 bytes (R416): error registers, program counter, last sequence number, time base (entry 62). -/
def State.crashBytes (s : State) (c : CrashRead) : List Byte :=
  let tail := leBytes 4 c.pc.toNat ++ leBytes 4 (s.log.next - 1) ++ leBytes 8 s.timeBase.toNat
  (c.errors ++ rep 240 0).take 240 ++ tail

/-- The course of R416: running sections fault with PEER_SECTION_FAULT, their aborts leave on the lodes, the crash record is gathered
(after the watchdog over the causeway, R20),
the device resets. -/
def State.fatal (s : State) (cause : Nat) (c : CrashRead) : State :=
  let s := s.faultParts (List.range 8) .peerSectionFault mgmtUnit 0
  let s := (List.range 8).foldl State.postFault s
  let s := (List.range 24).foldl (fun s n => s.transmit n) s
  let s := { s with causeway := s.causeway || cause == 3 }
  let b := s.crashBytes c
  ({ s with crash := some b }).deviceReset cause

/-- Does the reeve run (R345, R361)? -/
def State.reeveRuns (s : State) : Bool := s.boot != .held && s.boot != .phaseA && s.boot != .recovery && !s.power.tripped

/-- REEVE_WATCHDOG (R416): 100 ms have passed without a refresh. -/
def execReeveWatchdog (c : CrashRead) (s : State) : Host.Outcome State Fault Refusal := if s.reeveRuns then .next (s.fatal 3 c) else .next s

/-- MGMT_UNCORRECTABLE (R416): an uncorrectable error in the management island's memory. -/
def execMgmtUncorrectable (c : CrashRead) (s : State) : Host.Outcome State Fault Refusal := if s.reeveRuns then .next (s.fatal 4 c) else .next s

/-- RNG_RESEED (R342): after 2^20 requests the generator reseeds from the entropy source. -/
def execRngReseed (s : State) : Host.Outcome State Fault Refusal :=
  if s.sedge.draws < 2 ^ 20 then .next s else .next { s with sedge := { s.sedge with draws := 0 } }

/-! ### Fens (R417 to R419) -/

/-- FEN_STATE of a fen: 0 READY, 1 RECOVERING, 2 OUT_OF_SERVICE (R424). -/
def State.fenState (s : State) (f : Nat) : Nat := s.get 0x6020 (f + 1)
/-- Does a space lie on a fen's mesh: a pool of its tussocks, one of its HBM4 stacks? -/
def Space.inFen (sp : Space) (f : Nat) : Bool :=
  match sp with | .pool t => fenOf t == f | .hbm i => i / 4 == f | _ => false
/-- Is a partition's running section affected by a fen (R417): tussocks in it, a placement on its stacks, a handle across its mesh? -/
def State.affected (s : State) (p f : Nat) : Bool :=
  match (s.part p).run with
  | none => false
  | some r =>
    let x := r.sec
    x.tussocks.any (fun t => fenOf t == f)
      || (s.part p).places.any (fun y => match y.space with | some (.hbm i) => i / 4 == f | _ => false)
      || x.reeds.any (fun q => (s.reed q).handles.any (fun h => match (HInfo.ofBits h.2).space q with | some sp => sp.inFen f | none => false))

/-- Faults a fen's affected sections with FEN_HUNG (R417); a staged load of a partition with tussocks in the fen is aborted with it, and
the fen awaits its recovery. -/
def State.hangFen (s : State) (f : Nat) : State :=
  let s := (List.range 8).foldl (fun s p =>
    if s.affected p f then s.sectionFault p .fenHung (fenUnit f) 0 []
    else if (s.rect p).tussocks.any (fun t => fenOf t == f) then s.abortStaged p else s) s
  s.modFen f (fun x => { x with recovering := some { step := 0 } })

/-- Is a fen under recovery? -/
def State.recovers (s : State) (f : Nat) : Bool := (s.fen f).recovering.isSome

/-- CC_HEARTBEAT (R417): the reeve sends a heartbeat to each control core. -/
def execCcHeartbeat (s : State) : Host.Outcome State Fault Refusal :=
  if !s.reeveRuns then .next s
  else .next ((List.range 2).foldl (fun s c => (s.modFen c (fun x => { x with unanswered := x.unanswered + 1 })).emit (.heartbeat c)) s)

/-- CC_HEARTBEAT_ANSWER (R417): a control core's answer arrives. -/
def execCcHeartbeatAnswer (core : Fin 2) (s : State) : Host.Outcome State Fault Refusal :=
  .next (s.modFen core.val (fun x => { x with unanswered := 0 }))

/-- FEN_HUNG (R417): a heartbeat and its repetition are unanswered, or a section has not stopped in time: the affected sections fault. -/
def execFenHung (f : Fin 2) (why : HungWhy) (s : State) : Host.Outcome State Fault Refusal :=
  if s.recovers f.val ∨ s.fenState f.val = 2 ∨ (why = .heartbeat ∧ (s.fen f.val).unanswered < 2) then .next s
  else .next (s.hangFen f.val)

/-- A reed after its island's reset (R418): its counters are preserved. -/
def Reed.fenReset (x : Reed) : Reed := { idle := x.idle, idleSnap := x.idleSnap, slack := x.slack, slackSnap := x.slackSnap, snapTime := x.snapTime }
/-- A tussock after its island's reset, with its epoch advanced (R71, R418). -/
def Tussock.fenReset (x : Tussock) : Tussock := { epoch := x.epoch + 1 }
/-- The islands of a fen are reset: reeds, tussocks, mesh and rill routers, the control core's mail (R418 step 2). -/
def State.resetFen (s : State) (f : Nat) : State :=
  let ts := upto (128 * f) 128
  let s := ts.foldl (fun s t => s.modTus t Tussock.fenReset) s
  let s := { s with reeds := s.reeds.map (fun (r : Nat × Reed) => if fenOf (tusOf r.1) = f then (r.1, r.2.fenReset) else r),
                    mesh := s.mesh.filter (fun (r : Nat × Router) => fenOf (r.1 % 256) != f), rillq := s.rillq.filter (fun (r : Nat × List RillMsg) => fenOf r.1 != f) }
  s.modFen f (fun x => { x with mail := [], unanswered := 0 })

/-- May the causeway be enabled for the east fen's recovery (R20)? -/
def State.eastFree (s : State) : Bool := !(upto 128 128).any (fun t => (s.tus1 t).owner.isSome)

/-- A step of a recovery has failed (R419): repeated once; a second failure puts the fen out of service. -/
def State.fenStepFailed (s : State) (f : Nat) (r : FenRec) : State :=
  if r.failed then
    ((({ s with causeway := s.causeway && f != 1 }).modFen f (fun x => { x with recovering := none })).set 0x6020 (f + 1) 2).logEvent 2 0x0111 none (fenUnit f) 0 []
  else s.modFen f (fun x => { x with recovering := some { r with failed := true } })

/-- FEN_RECOVERY_START (R418 steps 1 and 2): the fen's islands are held and reset and its self-test begins; for the east fen the causeway is
enabled, which is refused and logged while a section holds its tussocks (R20). -/
def execFenRecoveryStart (f : Fin 2) (ok : Bool) (s : State) : Host.Outcome State Fault Refusal :=
  match (s.fen f.val).recovering with
  | none => .next s
  | some r =>
    if r.step ≠ 0 then .next s
    else if !ok then .next (s.fenStepFailed f.val r)
    else if f.val = 1 ∧ !s.eastFree then .next (s.logEvent 11 0x01A1 none (fenUnit 1) 0 [])
    else
      let s := { s with causeway := s.causeway || f.val == 1 }
      .next (((s.resetFen f.val).modFen f.val (fun x => { x with recovering := some { step := 3 } })).set 0x6020 (f.val + 1) 1)

/-- FEN_SELF_TEST_COMPLETE (R418 step 3, R419): the fen's self-test ends; the units named failed go out of service. -/
def execFenSelfTestComplete (f : Fin 2) (ok : Bool) (failed : List Nat) (s : State) : Host.Outcome State Fault Refusal :=
  match (s.fen f.val).recovering with
  | none => .next s
  | some r =>
    if r.step ≠ 3 then .next s
    else if !ok then .next (s.fenStepFailed f.val r)
    else .next ((failed.foldl (fun s u => s.takeOut u none) s).modFen f.val (fun x => { x with recovering := some { step := 4 } }))

/-- FEN_RECOVERED (R20, R418 steps 4 and 5, R419): the control core has been reloaded and reports ready. -/
def execFenRecovered (f : Fin 2) (ok : Bool) (s : State) : Host.Outcome State Fault Refusal :=
  match (s.fen f.val).recovering with
  | none => .next s
  | some r =>
    if r.step ≠ 4 then .next s
    else if !ok then .next (s.fenStepFailed f.val r)
    else
      let s := ({ s with causeway := s.causeway && f.val != 1 }).modFen f.val (fun x => { x with recovering := none, unanswered := 0 })
      .next (((s.set 0x6020 (f.val + 1) 0).bump 0x6020 4).logEvent 12 0x01B2 none (fenUnit f.val) 0 [])

/-! ### The recovery registers (R344, R346, R405) -/

/-- The firmware slot that an image makes (R343, R344): its fields, and whether its form, key, signature and body check. -/
def fwSlotOf (fu : Fuses) (cls : Nat) (b : List Byte) : FwSlot :=
  let n := fld b 16 4
  let key := fld b 5 1
  let body := (b.drop 4096).take n
  let want := if key = 0 then fu.fwKey0 else fu.fwKey1
  let pk := (b.drop 64).take 1793
  let ok := b.length == 4096 + n && decide (1 ≤ n) && decide (n ≤ 4 * 2 ^ 20) && fld b 0 4 == 0x57464756 && fld b 4 1 == cls && decide (key ≤ 1)
    && decide (fld b 6 1 ≤ 1) && !(fld b 6 1 == 1 && key == 0) && fld b 7 1 == 0 && decide (fld b 12 2 ≤ 64) && fld b 14 2 == 0 && fld b 20 4 == 0
    && fld b 56 8 == 0 && fld b 1857 7 == 0 && Config.shake pk == want && verifies pk (b.take 1864) ((b.drop 1864).take 1280)
    && (Config.shake body).toNat == fld b 24 32
  { valid := ok, seq := BitVec.ofNat 32 (fld b 8 4), svn := fld b 12 2, keyIndex := key, revoke := bit (fld b 6 1) 0, digest := BitVec.ofNat 256 (fld b 24 32) }

/-- Is a slot one that the device booted from (R346)? -/
def State.bootedSlot (s : State) (i : Nat) : Bool := s.boot != .recovery && (i == s.bootSlot || i == s.ccSlot)

/-- May host 0's recovery registers take a command (R405)? Their power-on state holds none while RESET_N is asserted. -/
def State.rcvOpen (s : State) (q : Nat) : Bool := q == 0 && s.boot != .held && (s.port 0).rcvStatus != 1

/-- RCV_WRITE_SLOT (R344, R346, R405): RCV_ADDR, RCV_BYTES and RCV_SLOT are written and RCV_CMD 1 reads the image, programs the slot, reads
it back and checks it. A read of the image that fails, a length that is not the image's or a slot that does not exist ends as failed. -/
def execRcvWriteSlot (q : Fin 2) (addr : W64) (bytes : W32) (slot : Byte) (img : Option (List Byte)) (s : State) : Host.Outcome State Fault Refusal :=
  if !s.rcvOpen q.val then .next s
  else
    let s := s.modPort 0 (fun p => { p with rcvAddr := addr, rcvBytes := bytes, rcvSlot := slot })
    let i := slot.toNat
    let ended := fun (s : State) (v : Nat) => (s.modPort 0 (fun p => { p with rcvStatus := v })).raiseInt 0 3
    if s.bootedSlot i then .next (ended s 4)
    else match img with
      | none => .next (ended s 3)
      | some b =>
        if 4 ≤ i ∨ b.length ≠ bytes.toNat then .next (ended s 3)
        else
          let s := { s with slots := Tbl.up s.slots i (fwSlotOf s.fuses (if i < 2 then 1 else 2) b) }
          .next (ended s (if s.slotOk i then 2 else 3))

/-- RCV_RESET (R405, R412): RCV_CMD 2 performs a device reset. -/
def execRcvReset (q : Fin 2) (s : State) : Host.Outcome State Fault Refusal :=
  if !s.rcvOpen q.val then .next s else .next (s.deviceReset 1)

end Sys2Proof.Machine
end

