-- ==== Sys2Proof/Machine/DictOps.lean ====
section
/-! DEFINITION. Operations of the object dictionary: rights, the checks of a read and of a write, what an entry reads as, and what an
accepted write does (R76, R223, R278, R289, R308, R328, R346, R357, R358, R364, R369, R375 to R379, R388 to R391, R402, R408, R415,
R419, R424). -/
namespace Sys2Proof.Machine

/-! ### Callers and rights (R375, R376) -/

/-- A caller's role, and where it is narrowed the mask of the partitions whose entries it has that role for. -/
structure Actor where
  role : Nat
  scope : Option Nat := none
  deriving DecidableEq, Repr

/-- The rights of a session (R375). -/
def Session.actor (x : Session) : Actor := { role := x.role, scope := if x.partMask = 0 then none else some x.partMask }
/-- The rights of a host (R376). -/
def State.hostActor (s : State) (q : Nat) : Actor := if q = 0 then { role := 4 } else { role := 2, scope := some (s.ownedMask q) }
/-- The rights of a caller; none for a session that is not open. -/
def State.actor (s : State) (c : Caller) : Option Actor :=
  match c with | .host q => some (s.hostActor q.val) | .session id => (s.session? id).map Session.actor

/-- The role that counts at an entry (R375): the caller's own, or the observer's outside its partitions and for vendor test. -/
def Actor.roleAt (a : Actor) (e : EDef) (i : Nat) : Nat :=
  if a.role = 5 then 1
  else match a.scope with
    | none => a.role
    | some m => if e.span = 8 ∧ bit m (i - e.idx) then a.role else 1

/-- Does an Access column allow a read (R375)? -/
def Acc.reads (a : Acc) (role : Nat) : Bool := match a with | .wo _ | .vtW => false | .vtR => role == 5 | _ => true
/-- Does an Access column allow a write (R375)? -/
def Acc.writes (a : Acc) (role : Nat) : Bool :=
  match a with | .rw l => l.contains role | .wo l => l.contains role | .vtW => role == 5 | _ => false

/-- LIFECYCLE: 0 PRODUCTION, 1 VENDOR_TEST, 2 RECOVERY (R349). -/
def State.lifecycle (s : State) : Nat := if s.boot = .recovery then 2 else s.get 0x1100 1

/-- The first of the checks NO_ENTRY, LIFECYCLE and ACCESS that an operation fails (R379, R391). -/
def State.barred (s : State) (a : Actor) (i sub : Nat) (wr : Bool) : Option Nat :=
  if 0xF000 ≤ i then
    match entryAt i sub with
    | some e =>
      if a.role = 5 then (if (if wr then e.acc.writes 5 else e.acc.reads 5) then none else some 2)
      else if s.lifecycle = 0 then some 7 else some 2
    | none => if s.lifecycle = 0 then some 7 else some (Config.testStatus (dk i sub))
  else match entryAt i sub with
    | none => some 1
    | some e =>
      let r := a.roleAt e i
      if (if wr then e.acc.writes r else e.acc.reads r) then none else some 2

/-! ### What an entry reads as (R364, R386 to R391, R424) -/

/-- PART_STATE (R388). -/
def State.partState (s : State) (p : Nat) : Nat :=
  if !s.defined p then 0 else if (s.part p).run.isSome then 3 else if (s.part p).staged.isSome then 2 else if (s.part p).faulted then 4 else 1
/-- The MAC address (R364). -/
def State.mac (s : State) : Nat := leNat s.fuses.macBytes
/-- A firmware slot. -/
def State.slot (s : State) (i : Nat) : FwSlot := Tbl.lk {} s.slots i
/-- SEQ of the newer of two copies; 0 where neither is valid. -/
def newestSeq (a b : Option (List Byte)) : Nat :=
  Nat.max (match a with | some b => copySeq b | none => 0) (match b with | some b => copySeq b | none => 0)
/-- SEQ of the newest persistent copy (R387). -/
def Sedge.seq (x : Sedge) : Nat := newestSeq x.copyA x.copyB
/-- Octets as the number that holds them. -/
def octets (l : List Byte) : Nat := leNat l

/-- The earliest time base at which some word of a scratchpad or pool was last covered (R116); 0 while one has not been covered since reset
(entry 78). -/
def State.leastCovered (s : State) : Nat :=
  let whole := fun (n words : Nat) (l : List (Tbl W64)) => l.length == n && l.all (fun c => c.length == words)
  let spads := s.reeds.map (fun r => r.2.cover)
  let pools := s.tus.map (fun t => t.2.cover)
  if whole 6144 4096 spads && whole 256 65536 pools then (minOf? ((spads ++ pools).flatten.map (fun e => e.2.toNat))).getD 0 else 0
/-- SCRUB_COVERAGE_MS (R116): the largest time since any word was last covered. -/
def State.scrubCoverage (s : State) : Nat := Nat.min ((s.timeBase.toNat - s.leastCovered) / msCycles 1) (2 ^ 32 - 1)

/-- The value of an entry that is not held as written. -/
def State.computed (s : State) (i sub : Nat) : Option Nat :=
  if i = 0x0000 then
    (match sub with | 6 => some s.fuses.serial.toNat | 7 => some s.mac | 8 => some s.boardRec.nodeId.toNat | _ => none)
  else if i = 0x0001 then
    (match sub with | 1 => some (s.slot s.bootSlot).digest.toNat | 2 => some (s.slot s.ccSlot).digest.toNat | _ => none)
  else if i = 0x0100 then (match sub with | 1 => some (octets s.fuses.certificate) | 2 => some (octets (padTo 4672 Config.issuer)) | _ => none)
  else if i = 0x1020 then (match sub with | 8 => some s.sedge.seq | 10 => some s.sedge.sessions.length | _ => none)
  else if i = 0x1100 then
    (match sub with
     | 1 => some s.lifecycle | 2 => some (s.slot s.bootSlot).svn | 3 => some (s.slot s.ccSlot).svn
     | 4 => some (ones s.fuses.svnReeve) | 5 => some (ones s.fuses.svnCc) | _ => none)
  else if 0x1200 ≤ i ∧ i < 0x1208 ∧ sub = 3 then
    (match (s.part (i - 0x1200)).sealKey with | some k => some (k.sealer.toNat * 2 ^ 48 + k.ctr % 2 ^ 48) | none => some 0)
  else if 0x5100 ≤ i ∧ i < 0x5108 then
    (match sub with
     | 3 => some (s.partState (i - 0x5100))
     | 4 => some (match (s.part (i - 0x5100)).run with | some r => r.sec.sectionId | none => 0)
     | _ => none)
  else if i = 0x6000 then
    (match sub with | 1 => some (s.log.next - 1) | 2 => some (match s.log.ring with | e :: _ => e.seq | [] => 0) | _ => none)
  else if i = 0x6040 ∧ sub = 1 then some s.scrubCoverage
  else if i = 0x6050 then
    (match sub with | 1 => some s.oos.length | 2 => some (octets (s.oos.flatMap (leBytes 4))) | _ => none)
  else none

/-- The value that an entry reads as. -/
def State.value (s : State) (i sub : Nat) : Nat := (s.computed i sub).getD (s.get i sub)

/-- CHANGE_COUNT of an index (R379). -/
def State.changeCount (s : State) (i : Nat) : W32 := Tbl.lk 0 s.changes i

/-- The answer of an operation (R379): NO_ENTRY, LIFECYCLE and ACCESS carry no value. -/
def State.answer (s : State) (i sub status : Nat) : DictAns :=
  match status, entryAt i sub with
  | 1, _ | 2, _ | 7, _ => { status := status, idx := i, sub := sub }
  | _, some e => { status := status, idx := i, sub := sub, ty := e.ty.code, count := s.changeCount i, len := e.ty.len, value := s.value i sub }
  | _, none => { status := status, idx := i, sub := sub }

/-- A refusal for want of rights is counted (R375). -/
def State.noteAccess (s : State) (status : Nat) : State := if status = 2 then s.bump 0x1020 6 else s

/-- A fresh challenge for vendor test (R391). -/
def State.newChallenge (s : State) : BitVec 256 × State :=
  let (i, s) := s.draw
  (Config.random i, { s with sedge := { s.sedge with challenge := some (Config.random i, s.timeBase) } })

/-- A read of one entry (R375, R378, R391): the answer, with a fresh challenge drawn or an RC entry cleared. -/
def State.readEntry (s : State) (a : Actor) (i sub : Nat) : State × DictAns :=
  match s.barred a i sub false with
  | some st => (s.noteAccess st, s.answer i sub st)
  | none =>
    if i = 0xF000 then
      let (c, t) := s.newChallenge
      (t, { s.answer i sub 0 with value := c.toNat })
    else
      let ans := s.answer i sub 0
      let clears := match entryAt i sub with | some e => e.acc == .obsRc && a.roleAt e i == 2 | none => false
      (if clears = true then s.set i sub 0 else s, ans)

/-! ### The RANGE check (R223, R278, R289, R308, R328, R341, R369, R388, R390, R408) -/

/-- The five limits that PROGRESS_LIMIT bounds (R408), each in µs. -/
def State.limitsUs (s : State) : List Nat :=
  [1000 * s.get 0x4010 1, 1000 * s.get 0x4010 2, 1000 * s.get 0x3300 2, 1000 * s.get 0x3600 1, s.get 0x3300 1]
/-- Does a limit reach PROGRESS_LIMIT (R408)? -/
def State.reaches (s : State) (us : Nat) : Bool := decide (1000 * s.get 0x5010 3 ≤ us)

/-- A byte of a routing table entry with its DIR (R278): 0 at the device's own coordinate and beyond the size, else 1 or 2, in an open
dimension away from the missing wrap. -/
def State.dirOk (s : State) (axis c dir : Nat) : Bool :=
  let o := coord s.self axis
  let d := s.dim axis
  if c = o ∨ d ≤ c then dir == 0
  else if d ≤ 2 ∨ s.wrap axis then dir == 1 || dir == 2
  else dir == (if o < c then 1 else 2)

/-- Is a PART_RECT allowed to a partition (R388)? -/
def State.rectOk (s : State) (p v : Nat) : Bool :=
  let r := Rect.ofWord v
  r.w == 0 || (decide (r.w ≤ 16) && decide (1 ≤ r.h) && decide (r.x + r.w ≤ 16) && decide (r.y + r.h ≤ 16)
    && (List.range 8).all (fun q => q == p || !s.defined q || !(s.rect q).meets r))

/-- The capacity of a tier in MiB (R223, R224). -/
def State.capacity (s : State) (tier : Nat) : Nat := if tier < 2 then 196608 else 1024 * s.get 0x4000 1
/-- Is a quota allowed: not below the partition's use, the eight within the tier's capacity (R223)? -/
def State.quotaOk (s : State) (p tier v : Nat) : Bool :=
  let others := sumOf (((List.range 8).filter (· != p)).map (fun q => s.get (0x4100 + q) (tier + 1)))
  decide (usedIn (s.part p).places tier ≤ v * mib) && decide (others + v ≤ s.capacity tier)

/-- Is a value outside what its entry's own rule allows? -/
def State.outOfRange (s : State) (i sub v : Nat) : Bool :=
  if fieldRange i sub v then true
  else if i = 0x2000 ∧ sub = 5 then decide (s.boardRec.ocLimit < v)
  else if i = 0x3010 then !(List.range 64).all (fun c => s.dirOk (sub - 1) c (bits v (8 * c + 7) (8 * c + 6)))
  else if i = 0x3300 then s.reaches (if sub = 1 then v else 1000 * v)
  else if i = 0x3400 ∧ sub = 1 then decide (v < s.get 0x3400 2)
  else if i = 0x3400 ∧ sub = 2 then decide (s.get 0x3400 1 < v)
  else if i = 0x3600 ∨ i = 0x4010 then s.reaches (1000 * v)
  else if 0x3610 ≤ i ∧ i < 0x3618 then
    (List.range 8).any (fun q => q != i - 0x3610 && (s.get (0x3610 + q) 1 &&& v) != 0)
  else if 0x4100 ≤ i ∧ i < 0x4108 then !s.quotaOk (i - 0x4100) (sub - 1) v
  else if i = 0x5010 ∧ sub = 3 then s.limitsUs.any (fun l => decide (1000 * v ≤ l))
  else if 0x5100 ≤ i ∧ i < 0x5108 ∧ sub = 1 then !s.rectOk (i - 0x5100) v
  else if i = 0x8010 ∧ sub = 1 then decide (s.get 0x8010 2 ≤ v)
  else if i = 0x8010 ∧ sub = 2 then decide (v ≤ s.get 0x8010 1)
  else false

/-! ### The BUSY check (R76, R278, R289, R308, R388, R419) -/

/-- Does an entry refuse a write in the present state? -/
def State.refusesNow (s : State) (i sub : Nat) : Bool :=
  if i = 0x3000 ∨ i = 0x3010 ∨ i = 0x3020 then (List.range 8).any (fun p => !s.quiet p)
  else if 0x3610 ≤ i ∧ i < 0x3618 then !s.quiet (i - 0x3610)
  else if 0x5100 ≤ i ∧ i < 0x5108 then !s.quiet (i - 0x5100)
  else if i = 0x6020 ∧ sub = 3 then s.recovers 0 || s.recovers 1
  else false

/-- The status of a write (R379): the first check it fails, in order. -/
def State.writeStatus (s : State) (a : Actor) (w : DictWrite) : Nat :=
  match s.barred a w.idx w.sub true with
  | some st => st
  | none => match entryAt w.idx w.sub with
    | none => 1
    | some e =>
      if w.len ≠ e.ty.len ∨ !e.holds w.value ∨ s.outOfRange w.idx w.sub w.value then 3
      else if w.expect ≠ 0xFFFFFFFF ∧ w.expect ≠ s.changeCount w.idx then 5
      else if s.refusesNow w.idx w.sub then 4
      else 0

/-! ### What an accepted write does -/

/-- The bits of an entry that are not reserved (R13). -/
def storedBits (i sub v : Nat) : Nat :=
  if i = 0x1010 then v % 2 ^ 272
  else if i = 0x2000 ∧ sub = 1 then v % 2 ^ 48
  else if i = 0x3000 ∧ sub = 1 then v % 2 ^ 27
  else if i = 0x3000 ∧ sub = 3 then v % 2 ^ 49
  else if i = 0x3010 then sumOf ((List.range 64).map (fun c => bits v (8 * c + 7) (8 * c + 6) * 64 * 2 ^ (8 * c)))
  else if 0x5100 ≤ i ∧ i < 0x5108 ∧ sub = 1 then v / 2 ^ 14 * 2 ^ 14
  else if i = 0x7000 then v / 2 ^ 26 * 2 ^ 26
  else v

/-- A tussock that leaves a partition is cleared (R357): its pool, its reeds' scratchpads, accumulators and program memories. -/
def State.clearTussock (s : State) (t : Nat) : State :=
  let s := s.modTus t (fun x => { x with pool := [] })
  { s with reeds := s.reeds.map (fun (r : Nat × Reed) => if tusOf r.1 = t then (r.1, { r.2 with spad := [], acc := [], pmem := [], status := .unassigned }) else r) }

/-- A partition's rectangle changes (R76, R352, R357, R388, R401): tussocks that leave are cleared, its placements go, its apertures
close; one that was undefined draws a fresh key, one that is deleted loses everything it held. -/
def State.redefine (s : State) (p old v : Nat) : State :=
  let a := Rect.ofWord old
  let b := Rect.ofWord v
  let s := (a.tussocks.filter (fun t => !b.has t)).foldl (fun s t => s.clearTussock t) s
  let s := (s.dropPlaces p (fun _ => true)).dropApertures p
  if b.w = 0 then
    let s := ({ s with parts := Tbl.up s.parts p {} }).set (0x1200 + p) 2 0
    s.recount p
  else if a.w = 0 then s.drawKey p
  else s

/-- A thermometer code raised to n ones (R342). -/
def raiseCode (w : W64) (n : Nat) : W64 := w ||| BitVec.ofNat 64 (2 ^ Nat.min n 64 - 1)

/-- SVN_COMMIT (R346): the class's fuse counter rises to the SVN of its running image, whose REVOKE_KEY0 blows FW_KEY0_REVOKED. -/
def State.svnCommit (s : State) (cls : Nat) : State :=
  let k := s.slot (if cls = 1 then s.bootSlot else s.ccSlot)
  let f := s.fuses
  let f : Fuses := if cls = 1 then { f with svnReeve := raiseCode f.svnReeve k.svn } else { f with svnCc := raiseCode f.svnCc k.svn }
  { s with fuses := { f with key0Revoked := f.key0Revoked || k.revoke } }

/-- Every cause of a section fault, by code (R411). -/
def allCauses : List SCause :=
  [.drainLimit, .peerSectionFault, .progressLimit, .mireStartLate, .hostLost, .fenHung, .handleBound, .descriptorShape, .queuePointer,
   .sluiceSequence, .sluiceSelect, .vectorLength, .vectorAlign, .vectorOperand, .spadUncorrectable, .poolUncorrectable, .accUncorrectable,
   .tileCrc, .tileFormat, .matrixShape, .tileExtent, .hbmUncorrectable, .boardUncorrectable, .hostData, .hostPage, .resupplyFailed,
   .resupplyOverflow, .resupplyLimit, .sealExhausted, .meshMisroute, .meshLink, .rillMisroute, .lodeDown, .configMismatch, .windowLimit,
   .multicastTimeout, .sumpResidue, .sumpCount, .sumpLimit]

/-- Entering VENDOR_TEST (R358): every section faults, every tier and lode key is erased. -/
def State.enterTest (s : State) : State :=
  let s := s.faultParts (List.range 8) ((allCauses[Config.vendorCause % 39]?).getD .peerSectionFault) mgmtUnit 0
  let s := (List.range 8).foldl (fun s p =>
    (s.modPart p (fun x => { x with sealKey := none, openKey := none, pendingKey := none })).set (0x1200 + p) 2 0) s
  let wipe := fun (l : Lode) => { l with keyTx := none, keyRx := none, newTx := none, newRx := none, switchTx := none, switchRx := none, secret := 0 }
  let s := { s with lodes := s.lodes.map (fun (l : Nat × Lode) => (l.1, wipe l.2)) }
  (s.set 0x1100 1 1).logEvent 4 0x0131 none mgmtUnit 0 []

/-- Does a signature unlock VENDOR_TEST (R358, R391): a firmware key's, over "VGTU", DEVICE_SERIAL and a challenge that has not expired? -/
def State.unlocks (s : State) (pk : List Byte) (sig : Nat) : Bool :=
  match s.sedge.challenge with
  | none => false
  | some (c, at_) =>
    let d := Config.shake pk
    let msg := ascii "VGTU" ++ leBytes 8 s.fuses.serial.toNat ++ leBytes 32 c.toNat
    ((d == s.fuses.fwKey0 && !s.fuses.key0Revoked) || d == s.fuses.fwKey1)
      && !s.past (some at_) (msCycles 10000) && verifies pk msg (leBytes 1280 sig)

/-- The public key of a caller's session. -/
def State.callerKey (s : State) (c : Caller) : List Byte :=
  match c with | .session id => (match s.session? id with | some x => x.pk | none => []) | .host _ => []

/-- The effect of an accepted write beside the value it sets: entry, old and new value. -/
def State.writeEffect (s : State) (i sub old v : Nat) : State :=
  if i = 0x2000 ∧ sub = 1 then { s with power := { s.power with capPending := true } }
  else if i = 0x1100 ∧ sub = 6 then s.svnCommit v
  else if 0x5100 ≤ i ∧ i < 0x5108 ∧ sub = 1 then s.redefine (i - 0x5100) old v
  else if 0x5100 ≤ i ∧ i < 0x5108 ∧ sub = 2 then (if old = v then s else s.changeOwner (i - 0x5100) v)
  else if i = 0x6020 ∧ sub = 3 then (if s.fenState (v - 1) = 2 then s else s.hangFen (v - 1))
  else if i = 0x6050 ∧ sub = 3 then { s with retest := some v }
  else if i = 0x7000 then s.issueSnap (BitVec.ofNat 32 v) none
  else s

/-- Is an entry held as written? A write-only one triggers its action alone (R375). -/
def Acc.held (a : Acc) : Bool := match a with | .wo _ | .vtW => false | _ => true

/-- An accepted write (R379, R381): the count of its index rises, the live value changes at once, a persistent entry awaits its store. -/
def State.putEntry (s : State) (e : EDef) (i sub v : Nat) : State :=
  let old := s.get i sub
  let v := storedBits i sub v
  let s := { s with changes := Tbl.up s.changes i (s.changeCount i + 1), sedge := { s.sedge with dirty := s.sedge.dirty || e.keep } }
  let s := if e.acc.held then s.set i sub v else s
  s.writeEffect i sub old v

/-- What a write leaves to be done once its response has been sent: closing a changed principal's sessions (R369), a device reset. -/
inductive After where
  | nothing
  | principal (n : Nat)
  | reset
  deriving DecidableEq, Repr

/-- Does a refused write ask to redefine a partition that is held, or to take tussocks of one (R76)? -/
def State.takesHeld (s : State) (w : DictWrite) (st : Nat) : Bool :=
  decide (0x5100 ≤ w.idx) && decide (w.idx < 0x5108)
    && (st == 4 || (st == 3 && w.sub == 1 && (List.range 8).any (fun q =>
      q != w.idx - 0x5100 && s.defined q && !s.quiet q && (s.rect q).meets (Rect.ofWord w.value))))

/-- What a refused write leaves (R76, R375, R391): a count for want of rights, a log entry for tussocks that are held, a spent challenge. -/
def State.noteRefusal (s : State) (w : DictWrite) (st : Nat) : State :=
  if s.takesHeld w st then s.logEvent 11 Config.partBusyCode.toNat (some (w.idx - 0x5100)) 0 0 []
  else if w.idx = 0xF000 ∧ st = 3 then { s with sedge := { s.sedge with challenge := none } }
  else s.noteAccess st

/-- One write as the dictionary applies it (R379): the state after it with what follows the response, or the status of the first check it
fails. TEST_UNLOCK with a signature that does not verify is out of range; its challenge is spent either way (R391). -/
def State.writeEntry (s : State) (c : Caller) (a : Actor) (w : DictWrite) : Except Nat (State × After) :=
  match s.writeStatus a w, entryAt w.idx w.sub with
  | 0, some e =>
    if w.idx = 0xF000 then
      if s.unlocks (s.callerKey c) w.value then
        let s := { s with sedge := { s.sedge with challenge := none } }
        .ok ((s.putEntry e w.idx w.sub w.value).enterTest, .nothing)
      else .error 3
    else
      let after := if w.idx = 0x1010 then (if s.get w.idx w.sub = storedBits w.idx w.sub w.value then After.nothing else .principal (w.sub - 1))
        else if w.idx = 0x6010 then .reset else .nothing
      .ok (s.putEntry e w.idx w.sub w.value, after)
  | 0, none => .error 1
  | st, _ => .error st

/-- Closes the sessions that a principal opened, and its pending handshake (R369). -/
def State.closePrincipal (s : State) (n : Nat) : State :=
  { s with sedge := { s.sedge with sessions := s.sedge.sessions.filter (fun x => x.principal != n),
                                   pending := s.sedge.pending.filter (fun x => x.principal != n) } }
/-- What follows a response. -/
def State.after (s : State) : After → State
  | .nothing => s
  | .principal n => s.closePrincipal n
  | .reset => s.deviceReset 2

/-- The entries of a WRITE_SET applied in the order given, each against what the earlier ones leave (R379): all of them with what
follows the response, or the first that fails with its status and the answer it is given. -/
def applySet (c : Caller) (a : Actor) : List DictWrite → State → List After → Except (DictWrite × Nat) (State × List After)
  | [], s, l => .ok (s, l)
  | w :: t, s, l =>
    match s.writeEntry c a w with
    | .ok (s', f) => applySet c a t s' (l ++ [f])
    | .error st => .error (w, st)

/-- A WRITE_SET (R379): the state, the answers, what follows the response. Of a set that fails nothing is applied; its answer is the
first failing entry's, with the value and count that stand. -/
def State.writeSet (s : State) (c : Caller) (a : Actor) (ws : List DictWrite) : State × List DictAns × List After :=
  match applySet c a ws s [] with
  | .ok (t, l) => (t, ws.map (fun w => t.answer w.idx w.sub 0), l)
  | .error (w, st) => (s.noteRefusal w st, [s.answer w.idx w.sub st], [])

/-- A single write: the state, the answer, what follows the response. -/
def State.writeOne (s : State) (c : Caller) (a : Actor) (w : DictWrite) : State × DictAns × After :=
  match s.writeEntry c a w with
  | .ok (t, f) => (t, t.answer w.idx w.sub 0, f)
  | .error st => (s.noteRefusal w st, s.answer w.idx w.sub st, .nothing)

/-! ### Single operations as commands of their own -/

/-- One write by a caller, with its answer sent to it (R379) while the reeve runs; a session that is not open is dropped (R368). -/
def State.callerWrite (s : State) (c : Caller) (i sub : Nat) (expect : W32) (len value : Nat) : State :=
  if !s.reeveRuns then s
  else match s.actor c with
  | none => s.bump 0x1020 4
  | some a =>
    let (t, ans, f) := s.writeOne c a { idx := i, sub := sub, expect := expect, len := len, value := value }
    (t.emit (.dict c 0 [ans])).after f

/-- DICT_WRITE (R379): a write of an entry, checked in the order of R379 and applied. -/
def execDictWrite (c : Caller) (i sub : Nat) (expect : W32) (len value : Nat) (s : State) : Host.Outcome State Fault Refusal :=
  .next (s.callerWrite c i sub expect len value)
/-- CAP_REQUEST (R328): one atomic write of cap and effective step, which replaces the pending request. -/
def execCapRequest (c : Caller) (expect : W32) (value : W64) (s : State) : Host.Outcome State Fault Refusal :=
  .next (s.callerWrite c 0x2000 1 expect 8 value.toNat)
/-- SNAPSHOT_CMD (R390): a write without CLEAR. -/
def execSnapshotCmd (c : Caller) (expect value : W32) (s : State) : Host.Outcome State Fault Refusal :=
  .next (s.callerWrite c 0x7000 1 expect 4 (bits value.toNat 30 0))
/-- SNAPSHOT_CMD_CLEAR (R52, R390): a write with CLEAR set. -/
def execSnapshotCmdClear (c : Caller) (expect value : W32) (s : State) : Host.Outcome State Fault Refusal :=
  .next (s.callerWrite c 0x7000 1 expect 4 (bits value.toNat 30 0 + 2 ^ 31))
/-- SVN_COMMIT (R346). -/
def execSvnCommit (c : Caller) (expect : W32) (value : Byte) (s : State) : Host.Outcome State Fault Refusal :=
  .next (s.callerWrite c 0x1100 6 expect 1 value.toNat)
/-- DEVICE_RESET (R412, R424). -/
def execDeviceReset (c : Caller) (expect : W32) (value : Byte) (s : State) : Host.Outcome State Fault Refusal :=
  .next (s.callerWrite c 0x6010 3 expect 1 value.toNat)
/-- FEN_RECOVER (R419): the fen's affected sections fault with FEN_HUNG and its recovery begins. -/
def execFenRecover (c : Caller) (expect : W32) (value : Byte) (s : State) : Host.Outcome State Fault Refusal :=
  .next (s.callerWrite c 0x6020 3 expect 1 value.toNat)
/-- RETEST_REQUEST (R415, R424): the unit to test at the next device reset. -/
def execRetestRequest (c : Caller) (expect value : W32) (s : State) : Host.Outcome State Fault Refusal :=
  .next (s.callerWrite c 0x6050 3 expect 4 value.toNat)
/-- PART_RECT (R76, R357, R388): a write that defines or moves a partition. -/
def execPartRect (c : Caller) (p : Fin 8) (expect value : W32) (s : State) : Host.Outcome State Fault Refusal :=
  .next (s.callerWrite c (0x5100 + p.val) 1 expect 4 value.toNat)
/-- PARTITION_DELETE (R388): a write of PART_RECT with W = 0. -/
def execPartitionDelete (c : Caller) (p : Fin 8) (expect : W32) (s : State) : Host.Outcome State Fault Refusal :=
  .next (s.callerWrite c (0x5100 + p.val) 1 expect 4 0)
/-- OWNER_HOST (R388, R402). -/
def execOwnerHost (c : Caller) (p : Fin 8) (expect : W32) (value : Byte) (s : State) : Host.Outcome State Fault Refusal :=
  .next (s.callerWrite c (0x5100 + p.val) 2 expect 1 value.toNat)
/-- PRINCIPAL (R369): a write of one of the 16 principal entries. -/
def execPrincipal (c : Caller) (n : Fin 16) (expect : W32) (value : BitVec 320) (s : State) : Host.Outcome State Fault Refusal :=
  .next (s.callerWrite c 0x1010 (n.val + 1) expect 40 value.toNat)
/-- TEST_CHALLENGE (R391): a read that returns a fresh challenge to the vendor test role. -/
def execTestChallenge (c : Caller) (s : State) : Host.Outcome State Fault Refusal :=
  if !s.reeveRuns then .next s
  else match s.actor c with
  | none => .next (s.bump 0x1020 4)
  | some a =>
    let (t, ans) := s.readEntry a 0xF000 1
    .next (t.emit (.dict c 0 [ans]))
/-- TEST_UNLOCK (R358, R391). -/
def execTestUnlock (c : Caller) (expect : W32) (sig : BitVec 10240) (s : State) : Host.Outcome State Fault Refusal :=
  .next (s.callerWrite c 0xF000 2 expect 1280 sig.toNat)
/-- TEST_CHALLENGE_EXPIRE (R391): 10 s after it was read a challenge expires. -/
def execTestChallengeExpire (s : State) : Host.Outcome State Fault Refusal :=
  match s.sedge.challenge with
  | none => .next s
  | some (_, at_) => if s.past (some at_) (msCycles 10000) then .next { s with sedge := { s.sedge with challenge := none } } else .next s

/-! ### Persistence (R382, R383, R415) -/

/-- The persistent entries that hold a value, ascending (R381). -/
def State.persistent (s : State) : Tbl Nat :=
  s.dict.filter (fun (e : Nat × Nat) => match entryAt (e.1 / 256) (e.1 % 256) with | some d => d.keep | none => false)

/-- The records of persistent entries (R382): INDEX, SUBINDEX, LEN, value, in ascending index:subindex. -/
def records (t : Tbl Nat) : List Byte :=
  t.flatMap (fun e =>
    let len := match entryAt (e.1 / 256) (e.1 % 256) with | some d => d.ty.len | none => 0
    leBytes 2 (e.1 / 256) ++ leBytes 1 (e.1 % 256) ++ leBytes 2 len ++ leBytes len e.2)

/-- Answers the writes with SYNC that wait for a store, caches the responses, then closes the sessions of the principals they changed
(R369, R373, R383). -/
def State.answerSync (s : State) (failed : Bool) : State :=
  let one := fun (s : State) (w : W32 × SCached × List Nat) =>
    let k := w.2.1
    let st := if failed then 6 else k.status
    let s := match s.session? w.1 with
      | none => s
      | some _ =>
        let mark := fun (c : SCached) => if c.req = k.req then { c with status := st } else c
        (s.modSession w.1 (fun x => { x with cache := x.cache.map mark })).sendTo w.1 k.type 1 st k.req k.payload
    w.2.2.foldl State.closePrincipal s
  let l := s.sedge.syncWait
  l.foldl one { s with sedge := { s.sedge with syncWait := [] } }

/-- Does the next store go into copy B: the one that does not hold the newest SEQ, A where neither is valid (R383)? -/
def intoB (a b : Option (List Byte)) : Bool :=
  match a, b with | some a, some b => decide (copySeq b ≤ copySeq a) | some _, none => true | none, _ => false
/-- Puts what a store leaves into one of two copies. -/
def putCopy (toB : Bool) (c a b : Option (List Byte)) : Option (List Byte) × Option (List Byte) := if toB then (a, c) else (c, b)

/-- Writes the persistent copy that the next store goes into (R382, R383), valid or not. -/
def State.storeCopy (s : State) (ok : Bool) : State :=
  let x := s.sedge
  let b := s.fuses.copy magicVgpd (newestSeq x.copyA x.copyB + 1) (records s.persistent)
  let toB := intoB x.copyA x.copyB
  let n := putCopy toB (if ok then some b else none) x.copyA x.copyB
  (s.emit (.flash (if toB then 0x01840000 else 0x01800000) b)).modSedge (fun x => { x with copyA := n.1, copyB := n.2 })
/-- Writes the copy of the out-of-service record that the next store goes into (R415), valid or not. -/
def State.storeOos (s : State) (ok : Bool) : State :=
  let x := s.sedge
  let b := s.fuses.copy magicVgos (newestSeq x.oosA x.oosB + 1) (s.oos.flatMap (leBytes 4))
  let toB := intoB x.oosA x.oosB
  let n := putCopy toB (if ok then some b else none) x.oosA x.oosB
  let s := (s.emit (.flash (if toB then 0x018B0000 else 0x018A0000) b)).modSedge (fun x => { x with oosA := n.1, oosB := n.2 })
  if ok then { s with oosFlash := s.oos } else s

/-- PERSIST_STORE (R382, R383, R415): what has changed of the persistent entries and of the out-of-service record goes into the copy that does
not hold the newest SEQ, with SEQ one higher, at most once per second; the copy is read back and checked. A failed check is tried once more;
the second failure is logged and counted, and the other copy stays the newest. -/
def execPersistStore (ok : Bool) (s : State) : Host.Outcome State Fault Refusal :=
  let x := s.sedge
  if !s.reeveRuns ∨ (!x.dirty ∧ s.oosFlash = s.oos) ∨ (x.storedAt.isSome ∧ !x.storeFailed ∧ !s.past x.storedAt (msCycles 1000)) then .next s
  else
    let t := if x.dirty then s.storeCopy ok else s
    let t := if s.oosFlash = s.oos then t else t.storeOos ok
    let done := fun (t : State) => t.modSedge (fun y => { y with dirty := false, storeFailed := false, storedAt := some s.timeBase })
    if ok then .next ((done t).answerSync false)
    else if !x.storeFailed then .next (t.modSedge (fun y => { y with storeFailed := true }))
    else .next ((((done t).bump 0x1020 9).logEvent 10 0x0193 none 0 0 []).answerSync true)

end Sys2Proof.Machine
end

