-- ==== Sys2Proof/Machine/ReedScalar.lean ====
section
/-! DEFINITION. The sequencer's and the scalar instructions: NOP to CSW and SADD to AMAD (R78, R82, R90, R95, R440). -/
namespace Sys2Proof.Machine

/-- NOP (R90): the engine issues it; nothing else happens. -/
def execNop (r : RR) (s : State) : Host.Outcome State Fault Refusal := .next (s.issue r (.nop r) [] (fun t => .go t))

/-- A loop entered at an index (R90): the body follows with its counter at 0, or is skipped when the bound is 0. -/
def loopFrame (pc len bound ctr : Nat) : Frame := { start := pc + 1, stop := pc + 1 + len, ctr := ctr, bound := bound, iter := 0 }

/-- LOOP (R90), on either engine's own copies (R94). -/
def execLoop (r : RR) (e : Engine) (ctr : Fin 8) (bound : BitVec 24) (len : Nat) (s : State) : Host.Outcome State Fault Refusal :=
  match e with
  | .exec => .next (s.issue r (.loop r e ctr bound len) [] (fun t =>
      let pc := (t.ctxOf r).pc.toNat
      if bound = 0 then .go (t.modCtxOf r (fun c => { c with pc := BitVec.ofNat 11 (pc + len) }))
      else .go (t.modCtxOf r (fun c => { c with loops := loopFrame pc len bound.toNat ctr.val :: c.loops, c := Tbl.up c.c ctr.val 0 }))))
  | .fetch => .next (s.fetchIssue r (.loop r e ctr bound len) (fun t =>
      some (t.modReed r.reed.val (fun x =>
        let f := x.fetch
        if bound = 0 then { x with fetch := { f with pc := BitVec.ofNat 11 (f.pc.toNat + len) } }
        else { x with fetch := { f with loops := loopFrame f.pc.toNat len bound.toNat ctr.val :: f.loops, c := Tbl.up f.c ctr.val 0 } }))))

/-- DMARK (R95): the execute engine records the mark; the fetch engine passes it once the execute engine has issued it
and every earlier write is acknowledged. -/
def execDmark (r : RR) (e : Engine) (s : State) : Host.Outcome State Fault Refusal :=
  match e with
  | .exec => .next (s.issue r (.dmark r e) [] (fun t => .go (t.modReed r.reed.val (fun x => if x.threads = 0 then x.mark none else x))))
  | .fetch => .next (s.fetchIssue r (.dmark r e) (fun t => match (t.reed r.reed.val).markReady with
      | some (_, rest) => some (t.modReed r.reed.val (fun x => { x with marks := rest }))
      | none => none))

/-- FENCE (R90): it issues, and the next instruction waits until every write is acknowledged. -/
def execFence (r : RR) (s : State) : Host.Outcome State Fault Refusal :=
  .next (s.issue r (.fence r) [] (fun t => .go (t.modCtxOf r (fun c => { c with fence := true }))))

/-- May the engine take the END of a context (R83, R92, R100): outside threaded mode the sequencer reaches it with no body in issue; a threaded
context issues it in its turn? -/
def Reed.canEnd (x : Reed) (k : Nat) : Bool :=
  x.status == .running && !(x.context k).ended && (if x.threads = 0 then k == 0 && !x.inBody else x.canIssue k)

/-- The program of a context ends (R83): the reed enters DRAIN when every operation of its last firing has completed (R88). -/
def Reed.takeEnd (x : Reed) (k : Nat) : Reed :=
  let x := x.modCtx k (fun c => { c with ended := true, wait := none, fence := false })
  (if x.threads = 0 then x else { x with issued := true, lastCtx := k }).settle

/-- END (R83, R88, R94): the program ends where an unfinished FENCE does not hold it; the fetch engine waits here for the next step's
start. -/
def execEnd (r : RR) (e : Engine) (s : State) : Host.Outcome State Fault Refusal :=
  let x := s.reed r.reed.val
  match e with
  | .exec =>
    if !x.canEnd r.ctx.val || !x.names r .exec (.end_ r e) then .next s
    else match s.issueWait r [] with
      | some c => .next (s.waits r c)
      | none => .next (s.setReed r.reed.val (x.takeEnd r.ctx.val))
  | .fetch =>
    if x.fetchCan && x.names r .fetch (.end_ r e) then .next (s.setReed r.reed.val { x with fetch := { x.fetch with ended := true, issued := true } })
    else .next s

/-- SETVL (R181): VL takes the immediate. -/
def execSetvl (r : RR) (imm : Byte) (s : State) : Host.Outcome State Fault Refusal :=
  .next (s.issue r (.setvl r imm) [] (fun t => .go (t.modCtxOf r (fun c => { c with vl := imm }))))

/-- NOTE (R90, R252): a firing notice carrying IMM[15:0] to the fen's control core. DESIGN CHOICE (entry 20): the
payload is one word, the reed number above the immediate. -/
def execNote (r : RR) (imm : W16) (s : State) : Host.Outcome State Fault Refusal :=
  .next (s.issue r (.note r imm) [] (fun t =>
    let q := r.reed.val
    .go (t.rillSend { destT := 240 * fenOf (tusOf q), port := 26, type := 3, epoch := t.epochOf q,
                      words := [BitVec.ofNat 32 (q * 2 ^ 16 + imm.toNat)], srcT := tusOf q })))

/-- REED_INFO (R81). -/
def reedInfo (r : Nat) : Nat :=
  0x02 * 2 ^ 56 + 0x01 * 2 ^ 48 + 256 * 2 ^ 32 + 4 * 2 ^ 28 + 5 * 2 ^ 24 + 8 * 2 ^ 16 + 4 * 2 ^ 13 + r

/-- The STATE field of SEQ_STATE (R81). -/
def SeqState.code : SeqState → Nat
  | .unassigned => 0 | .armed => 1 | .running => 2 | .drain => 3 | .stopped => 4

/-- A 64-bit register of the reed register space by its offset; an offset that is not listed reads as zero (R80). DESIGN CHOICE (entry 132):
in threaded mode SEQ_STATE.PC shows context 0's program counter. -/
def State.reedReg (s : State) (r off : Nat) : Nat :=
  let x := s.reed r
  if off = 0x000 then reedInfo r
  else if off = 0x008 then
    (s.epochOf r).toNat * 2 ^ 61 + x.status.code * 2 ^ 58 + (x.context 0).pc.toNat * 2 ^ 47 + x.firing.toNat
  else if off = 0x010 then x.threads
  else if off = 0x018 then x.slack.toNat
  else if off = 0x020 then x.csCtl.toNat
  else if off = 0x028 then x.dropped.toNat * 2 ^ 32 + x.written.toNat
  else if 0x040 ≤ off ∧ off ≤ 0x0B8 ∧ off % 8 = 0 then (Tbl.lk 0 x.idle ((off - 0x040) / 8)).toNat
  else if 0x100 ≤ off ∧ off ≤ 0x178 ∧ off % 8 = 0 then (Tbl.lk 0 x.idleSnap ((off - 0x100) / 8)).toNat
  else if off = 0x180 then x.slackSnap.toNat
  else if off = 0x188 then x.snapTime.toNat
  else 0

/-- The 32 bits a CSR at an offset delivers (R82): the low half at a register's offset, the high half at that offset plus 4. -/
def State.csrRead (s : State) (r off : Nat) : W32 :=
  if off % 8 = 4 then BitVec.ofNat 32 (s.reedReg r (off - 4) / 2 ^ 32) else BitVec.ofNat 32 (s.reedReg r off)

/-- A write of CORE_SAMPLE_CTL (R53): the reserved bits read as zero, and setting ENABLE starts WRITTEN from 0. -/
def Reed.putCsCtl (x : Reed) (w : W32) : Reed :=
  let v := BitVec.ofNat 32 (w.toNat - (bits w.toNat 25 22) * 2 ^ 22)
  { x with csCtl := v, written := if v.getLsbD 31 && !x.csCtl.getLsbD 31 then 0 else x.written }

/-- CSR (R82): reads 32 bits of a reed register; a read at 0x02C delivers DROPPED and clears it. -/
def execCsr (r : RR) (dst : Fin 16) (off : BitVec 12) (s : State) : Host.Outcome State Fault Refusal :=
  .next (s.issue r (.csr r dst off) [] (fun t =>
    let w := t.csrRead r.reed.val off.toNat
    let t := if off = 0x02C then t.modReed r.reed.val (fun x => { x with dropped := 0 }) else t
    .go (t.putS r dst.val w)))

/-- CSW (R82): writes CORE_SAMPLE_CTL, and stands over a control core's write in the same cycle. Only that offset may be
written; any other is refused at load. -/
def execCsw (r : RR) (src : SSrc) (off : BitVec 12) (s : State) : Host.Outcome State Fault Refusal :=
  .next (s.issue r (.csw r src off) (src.spec r.ctx.val) (fun t =>
    let w := (t.ctxOf r).src src
    if off = 0x020 then .go (t.modReed r.reed.val (fun x => { (x.putCsCtl w) with cswNow := true })) else .go t))

/-- A scalar instruction of two sources (R440). -/
def State.scalar2 (s : State) (r : RR) (i : Instr) (dst : Fin 16) (a b : SSrc) (f : W32 → W32 → W32) : State :=
  s.issue r i (a.spec r.ctx.val ++ b.spec r.ctx.val) (fun t =>
    .go (t.putS r dst.val (f ((t.ctxOf r).src a) ((t.ctxOf r).src b))))

/-- SADD (R90, R440). -/
def execSadd (r : RR) (dst : Fin 16) (a b : SSrc) (s : State) : Host.Outcome State Fault Refusal :=
  .next (s.scalar2 r (.sadd r dst a b) dst a b (· + ·))
/-- SSUB (R90, R440). -/
def execSsub (r : RR) (dst : Fin 16) (a b : SSrc) (s : State) : Host.Outcome State Fault Refusal :=
  .next (s.scalar2 r (.ssub r dst a b) dst a b (· - ·))
/-- SMUL (R90, R440): the low 32 bits of the product. -/
def execSmul (r : RR) (dst : Fin 16) (a b : SSrc) (s : State) : Host.Outcome State Fault Refusal :=
  .next (s.scalar2 r (.smul r dst a b) dst a b (· * ·))
/-- SAND (R90, R440). -/
def execSand (r : RR) (dst : Fin 16) (a b : SSrc) (s : State) : Host.Outcome State Fault Refusal :=
  .next (s.scalar2 r (.sand r dst a b) dst a b (· &&& ·))
/-- SOR (R90, R440). -/
def execSor (r : RR) (dst : Fin 16) (a b : SSrc) (s : State) : Host.Outcome State Fault Refusal :=
  .next (s.scalar2 r (.sor r dst a b) dst a b (· ||| ·))
/-- SXOR (R90, R440). -/
def execSxor (r : RR) (dst : Fin 16) (a b : SSrc) (s : State) : Host.Outcome State Fault Refusal :=
  .next (s.scalar2 r (.sxor r dst a b) dst a b (· ^^^ ·))
/-- SSHL (R90, R440): by SRC2[4:0]. -/
def execSshl (r : RR) (dst : Fin 16) (a b : SSrc) (s : State) : Host.Outcome State Fault Refusal :=
  .next (s.scalar2 r (.sshl r dst a b) dst a b (fun x y => x <<< (y.toNat % 32)))
/-- SSHR (R90, R440): logical, by SRC2[4:0]. -/
def execSshr (r : RR) (dst : Fin 16) (a b : SSrc) (s : State) : Host.Outcome State Fault Refusal :=
  .next (s.scalar2 r (.sshr r dst a b) dst a b (fun x y => x >>> (y.toNat % 32)))
/-- SLI (R90, R440): the immediate. -/
def execSli (r : RR) (dst : Fin 16) (imm : W32) (s : State) : Host.Outcome State Fault Refusal :=
  .next (s.issue r (.sli r dst imm) [] (fun t => .go (t.putS r dst.val imm)))
/-- SSEL (R90, R440): SRC1 where SRC3 is not zero, else SRC2. -/
def execSsel (r : RR) (dst : Fin 16) (a b c : SSrc) (s : State) : Host.Outcome State Fault Refusal :=
  .next (s.issue r (.ssel r dst a b c) (a.spec r.ctx.val ++ b.spec r.ctx.val ++ c.spec r.ctx.val) (fun t =>
    let x := t.ctxOf r
    .go (t.putS r dst.val (if x.src c ≠ 0 then x.src a else x.src b))))

/-- The comparison of SCMP (R90). -/
def SPred.holds (p : SPred) (x y : W32) : Bool :=
  match p with
  | .eq => x == y | .ne => x != y | .ltS => x.slt y | .ltU => x.ult y

/-- SCMP (R90, R440): 1 or 0. -/
def execScmp (r : RR) (dst : Fin 16) (a b : SSrc) (p : SPred) (s : State) : Host.Outcome State Fault Refusal :=
  .next (s.scalar2 r (.scmp r dst a b p) dst a b (fun x y => if p.holds x y then 1 else 0))

/-- The value an SMOV takes on the execute engine: S, A, C, VL and FIRING, the short ones zero-extended (R78, R90). -/
def State.movValue (s : State) (r : RR) : MovSrc → W32
  | .s i => (s.ctxOf r).getS i.val
  | .a i => (s.ctxOf r).getA i.val
  | .c i => (Tbl.lk 0 (s.ctxOf r).c i.val).zeroExtend 32
  | .vl => (s.ctxOf r).vl.zeroExtend 32
  | .firing => (s.reed r.reed.val).j

/-- Does an SMOV into an A register act as a dependence mark (R95): its source is S, C or VL? -/
def MovSrc.marks : MovSrc → Bool
  | .s _ | .c _ | .vl => true
  | _ => false

/-- The registers an SMOV awaits. -/
def MovSrc.spec (k : Nat) : MovSrc → List Nat
  | .s i => [spS k i.val]
  | .a i => [spA k i.val]
  | _ => []

/-- SMOV (R90, R95, R181): among S, A, C, VL and FIRING; into VL the low 8 bits. Into an A register both engines take
part: the execute engine writes its copy, and for an S, C or VL source records a mark that carries the value; the fetch
engine takes that value at the mark, or its own A register. From FIRING the fetch engine takes its own firing index. -/
def execSmov (r : RR) (e : Engine) (dst : MovDst) (src : MovSrc) (s : State) : Host.Outcome State Fault Refusal :=
  match e with
  | .exec => .next (s.issue r (.smov r e dst src) (src.spec r.ctx.val) (fun t =>
      let w := t.movValue r src
      match dst with
      | .s i => .go (t.putS r i.val w)
      | .vl => .go (t.modCtxOf r (fun c => { c with vl := w.setWidth 8 }))
      | .a i =>
        let t := t.modCtxOf r (fun c => c.setA i.val w)
        .go (if src.marks && (t.reed r.reed.val).threads == 0 then t.modReed r.reed.val (·.mark (some w)) else t)))
  | .fetch => match dst with
    | .a i => .next (s.fetchIssue r (.smov r e dst src) (fun t =>
        let x := t.reed r.reed.val
        let put (x : Reed) (w : W32) : Reed := { x with fetch := { x.fetch with a := Tbl.up x.fetch.a i.val w } }
        match src with
        | .a j => some (t.setReed r.reed.val (put x (Tbl.lk 0 x.fetch.a j.val)))
        | .firing => some (t.setReed r.reed.val (put x (BitVec.ofNat 32 x.fetch.j)))
        | _ => match x.markReady with
          | some (m, rest) => some (t.setReed r.reed.val (put { x with marks := rest } (m.value.getD 0)))
          | none => none))
    | _ => .next s

/-- AADD (R90): an A register plus the immediate, on the engine that issues it. -/
def execAadd (r : RR) (e : Engine) (dst : Fin 16) (src : AddSrc) (imm : W32) (s : State) : Host.Outcome State Fault Refusal :=
  match e with
  | .exec => .next (s.issue r (.aadd r e dst src imm) [] (fun t => .go (t.modCtxOf r (fun c =>
      c.setA dst.val ((match src with | .a i => c.getA i.val | .zero => 0) + imm)))))
  | .fetch => .next (s.fetchIssue r (.aadd r e dst src imm) (fun t => some (t.modReed r.reed.val (fun x =>
      let w := (match src with | .a i => Tbl.lk 0 x.fetch.a i.val | .zero => 0) + imm
      { x with fetch := { x.fetch with a := Tbl.up x.fetch.a dst.val w } }))))

/-- AMAD (R90): DST plus a loop counter times a stride in an A register, modulo 2^32, on the engine that issues it. -/
def execAmad (r : RR) (e : Engine) (dst : Fin 16) (ctr : Fin 8) (stride : Fin 16) (s : State) : Host.Outcome State Fault Refusal :=
  match e with
  | .exec => .next (s.issue r (.amad r e dst ctr stride) [] (fun t => .go (t.modCtxOf r (fun c =>
      c.setA dst.val (c.getA dst.val + (Tbl.lk 0 c.c ctr.val).zeroExtend 32 * c.getA stride.val)))))
  | .fetch => .next (s.fetchIssue r (.amad r e dst ctr stride) (fun t => some (t.modReed r.reed.val (fun x =>
      let f := x.fetch
      let w := Tbl.lk 0 f.a dst.val + (Tbl.lk 0 f.c ctr.val).zeroExtend 32 * Tbl.lk 0 f.a stride.val
      { x with fetch := { f with a := Tbl.up f.a dst.val w } }))))

end Sys2Proof.Machine
end

