-- ==== Sys2Proof/Machine/HostCmds.lean ====
section
/-! DEFINITION. The commands of the host rings beside LOAD (R52, R82, R120, R173, R174, R215, R222, R231, R234, R238, R239, R284, R285,
R290, R349, R353, R376, R378, R389, R397, R402, R404) and the tile aperture (R401). -/
namespace Sys2Proof.Machine

/-! ### UNLOAD and MANIFEST -/

/-- UNLOAD (R68, R397): with bit 0 the staged load ends with ABORTED; with bit 1 no further step is re-armed after the current one. -/
def State.unload (s : State) (c : HCmd) : State :=
  let f := c.f 8 1
  let s := if bit f 0 then s.abortStaged c.part else s
  let s := if bit f 1 then s.modPart c.part (fun q => { q with run := q.run.map (fun r => { r with stop := true }) }) else s
  s.done c.cid 0

/-- UNLOAD with bit 0 set (R68, R397). -/
def execUnloadDiscardStaged (c : HCmd) (s : State) : Host.Outcome State Fault Refusal := .next (s.partCmd c 0x02 (fun s => s.unload c))

/-- UNLOAD with bit 1 set (R397). -/
def execUnloadStopRearm (c : HCmd) (s : State) : Host.Outcome State Fault Refusal := .next (s.partCmd c 0x02 (fun s => s.unload c))

/-- MANIFEST (R290, R397): registers a manifest of at most 1 MiB; BUSY while a section is running or staged. -/
def execManifest (c : HCmd) (m : Manifest) (s : State) : Host.Outcome State Fault Refusal :=
  .next (s.partCmd c 0x03 (fun s =>
    if mib < c.f 16 4 ∨ c.f 16 4 ≠ m.bytes.length then s.done c.cid 1
    else if !s.quiet c.part then s.done c.cid 3
    else (s.modPart c.part (fun q => { q with manifest := some m })).done c.cid 0))

/-! ### Placements (R222, R223) -/

/-- Is a tensor used by a partition's running or staged section (R222), as its own or as a copy of a ping-pong pair? -/
def State.usedTensor (s : State) (p t : Nat) : Bool :=
  let q := s.part p
  let l := q.logical t
  let run := match q.run with | some r => r.sec.uses | none => []
  let staged := match q.staged with | some g => g.sec.uses ++ g.sec.img.tensors.map (fun (d : TensorDecl) => d.id) | none => []
  (run ++ staged).contains t || (run ++ staged).contains l

/-- PLACE (R220 to R223, R397): a placement as if by a one-tensor image; its tier address in bytes 16 to 23. FEN AUTO is the fen of the
partition's first column; a tensor that the table holds alike keeps its placement. -/
def execPlace (c : HCmd) (s : State) : Host.Outcome State Fault Refusal :=
  .next (s.partCmd c 0x04 (fun s =>
    let p := c.part
    let word := BitVec.ofNat 64 (c.f 24 8)
    let t : TensorDecl := { id := c.f 8 4, rows := c.f 12 4, cols := c.f 16 4, fmt := c.f 20 1, placement := word }
    let sent := fun (s : State) (a : Nat) => s.done c.cid 0 [(16, 8, a)]
    if t.rows = 0 ∨ t.cols = 0 ∨ !placementOk word false ∨ !fmtPlaces t.fmt then s.done c.cid 1
    else match (s.part p).places.find? (fun y => y.tensor == t.id) with
      | some y =>
        if y.rows = t.rows ∧ y.cols = t.cols ∧ y.fmt = t.fmt ∧ y.word = word then sent s y.addr else s.done c.cid 1
      | none =>
        if 4096 ≤ (s.part p).places.length then s.done c.cid 6
        else match s.resolve p [] [] t 1 (fenOf (16 * (s.rect p).x)) with
          | some (y, _) => sent ((s.modPart p (fun q => { q with places := q.places ++ [y] })).recount p) y.addr
          | none => s.done c.cid 6))

/-- RELEASE (R222, R223, R357, R397): removes a placement; BUSY while the running or staged section uses it. -/
def execRelease (c : HCmd) (s : State) : Host.Outcome State Fault Refusal :=
  .next (s.partCmd c 0x05 (fun s =>
    let t := c.f 8 4
    if !(s.part c.part).places.any (fun y => y.tensor == t) then s.done c.cid 1
    else if s.usedTensor c.part t then s.done c.cid 3
    else (s.dropPlaces c.part (fun y => y.tensor == t)).done c.cid 0))

/-! ### Host regions (R231) -/

/-- Does an address of a port lie in a region? -/
def Region.holds (r : Region) (port a : Nat) : Bool := r.port == port && decide (r.base ≤ a) && decide (a < r.base + r.size)

/-- Does a running or staged section of a partition hold a handle into a region (R231)? -/
def State.regionUsed (s : State) (p : Nat) (r : Region) : Bool :=
  let q := s.part p
  let into := fun (b : BitVec 128) => let h := HInfo.ofBits b; h.kind == 5 && r.holds h.target (256 * h.base)
  let placed := fun (t : Nat) => q.places.any (fun y => y.tensor == t && (match y.space with | some (.host k) => r.holds k y.addr | _ => false))
  let running := match q.run with
    | some u => u.sec.reeds.any (fun x => (s.reed x).handles.any (fun h => into h.2)) || u.sec.uses.any placed
    | none => false
  let staged := match q.staged with
    | some g => g.sec.img.progs.any (fun g => g.handles.any (fun h => h.tensor.isNone && into h.bits)) || g.sec.uses.any placed
    | none => false
  running || staged

/-- HOST_REGION (R231, R397): with REGISTER set a region is registered on the command's port, its base a multiple of 4,608; with REGISTER clear
it goes. BUSY while a running or staged section holds a handle into the region as it stands. -/
def State.hostRegion (s : State) (c : HCmd) : State :=
  let k := c.f 8 1
  let base := c.f 16 8
  let size := c.f 24 8
  let busy := match Tbl.lk? (s.part c.part).regions k with | some o => s.regionUsed c.part o | none => false
  if 16 ≤ k then s.done c.cid 1
  else if bit (c.f 9 1) 0 then
    if base % 4608 ≠ 0 ∨ 2 ^ 64 < base + size then s.done c.cid 1
    else if busy then s.done c.cid 3
    else ((s.modPart c.part (fun q => { q with regions := Tbl.up q.regions k { port := c.port.val, base := base, size := size } })).recount c.part).done c.cid 0
  else if busy then s.done c.cid 3
  else if (Tbl.lk? (s.part c.part).regions k).isNone then s.done c.cid 0
  else ((s.modPart c.part (fun q => { q with regions := Tbl.del q.regions k })).recount c.part).done c.cid 0

/-- HOST_REGION with REGISTER set (R231, R397). -/
def execHostRegionRegister (c : HCmd) (s : State) : Host.Outcome State Fault Refusal := .next (s.partCmd c 0x06 (fun s => s.hostRegion c))

/-- HOST_REGION with REGISTER clear (R231, R397). -/
def execHostRegionUnregister (c : HCmd) (s : State) : Host.Outcome State Fault Refusal := .next (s.partCmd c 0x06 (fun s => s.hostRegion c))

/-! ### Windows (R284, R285) -/

/-- Is a peer box in order, with coordinates of a device address (R262)? -/
def boxOk (b : List Nat) : Bool :=
  b.length == 6 && [0, 1, 2].all (fun i => decide (b.getD (2 * i) 0 ≤ b.getD (2 * i + 1) 0) && decide (b.getD (2 * i + 1) 0 < if i = 0 then 64 else 32))

/-- Does a window's range lie in what the partition holds (R284, R357): slots of a pool of its own, or whole tiles of a placement of
its own on the stack? -/
def State.windowOk (s : State) (p : Nat) (d : WinDecl) : Bool :=
  if d.hbm then
    (s.part p).places.any (fun y => y.space == some (.hbm d.place) && decide (y.addr ≤ 256 * d.first)
      && decide (256 * (d.first + d.slots) ≤ y.addr + y.size))
  else (s.rect p).has d.place && decide (d.first + d.slots ≤ 16384)

/-- The window that a WINDOW command declares (R284, R397): window, HBM4, tussock or stack, first slot or tier address, slots, peer box. -/
def HCmd.window (c : HCmd) : WinDecl :=
  let hbm := bit (c.f 9 1) 1
  { win := c.f 8 1, hbm := hbm, place := if hbm then c.f 12 2 % 8 else c.f 12 2, first := if hbm then c.f 16 8 / 256 else c.f 16 8,
    slots := c.f 24 4, box := (upto 28 6).map (fun i => c.f i 1) }

/-- WINDOW (R284, R285, R397): opens a window that its fields allow in what the partition holds, or closes one. -/
def State.windowCmd (s : State) (c : HCmd) : State :=
  let d := c.window
  if 64 ≤ d.win then s.done c.cid 1
  else if !bit (c.f 9 1) 0 then (s.closeWindow c.part d.win).done c.cid 0
  else
    let shape := if d.hbm then c.f 16 8 % 4608 == 0 && d.slots % 18 == 0 && decide (c.f 12 2 < 8) else decide (d.place < 256)
    if !shape ∨ d.slots = 0 ∨ !boxOk d.box then s.done c.cid 1
    else if !s.windowOk c.part d then s.done c.cid 2
    else (s.openWindow c.part d).done c.cid 0

/-- WINDOW, open (R284, R397). -/
def execWindowOpen (c : HCmd) (s : State) : Host.Outcome State Fault Refusal := .next (s.partCmd c 0x07 (fun s => s.windowCmd c))

/-- WINDOW, close (R285, R397). -/
def execWindowClose (c : HCmd) (s : State) : Host.Outcome State Fault Refusal := .next (s.partCmd c 0x07 (fun s => s.windowCmd c))

/-! ### Tiles (R225, R237, R238, R404) -/

/-- What a command or the aperture finds of a tile that it reads. -/
inductive TileOut where
  | ok (s : State) (tile : List Byte)
  | failed
  | exhausted
  deriving DecidableEq, Repr

/-- One read of the tile at an address of a tier as a command or the aperture reads it; none where it fails. -/
def State.tileOnce (s : State) (p : Nat) (sp : Space) (a : Nat) (d : HostData) : Option (State × List Byte) :=
  match sp, d with
  | .hbm i, _ => some (s, (s.stack i).mem.read a 4608)
  | .board k, .stored => (s.boardTile k a).bind (fun t => s.openTile p (s.expected p sp a) t)
  | .host _, .tile t => s.openTile p (s.expected p sp a) t
  | _, _ => none

/-- The plaintext of the tile at an address of a tier as a command or the aperture reads it (R237): a failed read is retried once, and a board
tile that fails twice is recovered from its mirror. -/
def State.tileOut (s : State) (p : Nat) (sp : Space) (a : Nat) (d : HostData) : TileOut :=
  let again := match d with | .late d => s.tileOnce p sp a d | _ => none
  match s.tileOnce p sp a d, again with
  | some (t, b), _ => .ok t b
  | none, some (t, b) => .ok ((t.bump 0x7400 1).logEvent 0 0x0100 (some p) 0 0 [(64, a)]) b
  | none, none => match s.recover p sp a (d == .lost) with
    | .ok t b => .ok t b
    | .exhausted => .exhausted
    | .absent => .failed

/-- A sealed tile that a command reads from host memory, opened and named as the tile it becomes, the retry of a failed read counted (R225,
R237). -/
def State.hostTile (s : State) (p : Nat) (want : Nat × Nat × Nat) (d : HostData) : TileOut :=
  let once := fun (d : HostData) => match d with | .tile k => s.openTile p (some want) k | _ => none
  match once d, (match d with | .late d => once d | _ => none) with
  | some (t, b), _ => .ok t b
  | none, some (t, b) => .ok ((t.bump 0x7400 1).logEvent 0 0x0100 (some p) 0 0 []) b
  | none, none => .failed

/-- Did host memory answer a read with a tile at all, at once or at the retry? -/
def hostAnswers : HostData → Bool
  | .tile _ | .late (.tile _) => true
  | _ => false

/-- Writes a tile's plaintext to its tier address, sealed again outside the package; none once the SEAL key is exhausted (R354). -/
def State.tileIn (s : State) (p : Nat) (sp : Space) (a : Nat) (b : List Byte) : Option State :=
  match sp with
  | .hbm i => some (s.putBytes (.hbm i) a b)
  | .board k => (s.sealTile p b).map (fun r => r.1.putBoard k a r.2)
  | .host q => (s.sealTile p b).map (fun r => r.1.emit (.hostTile q a r.2))
  | _ => some s

/-- Removes a resupply entry whose tile has been written and resumes the streams that joined it (R235, R238, R239). -/
def State.resupplied (s : State) (p : Nat) (e : Resup) : State :=
  let s := s.modPart p (fun q => { q with resup := q.resup.filter (fun x => x.idx != e.idx), resupDone := q.resupDone ++ [(e.tensor, e.addr)] })
  (e.joined.foldl (fun s j => s.resumeXfer j.1 true) s).bump 0x7400 4

/-- RESUPPLY (R238, R239, R404): the tile named is opened, must be the poisoned one, and is written; its halted streams resume. A tag
whose entry has closed, or whose limit has passed, is refused with RESUPPLY_LIMIT, a tile that does not open or is another with
RESUPPLY_FAILED. -/
def execResupply (c : HCmd) (d : HostData) (s : State) : Host.Outcome State Fault Refusal :=
  .next (s.partCmd c 0x08 (fun s =>
    let p := c.part
    if c.f 16 8 % 256 ≠ 0 then s.done c.cid 1
    else match (s.part p).resup.find? (fun e => e.tag == c.f 8 4) with
      | none => s.done c.cid 5 [(8, 4, 0x2E)]
      | some e =>
        if e.opened.toNat + msCycles e.limit < s.timeBase.toNat then s.done c.cid 5 [(8, 4, 0x2E)]
        else match hostAnswers d with
          | true =>
            (match s.hostTile p ((s.part p).logical e.tensor, e.row, e.col) d with
             | .failed | .exhausted => s.done c.cid 5 [(8, 4, 0x2C)]
             | .ok s b => match s.tileIn p e.space e.addr b with
               | none => s.done c.cid 5 [(8, 4, 0x2F)]
               | some s => (s.resupplied p e).done c.cid 0)
          | false => s.done c.cid 4))

/-- The space and the address of a tile of a tensor of a partition (R221, R401): none where there is no such tile in a tier. -/
def State.tilePlace (s : State) (p t n : Nat) : Option (Space × Nat) :=
  match (s.part p).places.find? (fun y => y.tensor == t) with
  | some y => (match y.space with
    | some (.hbm i) => if 4608 * (n + 1) ≤ y.size then some (.hbm i, y.addr + 4608 * n) else none
    | some (.board k) => if 4608 * (n + 1) ≤ y.size then some (.board k, y.addr + 4608 * n) else none
    | some (.host q) => if 4608 * (n + 1) ≤ y.size then some (.host q, y.addr + 4608 * n) else none
    | _ => none)
  | none => none

/-- Copies tiles to host memory, each sealed afresh (R225): the state, and the cause that ended the copy. -/
def copyOut (p t port : Nat) : List (Nat × HostData) → Nat → State → State × Option Nat
  | [], _, s => (s, none)
  | (n, d) :: l, addr, s =>
    match s.tilePlace p t n with
    | none => (s, some 0x2A)
    | some (sp, a) => match s.tileOut p sp a d with
      | .failed => (s, some sp.readFault.code)
      | .exhausted => (s, some 0x2F)
      | .ok s b => match s.sealTile p b with
        | none => (s, some 0x2F)
        | some (s, k) => copyOut p t port l (addr + 4608) (s.emit (.hostTile port addr k))

/-- Copies sealed tiles from host memory (R225). -/
def copyIn (p t : Nat) : List (Nat × HostData) → State → State × Option Nat
  | [], s => (s, none)
  | (n, d) :: l, s =>
    match s.tilePlace p t n, hostAnswers d with
    | some (sp, a), true => (match s.hostTile p ((s.expected p sp a).getD (0, 0, 0)) d with
      | .failed | .exhausted => (s, some 0x2A)
      | .ok s b => match s.tileIn p sp a b with
        | none => (s, some 0x2F)
        | some s => copyIn p t l s)
    | _, _ => (s, some 0)

/-- The tiles of a TILE_COPY with the data given for each. -/
def withData (first n : Nat) (ds : List HostData) : List (Nat × HostData) := (List.range n).map (fun i => (first + i, ds.getD i .failed))

/-- Do a run of tiles all exist? -/
def State.tilesExist (s : State) (p t first n : Nat) : Bool :=
  (s.tilePlace p t first).isSome && (n == 0 || (s.tilePlace p t (first + n - 1)).isSome)

/-- TILE_COPY (R225, R397): tiles of a tensor go to host memory, sealed, or sealed tiles of host memory go into a tensor, which is BUSY for one
of a running or staged section. ds gives what the reads of host memory bring. -/
def State.tileCopy (s : State) (c : HCmd) (ds : List HostData) : State :=
  let t := c.f 8 4
  let first := c.f 12 4
  let n := c.f 16 4
  let addr := c.f 24 8
  if !s.tilesExist c.part t first n ∨ 2 ^ 64 < addr + 4608 * n then s.done c.cid 1
  else if bit (c.f 20 1) 0 then
    match copyOut c.part t c.port.val (withData first n ds) addr s with
    | (s, none) => s.done c.cid 0
    | (s, some k) => s.done c.cid 5 [(8, 4, k)]
  else if s.usedTensor c.part t then s.done c.cid 3
  else
    match copyIn c.part t (withData first n ds) s with
    | (s, none) => s.done c.cid 0
    | (s, some 0) => s.done c.cid 4
    | (s, some k) => s.done c.cid 5 [(8, 4, k)]

/-- TILE_COPY to host (R225, R397). -/
def execTileCopyToHost (c : HCmd) (ds : List HostData) (s : State) : Host.Outcome State Fault Refusal :=
  .next (s.partCmd c 0x09 (fun s => s.tileCopy c ds))

/-- TILE_COPY from host (R225, R397). -/
def execTileCopyFromHost (c : HCmd) (ds : List HostData) (s : State) : Host.Outcome State Fault Refusal :=
  .next (s.partCmd c 0x09 (fun s => s.tileCopy c ds))

/-! ### Keys (R353) -/

/-- Unwraps a job key (R353): the device's KEM key gives the shared secret, KMAC256 the wrapping key; the additional data is the
partition, SEALER and DEVICE_SERIAL. A decommissioned device derives no key (R342). -/
def State.unwrapKey (s : State) (p : Nat) (sealer : W16) (blob : List Byte) : Option (BitVec 256) :=
  if s.fuses.decommissioned then none
  else
    let ss := Config.kemDecap s.fuses.kemSeed (blob.take 1568)
    let kek := (Config.kmac ss (ascii "VG wrap")).setWidth 256
    let aad := leBytes 1 p ++ leBytes 2 sealer.toNat ++ leBytes 8 s.fuses.serial.toNat
    let wrapped := (blob.drop 1568).take 32
    if gcmOk kek (rep 12 0) aad wrapped (blob.drop 1600) then some (BitVec.ofNat 256 (leNat (gcmXor kek (rep 12 0) wrapped))) else none

/-- KEY_INSTALL (R353): slot 0 SEAL, 1 OPEN; refused with a staged load, pending under a running section, else at once. -/
def State.installKey (s : State) (c : HCmd) (blob : List Byte) : State :=
  let p := c.part
  let toOpen := c.f 8 1 == 1
  let sealer := BitVec.ofNat 16 (c.f 10 2)
  if 1 < c.f 8 1 ∨ blob.length ≠ 1616 then s.done c.cid 1
  else if (s.part p).staged.isSome then s.done c.cid 3
  else match s.unwrapKey p sealer blob with
    | none => s.done c.cid 5 [(8, 4, (Config.detail 0).toNat)]
    | some k =>
      let key : TierKey := { key := k, sealer := sealer, job := true }
      let s := s.modPart p (fun q => { q with pendingKey := some (toOpen, key) })
      if (s.part p).run.isSome then s.done c.cid 0
      else
        let s := s.modPart p Part.applyKey
        (if toOpen then s else s.set (0x1200 + p) 2 2).done c.cid 0

/-- KEY_INSTALL into SEAL (R353): the SEAL key moves to OPEN, whose key is dropped. -/
def execKeyInstallSeal (c : HCmd) (blob : List Byte) (s : State) : Host.Outcome State Fault Refusal :=
  .next (s.partCmd c 0x0A (fun s => s.installKey c blob))
/-- KEY_INSTALL into OPEN (R353). -/
def execKeyInstallOpen (c : HCmd) (blob : List Byte) (s : State) : Host.Outcome State Fault Refusal :=
  .next (s.partCmd c 0x0A (fun s => s.installKey c blob))

/-! ### Attestation (R349) -/

/-- A partition's record of 64 bytes (R349); all but its first 8 bytes are zero where the scope is another partition. -/
def State.partRecord (s : State) (p : Nat) (whole : Bool) : List Byte :=
  let q := s.part p
  let r := s.rect p
  let job := match q.sealKey with | some k => k.job | none => false
  let head := leBytes 1 (b2n (s.defined p) + 2 * b2n q.run.isSome + 4 * b2n job) ++ leBytes 1 (s.owner p) ++ leBytes 1 r.x ++ leBytes 1 r.y
    ++ leBytes 1 r.w ++ leBytes 1 r.h ++ leBytes 2 (match q.sealKey with | some k => k.sealer.toNat | none => 0)
  let x := q.run.map (fun u => u.sec)
  let tail := leBytes 8 (match x with | some y => y.fingerprint.toNat | none => 0) ++ leBytes 8 (match x with | some y => y.mapping.toNat | none => 0)
    ++ leBytes 32 (match q.manifest with | some m => (Config.shake m.bytes).toNat | none => 0)
    ++ leBytes 4 (match x with | some y => y.sectionId | none => 0) ++ leBytes 4 (s.get (0x5100 + p) 5)
  if whole then head ++ tail else head.take 8 ++ rep 56 0

/-- The attestation report (R349). -/
def State.report (s : State) (scope : Nat) (nonce : BitVec 256) : List Byte :=
  let kr := s.slot s.bootSlot
  let kc := s.slot s.ccSlot
  let b := leBytes 4 0x52414756 ++ leBytes 2 1 ++ leBytes 2 2008 ++ leBytes 8 s.fuses.serial.toNat ++ leBytes 1 2 ++ leBytes 1 1
    ++ leBytes 1 s.lifecycle ++ leBytes 1 scope ++ leBytes 32 nonce.toNat ++ leBytes 8 s.timeBase.toNat ++ rep 4 0
    ++ leBytes 32 Config.romDigest.toNat ++ leBytes 32 kr.digest.toNat ++ leBytes 32 kc.digest.toNat
    ++ leBytes 2 kr.svn ++ leBytes 2 kc.svn ++ leBytes 2 (ones s.fuses.svnReeve) ++ leBytes 2 (ones s.fuses.svnCc)
    ++ leBytes 4 (s.bootSlot % 2 + 2 * (s.ccSlot % 2)) ++ rep 4 0 ++ leBytes 32 (Config.shake s.fuses.certificate).toNat
    ++ (List.range 8).flatMap (fun p => s.partRecord p (scope == 0xFF || scope == p)) ++ leBytes 4 0 ++ leBytes 4 0
  b ++ s.fuses.sign b

/-- ATTEST (R342, R349, R376): scope 0xFF for host 0 alone, a partition's for its owner and host 0. -/
def execAttest (c : HCmd) (s : State) : Host.Outcome State Fault Refusal :=
  .next (s.hostCmd c 0x0B (fun s =>
    let n := c.f 8 1
    if n ≠ 0xFF ∧ 8 ≤ n then s.done c.cid 1
    else if c.port.val ≠ 0 ∧ (n = 0xFF ∨ s.owner n ≠ c.port.val) then s.done c.cid 2
    else if !c.dmaOk then s.done c.cid 4
    else if s.fuses.decommissioned then s.done c.cid 5 [(8, 4, (Config.detail 1).toNat)]
    else (s.emit (.hostBytes c.port.val (c.f 16 8) (s.report n (BitVec.ofNat 256 (c.f 24 32))))).done c.cid 0))

/-! ### Dictionary, log and snapshots -/

/-- The operations of a DICT command, one at a time (R379). -/
def runOps (c : Caller) (a : Actor) : List DictOp → State → List DictAns → List After → State × List DictAns × List After
  | [], s, r, l => (s, r, l)
  | .read i sub :: t, s, r, l => let (s, x) := s.readEntry a i sub; runOps c a t s (r ++ [x]) l
  | .write i sub e n v :: t, s, r, l =>
    let (s, x, f) := s.writeOne c a { idx := i, sub := sub, expect := e, len := n, value := v }
    runOps c a t s (r ++ [x]) (l ++ [f])

/-- Answers a DICT command, then does what follows the response. -/
def State.dictDone (s : State) (c : HCmd) (r : List DictAns) (l : List After) : State :=
  l.foldl State.after ((s.emit (.dict (.host c.port) (c.f 24 8) r)).done c.cid 0)

/-- A DICT command of a kind (R378, R397): 1 to 16 entries. -/
def State.dictCmd (s : State) (c : HCmd) (set : Bool) (body : State → State) : State :=
  s.hostCmd c 0x0C (fun s => if c.f 8 1 = 0 ∨ 16 < c.f 8 1 ∨ bit (c.f 9 1) 0 ≠ set then s.done c.cid 1 else if !c.dmaOk then s.done c.cid 4 else body s)

/-- DICT (R376, R378, R379, R397): the entries' operations, each answered with its status. -/
def execDict (c : HCmd) (ops : List DictOp) (s : State) : Host.Outcome State Fault Refusal :=
  .next (s.dictCmd c false (fun s =>
    let (s, r, l) := runOps (.host c.port) (s.hostActor c.port.val) (ops.take (c.f 8 1)) s [] []
    s.dictDone c r l))

/-- DICT with WRITE_SET (R378, R379): all of the entries, or none. -/
def execDictWriteSet (c : HCmd) (ws : List DictWrite) (s : State) : Host.Outcome State Fault Refusal :=
  .next (s.dictCmd c true (fun s =>
    let (s, r, l) := s.writeSet (.host c.port) (s.hostActor c.port.val) (ws.take (c.f 8 1))
    s.dictDone c r l))

/-- The log with the entries that a read returned marked as read (R389 LOG_LOST). -/
def ErrLog.markRead (g : ErrLog) (l : List LogRec) : ErrLog :=
  { g with ring := g.ring.map (fun e => if l.any (fun x => x.seq == e.seq) then { e with wasRead := true } else e) }

/-- Entries of the log from a sequence number (R380, R389), which count as read. -/
def State.readLog (s : State) (first n : Nat) : State × List LogRec :=
  let l := (s.log.ring.filter (fun e => decide (first ≤ e.seq))).take n
  ({ s with log := s.log.markRead l }, l)

/-- LOG_READ (R389, R397): up to 16 entries that the log still holds from a sequence number. -/
def execLogRead (c : HCmd) (s : State) : Host.Outcome State Fault Refusal :=
  .next (s.hostCmd c 0x0D (fun s =>
    if c.f 12 1 = 0 ∨ 16 < c.f 12 1 then s.done c.cid 1
    else if !c.dmaOk then s.done c.cid 4
    else
      let (s, l) := s.readLog (c.f 8 4) (c.f 12 1)
      (s.emit (.hostBytes c.port.val (c.f 16 8) (l.flatMap LogRec.bytes))).done c.cid 0))

/-- A SNAPSHOT command (R52, R376, R390, R397): host 1 may snapshot a partition it owns alone; it is done at the latch. -/
def State.snapshotCmd (s : State) (c : HCmd) : State :=
  let v := c.f 8 4
  let scope := bits v 30 29
  let p := bits v 28 26
  if scope = 3 ∨ v % 2 ^ 26 ≠ 0 then s.done c.cid 1
  else if c.port.val ≠ 0 ∧ !(scope == 1 && s.owner p == 1) then s.done c.cid 2
  else s.issueSnap (BitVec.ofNat 32 v) (some (c.port.val, c.ring.val, c.part, c.id))

/-- SNAPSHOT (R390) with CLEAR = 0. -/
def execSnapshot (c : HCmd) (s : State) : Host.Outcome State Fault Refusal := .next (s.hostCmd c 0x0E (fun s => s.snapshotCmd c))
/-- SNAPSHOT with CLEAR = 1 (R52): the counters are latched and cleared. -/
def execSnapshotAndClear (c : HCmd) (s : State) : Host.Outcome State Fault Refusal := .next (s.hostCmd c 0x0E (fun s => s.snapshotCmd c))

/-! ### Probes and samples (R53, R82, R120, R234) -/

/-- A command on a reed of the command's partition (R357): BAD_COMMAND for a reed number past the last, PARTITION for another's. -/
def State.reedCmd (s : State) (c : HCmd) (op : Nat) (body : State → Nat → State) : State :=
  s.partCmd c op (fun s =>
    let r := c.f 10 2
    if 6144 ≤ r then s.done c.cid 1
    else if !(s.rect c.part).has (tusOf r) then s.done c.cid 2
    else body s r)

/-- The head of an input queue and its tag, or zeros where it is empty (R120). -/
def State.peek (s : State) (reed q : Nat) : List Byte :=
  match (Tbl.lk {} (s.reed reed).qi q).toks with
  | t :: _ => leBytes 64 t.data.toNat ++ leBytes 4 t.tag.toNat
  | [] => rep 68 0

/-- The head descriptor of a stream context (R226, R234): of the reed's own on channel 0; of a privileged channel the oldest of the reed's
partition, halted ones first, at the port or controller where the reed has descriptors, or the first where any stands. -/
def State.streamHead (s : State) (reed chan : Nat) : Option Xfer :=
  if chan = 0 then (s.xfers.find? (fun x => x.reed == reed && x.chan == 0 && x.halted)).orElse (fun _ => s.xfers.find? (fun x => x.reed == reed && x.chan == 0))
  else
    let p := (s.tus1 (tusOf reed)).owner.getD 0
    let mine := fun (x : Xfer) => x.chan == chan && x.part == p
    let at_ := ((s.xfers.find? (fun x => mine x && x.reed == reed)).orElse (fun _ => s.xfers.find? mine)).map Xfer.tier
    s.xfers.find? (fun x => mine x && some x.tier == at_)

/-- SLOTS_DONE (R234): the slots delivered in order, whole tiles of an untagged tier. -/
def Xfer.delivered (x : Xfer) : Nat :=
  let n := match x.dst with
    | .board _ | .host _ | .window _ => x.done
    | _ => ((List.range x.slots).takeWhile x.got.contains).length
  if x.src.untagged || x.dst.untagged then n / 18 * 18 else n

/-- A stream context of 128 bytes (R234); its registers are those of the fetch engine of the reed at its head. -/
def State.streamContext (s : State) (reed chan : Nat) : List Byte :=
  let h := s.streamHead reed chan
  let reed := match h with | some x => x.reed | none => reed
  let f := (s.reed reed).fetch
  let n := fun (g : Xfer → Nat) => match h with | some x => g x | none => 0
  let st := n (fun x => if x.halted then 2 else 1)
  let fault := n (fun x => match x.fault with | .none => 0 | .translation => 1 | .poison => 2 | .windowClosed => 3)
  let cs := if h.isSome then (List.range 8).flatMap (fun i => leBytes 3 (Tbl.lk 0 f.c i).toNat) else rep 24 0
  let as := if h.isSome then (List.range 16).flatMap (fun i => leBytes 4 (Tbl.lk 0 f.a i).toNat) else rep 64 0
  leBytes 2 reed ++ leBytes 1 st ++ leBytes 1 fault ++ leBytes 2 (n (·.pc)) ++ leBytes 1 chan ++ leBytes 1 (s.epochOf reed).toNat
    ++ leBytes 8 (n (·.word.toNat)) ++ leBytes 4 (n (·.delivered)) ++ leBytes 4 (n (·.firing.toNat)) ++ cs
    ++ leBytes 8 (n (·.tierAddr)) ++ leBytes 4 (n (·.waitId)) ++ rep 4 0 ++ as

/-- PROBE (R80, R82, R120, R234, R397): a reed register whole, where a read of CORE_SAMPLE_STAT clears DROPPED; the head of an input queue; a
stream context. A kind, a queue or a channel out of range is BAD_COMMAND. -/
def State.probe (s : State) (c : HCmd) (r : Nat) : State :=
  let sent := fun (s : State) (b : List Byte) => (s.emit (.hostBytes c.port.val (c.f 16 8) b)).done c.cid 0
  let n := c.f 12 1
  if c.f 8 1 = 0 then
    let off := c.f 14 2
    sent (if off = 0x028 then s.modReed r (fun x => { x with dropped := 0 }) else s) (leBytes 8 (s.reedReg r off))
  else if c.f 8 1 = 1 then (if 8 ≤ n then s.done c.cid 1 else sent s (s.peek r n))
  else if c.f 8 1 = 2 then (if 4 ≤ n then s.done c.cid 1 else sent s (s.streamContext r n))
  else s.done c.cid 1

/-- PROBE kind 0 (R80, R82): a reed register. -/
def execProbeReedRegister (c : HCmd) (s : State) : Host.Outcome State Fault Refusal := .next (s.reedCmd c 0x0F (fun s r => s.probe c r))
/-- PROBE kind 1 (R120): the head of an input queue. -/
def execProbeQueueHead (c : HCmd) (s : State) : Host.Outcome State Fault Refusal := .next (s.reedCmd c 0x0F (fun s r => s.probe c r))
/-- PROBE kind 2 (R234): a stream context. -/
def execProbeStreamContext (c : HCmd) (s : State) : Host.Outcome State Fault Refusal := .next (s.reedCmd c 0x0F (fun s r => s.probe c r))

/-- CORE_SAMPLE (R53, R82): the control core writes a reed's CORE_SAMPLE_CTL; a CSW of the same reed cycle stands over it, before it or
after it. The command completes at the end of the reed cycle, and the completion reports an overwritten write (entry 111). -/
def execCoreSample (c : HCmd) (s : State) : Host.Outcome State Fault Refusal :=
  .next (s.reedCmd c 0x10 (fun s r =>
    let x := s.reed r
    let wait := (c.port.val, c.ring.val, c.part, c.id)
    s.setReed r { (if x.cswNow then x else x.putCsCtl (BitVec.ofNat 32 (c.f 12 4))) with csWait := x.csWait ++ [wait] }))

/-- Orders choice records by OP_ID (R215). -/
def byOpId (l : List Choice) : List Choice :=
  l.foldl (fun acc (x : Choice) => acc.takeWhile (fun (y : Choice) => decide (y.opId ≤ x.opId)) ++ x :: acc.dropWhile (fun (y : Choice) => decide (y.opId ≤ x.opId))) []

/-- CHOICE_REPORT (R215): at most a number of the choice records of the partition's last PREPARE, in OP_ID order. -/
def execChoiceReport (c : HCmd) (s : State) : Host.Outcome State Fault Refusal :=
  .next (s.partCmd c 0x11 (fun s =>
    (s.emit (.hostBytes c.port.val (c.f 16 8) (((byOpId (s.part c.part).choices).take (c.f 24 2)).flatMap Choice.bytes))).done c.cid 0))

/-! ### Numerics records (R173, R174) -/

/-- A numerics record as 128 bytes (R173). -/
def NumRec.bytes (r : NumRec) : List Byte :=
  leBytes 4 r.tensor ++ leBytes 4 r.step ++ [r.scale] ++ leBytes 1 (b2n r.valid + 2 * b2n r.calibrated + 4 * b2n r.overflowLast + 8 * b2n r.skippedLast)
    ++ leBytes 1 r.hist.length ++ [0] ++ leBytes 4 r.amaxLast.toNat ++ leBytes 8 r.elems.toNat ++ leBytes 8 r.zeros.toNat ++ leBytes 8 r.unders.toNat
    ++ leBytes 4 r.overs.toNat ++ leBytes 4 r.nonfin.toNat ++ leBytes 4 r.zeroStreak.toNat ++ leBytes 4 r.underStreak.toNat
    ++ leBytes 4 r.skippedTotal.toNat ++ rep 4 0 ++ (List.range 16).flatMap (fun i => leBytes 4 (r.hist.getD i 0).toNat)

/-- The record that 128 bytes restore (R173, R174): STATE_VALID is set. -/
def numRecOf (b : List Byte) : NumRec :=
  let w := fun (off : Nat) => BitVec.ofNat 32 (fld b off 4)
  let f := fld b 9 1
  { tensor := fld b 0 4, step := fld b 4 4, scale := BitVec.ofNat 8 (fld b 8 1), valid := true, calibrated := bit f 1, overflowLast := bit f 2,
    skippedLast := bit f 3, amaxLast := w 12, elems := BitVec.ofNat 64 (fld b 16 8), zeros := BitVec.ofNat 64 (fld b 24 8),
    unders := BitVec.ofNat 64 (fld b 32 8), overs := w 40, nonfin := w 44, zeroStreak := w 48, underStreak := w 52, skippedTotal := w 56,
    hist := (List.range (Nat.min 16 (fld b 10 1))).map (fun i => w (64 + 4 * i)) }

/-- NUMERICS_READ (R173): records of the partition from a first one on. -/
def execNumericsRead (c : HCmd) (s : State) : Host.Outcome State Fault Refusal :=
  .next (s.partCmd c 0x12 (fun s =>
    let l := ((s.part c.part).numer.drop (c.f 24 4)).take (c.f 28 4)
    (s.emit (.hostBytes c.port.val (c.f 16 8) (l.flatMap NumRec.bytes))).done c.cid 0))

/-- NUMERICS_RESTORE (R174, R397): records of the buffer from a first one on; BUSY while a section is running or staged. -/
def execNumericsRestore (c : HCmd) (buf : List Byte) (s : State) : Host.Outcome State Fault Refusal :=
  .next (s.partCmd c 0x13 (fun s =>
    let first := c.f 24 4
    let n := c.f 28 4
    if buf.length < 128 * (first + n) then s.done c.cid 1
    else if !s.quiet c.part then s.done c.cid 3
    else
      let l := (List.range n).map (fun i => numRecOf ((buf.drop (128 * (first + i))).take 128))
      (s.modPart c.part (fun q => { q with numer := l.foldl putRec q.numer })).done c.cid 0))

/-! ### The tile aperture (R401) -/

/-- A window of a port's aperture. -/
def State.aperture (s : State) (q w : Nat) : Aperture := Tbl.lk {} (s.port q).apert w
/-- Changes a window. -/
def State.modAperture (s : State) (q w : Nat) (f : Aperture → Aperture) : State :=
  s.modPort q (fun p => { p with apert := Tbl.up p.apert w (f (Tbl.lk {} p.apert w)) })
/-- PART, FIRST_TILE and TENSOR_ID of a window that maps: enabled, its partition owned by the port's host. -/
def State.mapped (s : State) (q w : Nat) : Option (Nat × Nat × Nat) :=
  let r := (s.aperture q w).reg.toNat
  let p := bits r 7 5
  if bit r 0 && s.defined p && s.owner p == q && s.barOpen q then some (p, bits r 31 8, bits r 63 32) else none

/-- APERTURE_READ (R401): served from the sealed copy in the window's read buffer, a fresh one where it holds another tile; a window that
does not map reads as zero. A tile that cannot be read or sealed is answered by nothing the manual states. d gives what a read of a HOST tensor brings. -/
def execApertureRead (q : Fin 2) (w : Fin 4) (off : W32) (d : HostData) (s : State) : Host.Outcome State Fault Refusal :=
  let lost := s.emit (.apertureOpen q.val w.val off.toNat)
  match s.mapped q.val w.val with
  | none => .next (s.emit (.aperture q.val w.val off.toNat none))
  | some (p, first, t) =>
    let n := first + off.toNat / 4608
    let serve := fun (s : State) (k : Sealed) => s.emit (.aperture q.val w.val off.toNat (some k))
    let fresh := fun (s : State) =>
      match s.tilePlace p t n with
      | none => lost
      | some (sp, a) => match s.tileOut p sp a d with
        | .failed | .exhausted => lost
        | .ok s b => match s.sealTile p b with
          | none => lost
          | some (s, k) => serve (s.modAperture q.val w.val (fun x => { x with rd := some (n, k) })) k
    match (s.aperture q.val w.val).rd with
    | some (m, k) => if m = n then .next (serve s k) else .next (fresh s)
    | none => .next (fresh s)

/-- A gathered tile of a window (R225, R401): opened and written, or dropped and logged. -/
def State.apertureTile (s : State) (q p t n : Nat) (k : Sealed) : State :=
  let refused := fun (s : State) => s.logEvent 9 0x0181 (some p) 0 n [(8, q), (32, t)]
  match s.tilePlace p t n with
  | some (sp, a) =>
    if s.usedTensor p t then refused s
    else (match s.openTile p (s.expected p sp a) k with
      | none => refused s
      | some (s, b) => match s.tileIn p sp a b with
        | none => refused s
        | some s => s)
  | none => refused s

/-- APERTURE_WRITE (R401): a write of an aperture register, which empties the window's buffers; or a 64-byte unit, which gathers in the write buffer until all 72 are present. A unit of another tile discards a partial one and is logged. -/
def execApertureWrite (q : Fin 2) (w : Fin 4) (x : ApertureW) (s : State) : Host.Outcome State Fault Refusal :=
  match x with
  | .reg v =>
    if !s.barOpen q.val then .next s
    else .next (s.modAperture q.val w.val (fun _ => { reg := BitVec.ofNat 64 (v.toNat / 32 * 32 + v.toNat % 2) }))
  | .unit off k =>
    match s.mapped q.val w.val with
    | none => .next s
    | some (p, first, t) =>
      let n := first + off.toNat / 4608
      let u := off.toNat % 4608 / 64
      let b := s.aperture q.val w.val
      let other := b.wrTile.isSome && b.wrTile != some n
      let s := if other then s.logEvent 9 0x0180 (some p) 0 (b.wrTile.getD 0) [(8, q.val), (32, t)] else s
      let l := Tbl.up (if b.wrTile = some n then b.wr else []) u k
      if l.length < 72 then .next (s.modAperture q.val w.val (fun x => { x with wrTile := some n, wr := l }))
      else .next ((s.modAperture q.val w.val (fun x => { x with wrTile := none, wr := [] })).apertureTile q.val p t n { bytes := l.flatMap (fun e => (e.2 ++ rep 64 0).take 64) })

end Sys2Proof.Machine
end

