-- ==== Sys2Proof/Machine/SedgeMsgs.lean ====
section
/-! DEFINITION. The management segment and Sedge: datagrams, fragments, handshakes, sessions, requests and events (R349, R361 to R374,
R377 to R380, R389). -/
namespace Sys2Proof.Machine

/-! ### Bytes on the segment (R7, R365, R378) -/

/-- A field of a payload in network byte order. -/
def nfld (b : List Byte) (off n : Nat) : Nat := beNat ((b.drop off).take n)

/-- A value as a message carries it (R365, R377): integers in network byte order, OCTETs from byte 0, arrays element by element. -/
def wire (ty len v : Nat) : List Byte :=
  if ty = 6 then leBytes len v
  else if ty = 7 then (List.range (len / 4)).flatMap (fun i => beBytes 4 (v / 2 ^ (32 * i)))
  else beBytes len v
/-- The value that bytes of a message spell for a type. -/
def unwire (ty : Nat) (b : List Byte) : Nat := if ty = 6 ∨ ty = 7 then leNat b else beNat b

/-- The READ response of an answer (R378). -/
def DictAns.bytes (a : DictAns) : List Byte :=
  beBytes 2 a.idx ++ beBytes 1 a.sub ++ beBytes 1 a.ty ++ beBytes 4 a.count.toNat ++ beBytes 2 a.len ++ wire a.ty a.len a.value

/-- One entry of a WRITE or WRITE_SET (R378) and the bytes after it; none where they are cut short. -/
def parseWrite (b : List Byte) : Option (DictWrite × List Byte) :=
  let i := nfld b 0 2
  let sub := nfld b 2 1
  let n := nfld b 8 2
  let ty := match entryAt i sub with | some e => e.ty.code | none => 6
  if b.length < 10 + n then none
  else some ({ idx := i, sub := sub, expect := BitVec.ofNat 32 (nfld b 4 4), len := n, value := unwire ty ((b.drop 10).take n) }, b.drop (10 + n))

/-- The entries of a WRITE_SET payload; none where it is malformed or holds more than a number of entries. -/
def parseSet : Nat → List Byte → Option (List DictWrite)
  | n, b =>
    if b.isEmpty then some []
    else match n with
      | 0 => none
      | n + 1 => (parseWrite b).bind (fun r => (parseSet n r.2).map (fun l => r.1 :: l))

/-! ### Receiving (R361, R364, R366, R368, R372) -/

/-- Does the device take part on the segment (R361, R364)? -/
def State.segmentUp (s : State) : Bool := s.reeveRuns && s.sedge.dad == .usable
/-- Is a datagram addressed to the device (R364): by IPv6 to its link-local address, or for DISCOVER to ff02::1 (R367), and on its port as
both source and destination? -/
def State.addressed (s : State) (h : SHdr) (type : Nat) : Bool :=
  (h.dest == .device || (h.dest == .allNodes && type == 1)) && h.ports.1.toNat == s.sedge.port && h.ports.2.toNat == s.sedge.port
/-- A datagram is dropped and counted in an entry of 0x1020. -/
def State.dropMsg (s : State) (sub : Nat) : State := s.bump 0x1020 sub

/-- Takes a datagram of a message (R361, R364, R367): one that is not addressed to the device is not accepted; a reserved TYPE is discarded
and counted. -/
def State.sedgeIn (s : State) (h : SHdr) (type : Nat) (go : State → State) : State :=
  if !s.segmentUp || !s.addressed h type then s
  else if !listedType h.type.toNat then s.dropMsg 4
  else if h.type.toNat ≠ type then s
  else go s

/-- The header and payload of a datagram as it arrived (R365). -/
def SHdr.bytes (h : SHdr) (payload : List Byte) : List Byte :=
  sedgeHdr h.type.toNat h.flags.toNat 0 h.session.toNat h.counter.toNat h.req.toNat h.frag.toNat payload.length ++ payload

/-- One message of a bucket. -/
def oneMsg : Nat := 1600000000
/-- A token bucket at a time: its level under a rate in messages per second and a burst (R368). -/
def refill (b : Nat × W64) (now : W64) (rate burst : Nat) : Nat := Nat.min (b.1 + (now - b.2).toNat * rate) (burst * oneMsg)

/-- Passes a message that is answered without a session (R368): the device-wide bucket, the sender's, and for HELLO the third; none where
one is empty. -/
def State.passAnon (s : State) (source : Nat) (hello : Bool) : Option State :=
  let x := s.sedge
  let r := s.get 0x1000 5
  let a := refill x.anon s.timeBase r (2 * r)
  let b := refill ((Tbl.lk? x.bySource source).getD (8 * oneMsg, s.timeBase)) s.timeBase 4 8
  let h := refill x.hello s.timeBase (s.get 0x1000 6) 4
  if a < oneMsg ∨ b < oneMsg ∨ (hello ∧ h < oneMsg) then none
  else
    let x : Sedge := { x with anon := (a - oneMsg, s.timeBase), bySource := Tbl.up x.bySource source (b - oneMsg, s.timeBase) }
    let x : Sedge := if hello then { x with hello := (h - oneMsg, s.timeBase) } else x
    some { s with sedge := x }

/-- Has a session had no accepted datagram for SESSION_IDLE (R374)? -/
def State.idled (s : State) (x : Session) : Bool := s.past (some x.lastUse) (msCycles (1000 * s.get 0x1000 4))

/-- Accepts a session's datagram (R368, R371, R372, R374): open session, good TAG, a count above the highest less 64 and not accepted
before; none where it was dropped, with the state that counts it. -/
def State.accept (s : State) (h : SHdr) (payload : List Byte) : State × Option Session :=
  match s.session? h.session with
  | none => (s.dropMsg 4, none)
  | some x =>
    let n := h.counter.toNat
    if s.idled x then ((s.closeSession x.id).dropMsg 4, none)
    else if h.session = 0 ∨ h.tag ≠ sedgeTag x.rxKey (h.bytes payload) then (s.dropMsg 4, none)
    else if n + 64 ≤ x.rxHigh ∨ n = 0 ∨ x.rxSeen.contains n then (s.dropMsg 7, none)
    else if 2 ^ 63 < n then (s.closeSession x.id, none)
    else
      let high := Nat.max x.rxHigh n
      let x : Session := { x with rxHigh := high, rxSeen := (x.rxSeen ++ [n]).filter (fun k => decide (high < k + 64)), lastUse := s.timeBase }
      (s.modSession x.id (fun _ => x), some x)

/-- The first n + 1 parts of a fragmented message, in order; none while one is missing. -/
def Frag.complete (f : Frag) (n : Nat) : Option (Tbl (List Byte)) :=
  (List.range (n + 1)).mapM (fun i => (Tbl.lk? f.parts i).map (fun b => (i, b)))

/-- Takes a fragment with its header (R366): the complete message's datagrams once all have come. At most four incomplete messages are held
for a source, each for 500 ms from its first fragment. -/
def State.gather (s : State) (h : SHdr) (payload : List Byte) : State × Option (Tbl (List Byte)) :=
  let b := h.bytes payload
  let i := h.frag.toNat
  let type := h.type.toNat
  if i = 0 ∧ !h.more then (s, some [(0, b)])
  else if 16 ≤ i then (s, none)
  else
    let held := s.sedge.frags.filter (fun f => !s.past (some f.at_) (msCycles 500))
    let mine := fun (f : Frag) => f.source == h.source && f.req == h.req && f.type == type
    let f : Frag := (held.find? mine).getD { source := h.source, req := h.req, type := type, parts := [], last := none, at_ := s.timeBase }
    let f : Frag := { f with parts := Tbl.up f.parts i b, last := if h.more then f.last else some i }
    let rest := held.filter (fun g => !mine g)
    match f.last.bind f.complete with
    | some t => (s.modSedge (fun x => { x with frags := rest }), some t)
    | none =>
      let others := rest.filter (fun g => g.source == h.source)
      let rest := match others with | o :: _ => if 4 ≤ others.length then rest.filter (fun g => g != o) else rest | [] => rest
      (s.modSedge (fun x => { x with frags := rest ++ [f] }), none)

/-- The whole payload of a message's datagrams: what stands after each header of 24 bytes. -/
def whole (t : Tbl (List Byte)) : List Byte := t.flatMap (fun e => e.2.drop 24)
/-- The datagrams themselves, one after the other (R370). -/
def spoken (t : Tbl (List Byte)) : List Byte := t.flatMap (·.2)

/-! ### Requests (R373) -/

/-- Does a request's response wait for a store (R383)? -/
def State.waitsSync (s : State) (id req : W32) : Bool := s.sedge.syncWait.any (fun w => w.1 == id && w.2.1.req == req)

/-- The cache of the last 16 responses. -/
def pushCache (l : List SCached) (c : SCached) : List SCached := (l ++ [c]).drop (l.length + 1 - 16)

/-- Carries a request out at most once (R373): a retry gets the cached response again, one below the session's highest that is not cached
is dropped; otherwise the body gives the status and payload, and what follows. -/
def State.request (s : State) (x : Session) (type : Nat) (req : W32) (body : State → State × Nat × List Byte × List After) : State :=
  if s.waitsSync x.id req then s
  else match x.cache.find? (fun c => c.req == req) with
    | some c => s.sendTo x.id c.type 1 c.status req c.payload
    | none =>
      if req.toNat < x.highReq then s.dropMsg 7
      else
        let (s, st, p, l) := body s
        let c : SCached := { req := req, type := type, status := st, payload := p }
        let s := s.modSession x.id (fun y => { y with highReq := req.toNat, cache := pushCache y.cache c })
        l.foldl State.after (s.sendTo x.id type 1 st req p)

/-- A session's request in one datagram, with its payload. -/
def State.sessionMsg (s : State) (h : SHdr) (type : Nat) (payload : List Byte)
    (body : Session → State → State × Nat × List Byte × List After) : State :=
  s.sedgeIn h type (fun s => match s.accept h payload with
    | (s, none) => s
    | (s, some x) => s.request x type h.req (body x))

/-- Answers without a session (R368): a message of a type under the request of a datagram, after a delay in ms. -/
def State.answerAnon (s : State) (h : SHdr) (delay type status : Nat) (payload : List Byte) : State :=
  s.emit (s.sedgeOut h.source delay { type := type, status := status, req := h.req.toNat } payload)

/-- What DISCOVER's answer carries (R368): serial, GENERATION and STEPPING, node identifier, DEVICE_ADDR, LIFECYCLE, certificate digest. -/
def State.discovery (s : State) : List Byte :=
  beBytes 8 s.fuses.serial.toNat ++ beBytes 1 (s.value 0 4) ++ beBytes 1 (s.value 0 5) ++ beBytes 1 s.boardRec.nodeId.toNat
    ++ beBytes 2 s.self ++ beBytes 1 s.lifecycle ++ digestBytes (Config.shake s.fuses.certificate)

/-- DISCOVER (R368): answered without a session, after (node identifier mod 64) ms. -/
def execDiscover (h : SHdr) (s : State) : Host.Outcome State Fault Refusal :=
  .next (s.sedgeIn h 1 (fun s =>
    if h.session ≠ 0 then s.dropMsg 4
    else match s.passAnon h.source false with
      | none => s.dropMsg 5
      | some s => s.answerAnon h (s.boardRec.nodeId.toNat % 64) 1 0 s.discovery))

/-- READ (R367, R368, R378): in a session, or without one of the entries 0x0000 to 0x0FFF. -/
def execRead (h : SHdr) (i : W16) (sub : Byte) (s : State) : Host.Outcome State Fault Refusal :=
  if h.session ≠ 0 then
    .next (s.sessionMsg h 2 (beBytes 2 i.toNat ++ [sub, 0#8]) (fun x s => let (s, a) := s.readEntry x.actor i.toNat sub.toNat; (s, a.status, a.bytes, [])))
  else
    .next (s.sedgeIn h 2 (fun s =>
      if 0x1000 ≤ i.toNat then s.dropMsg 4
      else match s.passAnon h.source false with
        | none => s.dropMsg 5
        | some s => let (s, a) := s.readEntry { role := 1 } i.toNat sub.toNat; s.answerAnon h 0 2 a.status a.bytes))

/-- A session's request of possibly several fragments, each a datagram of its own (R366). -/
def State.fragMsg (s : State) (h : SHdr) (type : Nat) (b : List Byte) (go : State → Session → List Byte → State) : State :=
  s.sedgeIn h type (fun s => match s.accept h b with
    | (s, none) => s
    | (s, some x) => match s.gather h b with
      | (s, none) => s
      | (s, some t) => go s x (whole t))

/-- The principals that a write's sequel closes. -/
def After.principals (l : List After) : List Nat := l.filterMap (fun a => match a with | .principal n => some n | _ => none)

/-- Carries out writes with SYNC (R383): an accepted write of a persistent entry is cached, and answered once the copy that holds it has
been checked; any other is answered at once. -/
def State.syncRequest (s : State) (x : Session) (type : Nat) (req : W32) (sync : Bool)
    (body : State → State × Nat × List Byte × List After) : State :=
  let fresh := !s.waitsSync x.id req && !x.cache.any (fun c => c.req == req) && decide (x.highReq ≤ req.toNat)
  let (t, st, p, l) := body (s.modSedge (fun y => { y with dirty := false }))
  if sync && fresh && st == 0 && t.sedge.dirty && !l.contains .reset then
    let c : SCached := { req := req, type := type, status := 0, payload := p }
    let t := t.modSession x.id (fun y => { y with highReq := req.toNat, cache := pushCache y.cache c })
    t.modSedge (fun y => { y with syncWait := y.syncWait ++ [(x.id, c, After.principals l)] })
  else s.request x type req body

/-- WRITE (R378, R379, R383): one write by a session; a payload that is not one entry is RANGE. -/
def execWrite (h : SHdr) (payload : List Byte) (s : State) : Host.Outcome State Fault Refusal :=
  .next (s.fragMsg h 3 payload (fun s x b =>
    s.syncRequest x 3 h.req h.sync (fun s =>
      match parseWrite b with
      | some (w, []) => let (s, a, f) := s.writeOne (.session x.id) x.actor w; (s, a.status, a.bytes, [f])
      | _ => (s, 3, [], []))))

/-- WRITE_SET (R378, R379, R383): 1 to 16 entries, all or none; another number is RANGE whole. -/
def execWriteSet (h : SHdr) (payload : List Byte) (s : State) : Host.Outcome State Fault Refusal :=
  .next (s.fragMsg h 4 payload (fun s x b =>
    s.syncRequest x 4 h.req h.sync (fun s =>
      match parseSet 16 b with
      | some (w :: ws) =>
        let (s, as, l) := s.writeSet (.session x.id) x.actor (w :: ws)
        (s, maxOf (as.map (·.status)), as.flatMap DictAns.bytes, l)
      | _ => (s, 3, [], []))))

/-- LOG_READ over Sedge (R380): 1 to 16 entries from a sequence number. -/
def execSedgeLogRead (h : SHdr) (first : W32) (n : Byte) (s : State) : Host.Outcome State Fault Refusal :=
  .next (s.sessionMsg h 5 (beBytes 4 first.toNat ++ [n]) (fun _ s =>
    if n = 0 ∨ 16 < n.toNat then (s, 3, [], [])
    else let (s, l) := s.readLog first.toNat n.toNat; (s, 0, l.flatMap LogRec.bytes, [])))

/-- May a session ask for a report of a scope (R349, R375)? -/
def Session.attests (x : Session) (scope : Nat) : Bool :=
  if scope = 0xFF then x.role == 4 && x.partMask == 0
  else (x.role == 2 || x.role == 4) && (x.partMask == 0 || bit x.partMask scope)

/-- ATTEST over Sedge (R342, R349). -/
def execSedgeAttest (h : SHdr) (scope : Byte) (nonce : BitVec 256) (s : State) : Host.Outcome State Fault Refusal :=
  .next (s.sessionMsg h 6 (scope :: leBytes 32 nonce.toNat) (fun x s =>
    if scope ≠ 0xFF ∧ 8 ≤ scope.toNat then (s, 3, [], [])
    else if !x.attests scope.toNat then (s.noteAccess 2, 2, [], [])
    else if s.fuses.decommissioned then (s, (Config.detail 3).toNat % 256, [], [])
    else (s, 0, s.report scope.toNat nonce, [])))

/-- The entries of an index range that a caller may reach, ascending, with type and rights: 1 read, 2 write, 4 cleared by its read (R380). -/
def State.dirBytes (s : State) (a : Actor) (lo hi : Nat) : List Byte :=
  let all := dictTable.flatMap (fun e => (upto e.idx e.span).flatMap (fun i => (upto e.sub e.subs).map (fun k => (i, k, e))))
  let mine := all.filter (fun r => decide (lo ≤ r.1) && decide (r.1 ≤ hi))
  mine.flatMap (fun r =>
    let role := if 0xF000 ≤ r.1 then a.role else a.roleAt r.2.2 r.1
    let rd := (s.barred a r.1 r.2.1 false).isNone
    let wr := (s.barred a r.1 r.2.1 true).isNone
    let rc := r.2.2.acc == .obsRc && role == 2
    if rd || wr then beBytes 2 r.1 ++ beBytes 1 r.2.1 ++ beBytes 1 r.2.2.ty.code ++ beBytes 1 (b2n rd + 2 * b2n wr + 4 * b2n rc) else [])

/-- DIR (R380). -/
def execDir (h : SHdr) (lo hi : W16) (s : State) : Host.Outcome State Fault Refusal :=
  .next (s.sessionMsg h 7 (beBytes 2 lo.toNat ++ beBytes 2 hi.toNat) (fun x s => (s, 0, s.dirBytes x.actor lo.toNat hi.toNat, [])))

/-- SUBSCRIBE (R380): sets the session's mask of event classes. -/
def execSubscribe (h : SHdr) (mask : W32) (s : State) : Host.Outcome State Fault Refusal :=
  .next (s.sessionMsg h 8 (beBytes 4 mask.toNat) (fun x s => (s.modSession x.id (fun y => { y with mask := mask }), 0, [], [])))

/-- EVENT_ACK (R380): the event of its REQ_ID is acknowledged. -/
def execEventAck (h : SHdr) (s : State) : Host.Outcome State Fault Refusal :=
  .next (s.sedgeIn h 9 (fun s => match s.accept h [] with
    | (s, none) => s
    | (s, some x) => s.modSession x.id (fun y => { y with events := y.events.filter (fun e => e.req != h.req) })))

/-- EVENT_RESEND (R380): 100 ms after it was sent an unacknowledged event is sent again, 8 times in all; then it is given up. -/
def execEventResend (id req : W32) (s : State) : Host.Outcome State Fault Refusal :=
  if !s.segmentUp then .next s
  else match s.session? id with
    | none => .next s
    | some x => match x.events.find? (fun e => e.req == req) with
      | none => .next s
      | some e =>
        if !s.past (some e.at_) (msCycles 100) then .next s
        else if 8 ≤ e.sends then .next (s.modSession id (fun y => { y with events := y.events.filter (fun g => g.req != req) }))
        else
          let again := fun (g : SEvent) => if g.req = req then { g with sends := g.sends + 1, at_ := s.timeBase } else g
          .next ((s.modSession id (fun y => { y with events := y.events.map again })).sendTo id 9 0 0 req e.entry.bytes)

/-! ### Handshakes (R369 to R371, R374) -/

/-- The principal that a key enrolled with a role is (R369), with its PART_MASK: 16 for the vendor test role under a firmware key. -/
def State.enrolled (s : State) (digest : BitVec 256) (role : Nat) : Option (Nat × Nat) :=
  if role = 5 then
    (if (digest == s.fuses.fwKey0 && !s.fuses.key0Revoked) || digest == s.fuses.fwKey1 then some (16, 0) else none)
  else if role = 0 ∨ 5 < role then none
  else ((List.range 16).find? (fun n => let v := s.get 0x1010 (n + 1); v % 2 ^ 256 == digest.toNat && bits v 263 256 == role)).map
    (fun n => (n, bits (s.get 0x1010 (n + 1)) 271 264))

/-- An identifier that no open session has and that is not 0. -/
def Sedge.freeId (x : Sedge) : Nat → W32 → W32
  | 0, k => k
  | n + 1, k => if k = 0 ∨ x.sessions.any (fun y => y.id == k) then x.freeId n (k + 1) else k

/-- Answers a HELLO (R370) of a principal with its payload and datagrams: ACCEPT carries a device random, the proposed SESSION_ID, the
ciphertext to the client's ephemeral key and the identity key's signature over the transcript through the ciphertext. The handshake is held
in place of any other of that principal. -/
def State.acceptHello (s : State) (h : SHdr) (n role : Nat) (b hello : List Byte) : State :=
  let (i, s) := s.draw
  let (j, s) := s.draw
  let pk := (b.drop 36).take 1793
  let ek := (b.drop 1836).take 1568
  let id := s.sedge.freeId 9 s.sedge.nextId
  let head := leBytes 32 (Config.random i).toNat ++ beBytes 4 id.toNat ++ padTo 1568 (Config.kemCipher ek (Config.random j))
  let msg : SedgeMsg := { type := 0x11, req := h.req.toNat }
  let sig := s.fuses.sign (hello ++ (msg.all (head ++ rep 1280 0)).flatten.take (48 + head.length))
  let k : Handshake := { principal := n, role := role, key := Config.shake pk, pk := pk, transcript := hello ++ (msg.all (head ++ sig)).flatten,
                         session := id, secret := Config.kemShared ek (Config.random j), at_ := s.timeBase, source := h.source }
  (s.modSedge (fun x => { x with pending := x.pending.filter (fun y => y.principal != n) ++ [k], nextId := id + 1 })).answerAnon h 0 0x11 0 (head ++ sig)

/-- HELLO (R368 to R370): a fragment of it; complete, its key must be enrolled with its role, or be a firmware key for vendor test. -/
def execHello (h : SHdr) (payload : List Byte) (s : State) : Host.Outcome State Fault Refusal :=
  .next (s.sedgeIn h 0x10 (fun s =>
    if h.session ≠ 0 then s.dropMsg 4
    else match s.gather h payload with
      | (s, none) => s
      | (s, some t) => match s.passAnon h.source true with
        | none => s.dropMsg 5
        | some s =>
          let b := whole t
          let role := fld b 0 1
          match s.enrolled (Config.shake ((b.drop 36).take 1793)) role with
          | none => s.dropMsg 6
          | some (n, _) =>
            if b.length ≠ 3404 ∨ s.fuses.decommissioned then s.dropMsg 6
            else s.acceptHello h n role b (spoken t)))

/-- The session least recently used of those that a test takes. -/
def lruSession (l : List Session) (p : Session → Bool) : Option Session :=
  (l.filter p).foldl (fun a x => match a with | none => some x | some y => if x.lastUse.toNat < y.lastUse.toNat then some x else some y) none

/-- Room for a ninth session (R374): the least recently used of the same principal gives way, else of a lower role; none where neither. -/
def State.makeRoom (s : State) (principal role : Nat) : Option State :=
  let l := s.sedge.sessions
  if l.length < 8 then some s
  else match lruSession l (fun x => x.principal == principal) with
    | some x => some (s.closeSession x.id)
    | none => (lruSession l (fun x => decide (x.role < role))).map (fun x => s.closeSession x.id)

/-- The session that a handshake opens with its last datagrams (R370, R371). -/
def State.opened (s : State) (k : Handshake) (confirm : List Byte) : Session :=
  let d := Config.shake512 (k.transcript ++ confirm)
  { id := k.session, source := k.source, principal := k.principal, role := k.role,
    partMask := if k.principal = 16 then 0 else bits (s.get 0x1010 (k.principal + 1)) 271 264,
    key := Config.kmac k.secret (leBytes 64 d.toNat ++ ascii "VG sedge"), pk := k.pk, lastUse := s.timeBase }

/-- CONFIRM (R368, R370, R371, R374): a fragment of it; complete, its signature over the transcript must verify under the HELLO key of the
pending handshake of its sender. The session opens with ESTABLISHED, or is refused with BUSY. -/
def execConfirm (h : SHdr) (payload : List Byte) (s : State) : Host.Outcome State Fault Refusal :=
  .next (s.sedgeIn h 0x12 (fun s =>
    if h.session ≠ 0 then s.dropMsg 4
    else match s.gather h payload with
      | (s, none) => s
      | (s, some t) => match s.passAnon h.source false with
        | none => s.dropMsg 5
        | some s => match s.sedge.pending.reverse.find? (fun k => k.source == h.source && !s.past (some k.at_) (msCycles 2000)) with
          | none => s.dropMsg 6
          | some k =>
            let s := s.modSedge (fun x => { x with pending := x.pending.filter (fun y => y != k) })
            if (whole t).length ≠ 1280 ∨ !verifies k.pk k.transcript (whole t) then s.dropMsg 6
            else match s.makeRoom k.principal k.role with
              | none => s.answerAnon h 0 0x13 4 []
              | some s =>
                let x := s.opened k (spoken t)
                (s.modSedge (fun y => { y with sessions := y.sessions ++ [x] })).sendTo k.session 0x13 1 0 h.req []))

/-- CLOSE (R374): either end closes a session at once. -/
def execClose (c : CloseBy) (s : State) : Host.Outcome State Fault Refusal :=
  match c with
  | .client h => .next (s.sedgeIn h 0x14 (fun s => match s.accept h [] with
    | (s, none) => s
    | (s, some x) => s.closeSession x.id))
  | .device id => if !s.segmentUp then .next s else .next ((s.sendTo id 0x14 0 0 0 []).closeSession id)

/-- HANDSHAKE_EXPIRE (R370): a pending handshake ends 2 s after its HELLO. -/
def execHandshakeExpire (principal : Fin 17) (s : State) : Host.Outcome State Fault Refusal :=
  .next (s.modSedge (fun x => { x with pending := x.pending.filter (fun k => !(k.principal == principal.val && s.past (some k.at_) (msCycles 2000))) }))

/-- SESSION_IDLE_EXPIRE (R374): a session with no accepted datagram for SESSION_IDLE is closed. -/
def execSessionIdleExpire (id : W32) (s : State) : Host.Outcome State Fault Refusal :=
  match s.session? id with
  | none => .next s
  | some x => if s.idled x then .next (s.closeSession id) else .next s

/-- FRAGMENT_EXPIRE (R366): an incomplete message is discarded 500 ms after its first fragment. -/
def execFragmentExpire (source : Nat) (req : W32) (s : State) : Host.Outcome State Fault Refusal :=
  let old := fun (f : Frag) => f.source == source && f.req == req && s.past (some f.at_) (msCycles 500)
  .next (s.modSedge (fun x => { x with frags := x.frags.filter (fun f => !old f) }))

/-! ### The segment (R362 to R364) -/

/-- FRAME_FCS_ERROR (R363): a frame with a bad check sequence is discarded and counted. -/
def execFrameFcsError (s : State) : Host.Outcome State Fault Refusal := if s.reeveRuns then .next (s.bump 0x1020 1) else .next s

/-- PLCA_STATUS_CHANGE (R363): while the status is not OK the device transmits under CSMA/CD, and each episode is counted. -/
def execPlcaStatusChange (ok : Bool) (s : State) : Host.Outcome State Fault Refusal :=
  if !s.reeveRuns ∨ s.sedge.plcaOk = ok then .next s
  else .next ((if ok then s else s.bump 0x1020 3).modSedge (fun x => { x with plcaOk := ok }))

/-- PLCA_ID_CONFLICT (R363): a collision in the device's own transmit opportunity is counted, and logged once per minute. -/
def execPlcaIdConflict (s : State) : Host.Outcome State Fault Refusal :=
  if !s.reeveRuns ∨ s.boardRec.nodeId = 255 then .next s
  else
    let s := s.bump 0x1020 2
    let quiet := match s.sedge.plcaLogged with | none => false | some t => !s.past (some t) (msCycles 60000)
    if quiet then .next s
    else .next ((s.logEvent 10 0x0190 none 0 0 []).modSedge (fun x => { x with plcaLogged := some s.timeBase }))

/-- ADDRESS_CONFLICT (R364): Duplicate Address Detection finds the address in use; the device stays silent. -/
def execAddressConflict (s : State) : Host.Outcome State Fault Refusal :=
  if !s.reeveRuns ∨ s.sedge.dad ≠ .running then .next s
  else .next ((s.modSedge (fun x => { x with dad := .duplicate })).logEvent 10 0x0191 none 0 0 [])

/-- DAD_COMPLETE (R364): no duplicate was found, and the device may send from its address. -/
def execDadComplete (s : State) : Host.Outcome State Fault Refusal :=
  if !s.reeveRuns ∨ s.sedge.dad ≠ .running then .next s else .next (s.modSedge (fun x => { x with dad := .usable }))

end Sys2Proof.Machine
end

