-- ==== Sys2Proof/Machine/Tap.lean ====
section
/-! DEFINITION. The test access port and boundary scan (R435 to R437). -/
namespace Sys2Proof.Machine

/-- The device's identification word (R435): stepping A1, part VG6144, manufacturer Brixlys. -/
def idcodeWord : W32 := 0x161445AF

/-- The data register that an instruction puts between TDI and TDO (R435, R437, entry 70). -/
inductive TapReg where
  | identification | bypass | boundary
  deriving DecidableEq, Repr

/-- The register an instruction selects (R435): an instruction that acts as BYPASS, and one that holds or floats the lands, the one-bit
bypass register; EXTEST and its like, and SAMPLE/PRELOAD, the boundary register. -/
def TapInstr.selects : TapInstr → TapReg
  | .idcode => .identification
  | .samplePreload | .extest | .extestPulse | .extestTrain => .boundary
  | .bypass | .clamp | .highz => .bypass

/-- How the cells of a segment cover their lands (R437): under 1149.1, AC-coupled under 1149.6, or observing alone. -/
inductive CellKind where
  | dc | ac | observe
  deriving DecidableEq, Repr

/-- The boundary register's segments from TDI to TDO: cells, coverage, those of the cells that observe alone (R437): straps and MGMT_P/N of
the first, and the whole of the last. -/
def boundarySegments : List (Nat × CellKind × Nat) :=
  [(30, .dc, 13), (36, .dc, 0), (9, .dc, 0), (33, .ac, 0), (108, .ac, 0), (832, .dc, 0), (832, .dc, 0), (108, .ac, 0), (33, .ac, 0), (9, .observe, 9)]

/-- Length in cells of a data register (R437). -/
def TapReg.cells : TapReg → Nat
  | .identification => 32
  | .bypass => 1
  | .boundary => sumOf (boundarySegments.map (·.1))

/-- The opcode of an instruction in the 8-bit instruction register (R435). -/
def TapInstr.opcode : TapInstr → Byte
  | .extest => 0x00 | .idcode => 0x01 | .samplePreload => 0x02 | .clamp => 0x04 | .highz => 0x05 | .extestPulse => 0x06 | .extestTrain => 0x07
  | .bypass => 0xFF
/-- Is an opcode private (R435)? -/
def privateOp (op : Byte) : Bool :=
  !([TapInstr.extest, .idcode, .samplePreload, .clamp, .highz, .extestPulse, .extestTrain, .bypass].any (fun i => i.opcode == op))

/-- Do the test port's instructions work (R428, R436): VDD_18 and VDD_MGMT, rails of steps 1 and 2, are in regulation? -/
def State.tapPower (s : State) : Bool := decide (2 ≤ s.rails)

/-- Loads an instruction that drives no land: every land belongs to the device (R436). -/
def State.tapLoad (s : State) (i : TapInstr) : State := { s with tap := { s.tap with ir := i, driving := false, hiz := false } }

/-- Loads an instruction that drives lands (R436): it takes effect only while RESET_N is asserted, and acts as BYPASS at any other time. -/
def State.tapDrive (s : State) (i : TapInstr) (drive hiz : Bool) : State :=
  if s.boot = .held then { s with tap := { s.tap with ir := i, driving := drive, hiz := hiz } } else s.tapLoad .bypass

/-- TAP_RESET (R435): test-logic reset loads IDCODE into the instruction register. -/
def execTapReset (s : State) : Host.Outcome State Fault Refusal := .next (s.tapLoad .idcode)

/-- EXTEST (R435, R436): the lands are driven from the boundary register. -/
def execExtest (s : State) : Host.Outcome State Fault Refusal :=
  if s.tapPower then .next (s.tapDrive .extest true false) else .next s

/-- IDCODE (R435, R436): the identification register is selected. -/
def execIdcode (s : State) : Host.Outcome State Fault Refusal :=
  if s.tapPower then .next (s.tapLoad .idcode) else .next s

/-- SAMPLE/PRELOAD (R436, R437): the lands are captured without disturbing them, and what TDI shifts in is preloaded. -/
def execSamplePreload (lands shifted : BitVec 2030) (s : State) : Host.Outcome State Fault Refusal :=
  if s.tapPower then
    let s := s.tapLoad .samplePreload
    .next { s with tap := { s.tap with captured := lands, cells := shifted } }
  else .next s

/-- CLAMP (R435, R436): the lands are held at the preloaded values. -/
def execClamp (s : State) : Host.Outcome State Fault Refusal :=
  if s.tapPower then .next (s.tapDrive .clamp true false) else .next s

/-- HIGHZ (R435, R436): the outputs are placed in high impedance. -/
def execHighz (s : State) : Host.Outcome State Fault Refusal :=
  if s.tapPower then .next (s.tapDrive .highz false true) else .next s

/-- EXTEST_PULSE (R435 to R437): the AC-coupled lanes are tested with a pulse from the boundary register. -/
def execExtestPulse (s : State) : Host.Outcome State Fault Refusal :=
  if s.tapPower then .next (s.tapDrive .extestPulse true false) else .next s

/-- EXTEST_TRAIN (R435 to R437): the AC-coupled lanes are tested with a train of pulses from the boundary register. -/
def execExtestTrain (s : State) : Host.Outcome State Fault Refusal :=
  if s.tapPower then .next (s.tapDrive .extestTrain true false) else .next s

/-- BYPASS (R435, R436): the one-bit bypass register is selected. A private opcode acts so outside VENDOR_TEST (R358). -/
def execBypass (op : Byte) (s : State) : Host.Outcome State Fault Refusal :=
  if !s.tapPower then .next s
  else if privateOp op ∧ s.get 0x1100 1 = 1 then .refused .privateOpcode
  else .next (s.tapLoad .bypass)

end Sys2Proof.Machine
end

