-- ==== Sys2Proof/Machine/Dispatch.lean ====
section
/-! DEFINITION. Dispatch: one arm per command, each one direct call of its meaning. -/
namespace Sys2Proof.Machine

/-- The effect of a command on everything but the queue. -/
def exec (i : Instr) (s : State) : Host.Outcome State Fault Refusal :=
  match i with
  | .nop r => Sys2Proof.Machine.execNop r s
  | .loop r e ctr bound len => Sys2Proof.Machine.execLoop r e ctr bound len s
  | .dmark r e => Sys2Proof.Machine.execDmark r e s
  | .fence r => Sys2Proof.Machine.execFence r s
  | .end_ r e => Sys2Proof.Machine.execEnd r e s
  | .setvl r imm => Sys2Proof.Machine.execSetvl r imm s
  | .note r imm => Sys2Proof.Machine.execNote r imm s
  | .csr r dst off => Sys2Proof.Machine.execCsr r dst off s
  | .csw r src off => Sys2Proof.Machine.execCsw r src off s
  | .sadd r dst a b => Sys2Proof.Machine.execSadd r dst a b s
  | .ssub r dst a b => Sys2Proof.Machine.execSsub r dst a b s
  | .smul r dst a b => Sys2Proof.Machine.execSmul r dst a b s
  | .sand r dst a b => Sys2Proof.Machine.execSand r dst a b s
  | .sor r dst a b => Sys2Proof.Machine.execSor r dst a b s
  | .sxor r dst a b => Sys2Proof.Machine.execSxor r dst a b s
  | .sshl r dst a b => Sys2Proof.Machine.execSshl r dst a b s
  | .sshr r dst a b => Sys2Proof.Machine.execSshr r dst a b s
  | .sli r dst imm => Sys2Proof.Machine.execSli r dst imm s
  | .ssel r dst a b c => Sys2Proof.Machine.execSsel r dst a b c s
  | .scmp r dst a b p => Sys2Proof.Machine.execScmp r dst a b p s
  | .smov r e dst src => Sys2Proof.Machine.execSmov r e dst src s
  | .aadd r e dst src imm => Sys2Proof.Machine.execAadd r e dst src imm s
  | .amad r e dst ctr stride => Sys2Proof.Machine.execAmad r e dst ctr stride s
  | .qpop r reg hi q => Sys2Proof.Machine.execQpop r reg hi q s
  | .qpopnb r reg hi q flag => Sys2Proof.Machine.execQpopnb r reg hi q flag s
  | .qpush r reg hi q => Sys2Proof.Machine.execQpush r reg hi q s
  | .qdrop r q => Sys2Proof.Machine.execQdrop r q s
  | .qpopm r ha q => Sys2Proof.Machine.execQpopm r ha q s
  | .qpushm r ha q => Sys2Proof.Machine.execQpushm r ha q s
  | .twaitf r ha n => Sys2Proof.Machine.execTwaitf r ha n s
  | .tsete r ha n => Sys2Proof.Machine.execTsete r ha n s
  | .tsetf r ha n => Sys2Proof.Machine.execTsetf r ha n s
  | .ctok r src => Sys2Proof.Machine.execCtok r src s
  | .fdld r d => Sys2Proof.Machine.execFdld r d s
  | .fdst r d => Sys2Proof.Machine.execFdst r d s
  | .fdmv r d => Sys2Proof.Machine.execFdmv r d s
  | .mres r ha f kblk => Sys2Proof.Machine.execMres r ha f kblk s
  | .mmac r ha acc fa fb kblk clear transp => Sys2Proof.Machine.execMmac r ha acc fa fb kblk clear transp s
  | .mout r acc => Sys2Proof.Machine.execMout r acc s
  | .msump r ha acc group => Sys2Proof.Machine.execMsump r ha acc group s
  | .mclr r acc => Sys2Proof.Machine.execMclr r acc s
  | .mcfg r ha acc thresh => Sys2Proof.Machine.execMcfg r ha acc thresh s
  | .vadd r o dst a b => Sys2Proof.Machine.execVadd r o dst a b s
  | .vsub r o dst a b => Sys2Proof.Machine.execVsub r o dst a b s
  | .vmul r o dst a b => Sys2Proof.Machine.execVmul r o dst a b s
  | .vfma r o dst a b c => Sys2Proof.Machine.execVfma r o dst a b c s
  | .vdiv r o dst a b => Sys2Proof.Machine.execVdiv r o dst a b s
  | .vsqrt r o dst a => Sys2Proof.Machine.execVsqrt r o dst a s
  | .vmax r o dst a b => Sys2Proof.Machine.execVmax r o dst a b s
  | .vmin r o dst a b => Sys2Proof.Machine.execVmin r o dst a b s
  | .vcvt r o dst a src => Sys2Proof.Machine.execVcvt r o dst a src s
  | .vcmp r o dst a b p => Sys2Proof.Machine.execVcmp r o dst a b p s
  | .vsel r o dst a b m => Sys2Proof.Machine.execVsel r o dst a b m s
  | .vbcast r o dst src => Sys2Proof.Machine.execVbcast r o dst src s
  | .vred r o dst a kind => Sys2Proof.Machine.execVred r o dst a kind s
  | .vstat r o dst a kind => Sys2Proof.Machine.execVstat r o dst a kind s
  | .vrand r dst draw base tensor => Sys2Proof.Machine.execVrand r dst draw base tensor s
  | .vexp r dst a => Sys2Proof.Machine.execVexp r dst a s
  | .vlog r dst a => Sys2Proof.Machine.execVlog r dst a s
  | .vrsqrt r dst a => Sys2Proof.Machine.execVrsqrt r dst a s
  | .vsigm r dst a => Sys2Proof.Machine.execVsigm r dst a s
  | .vtanh r dst a => Sys2Proof.Machine.execVtanh r dst a s
  | .vsmax r op => Sys2Proof.Machine.execVsmax r op s
  | .vperm r o dst a b => Sys2Proof.Machine.execVperm r o dst a b s
  | .vshuf r o dst a b p => Sys2Proof.Machine.execVshuf r o dst a b p s
  | .vpack r o dst a sc => Sys2Proof.Machine.execVpack r o dst a sc s
  | .vunpk r o dst a sc => Sys2Proof.Machine.execVunpk r o dst a sc s
  | .vld r reg ha off consume => Sys2Proof.Machine.execVld r reg ha off consume s
  | .vst r reg ha off => Sys2Proof.Machine.execVst r reg ha off s
  | .vtile r dst => Sys2Proof.Machine.execVtile r dst s
  | .firingStart reed => Sys2Proof.Machine.execFiringStart reed s
  | .operationComplete reed op => Sys2Proof.Machine.execOperationComplete reed op s
  | .fillWriteArrive n k => Sys2Proof.Machine.execFillWriteArrive n k s
  | .heldFillRelease u k => Sys2Proof.Machine.execHeldFillRelease u k s
  | .readRequestArrive n k host => Sys2Proof.Machine.execReadRequestArrive n k host s
  | .mergeGroupClose n g => Sys2Proof.Machine.execMergeGroupClose n g s
  | .readResponseArrive t k => Sys2Proof.Machine.execReadResponseArrive t k s
  | .mergedReadResponseArrive t k => Sys2Proof.Machine.execMergedReadResponseArrive t k s
  | .writeAckArrive n k => Sys2Proof.Machine.execWriteAckArrive n k s
  | .queueTokenArrive n k => Sys2Proof.Machine.execQueueTokenArrive n k s
  | .nullPacketArrive t k => Sys2Proof.Machine.execNullPacketArrive t k s
  | .trickleBatchArrive t k => Sys2Proof.Machine.execTrickleBatchArrive t k s
  | .trickleBatchClose t dest => Sys2Proof.Machine.execTrickleBatchClose t dest s
  | .queuePointer u wr wr2 rd rd2 => Sys2Proof.Machine.execQueuePointer u wr wr2 rd rd2 s
  | .sluicePair t p => Sys2Proof.Machine.execSluicePair t p s
  | .eccRetryRead l ok => Sys2Proof.Machine.execEccRetryRead l ok s
  | .memoryRetest l passed => Sys2Proof.Machine.execMemoryRetest l passed s
  | .scrubWord l f => Sys2Proof.Machine.execScrubWord l f s
  | .tileRereadDone u => Sys2Proof.Machine.execTileRereadDone u s
  | .hbmReread ix g idx ok => Sys2Proof.Machine.execHbmReread ix g idx ok s
  | .tierReadRetry xfer ds => Sys2Proof.Machine.execTierReadRetry xfer ds s
  | .atsTranslationCompletion q xfer base size granted write host => Sys2Proof.Machine.execAtsTranslationCompletion q xfer base size granted write host s
  | .pageResponse q group a => Sys2Proof.Machine.execPageResponse q group a s
  | .pageRequestLimit q group => Sys2Proof.Machine.execPageRequestLimit q group s
  | .atsInvalidation q tag base size => Sys2Proof.Machine.execAtsInvalidation q tag base size s
  | .atsInvalidationComplete q tag => Sys2Proof.Machine.execAtsInvalidationComplete q tag s
  | .streamSlotSend part chan unit d => Sys2Proof.Machine.execStreamSlotSend part chan unit d s
  | .resupplyLimit part idx => Sys2Proof.Machine.execResupplyLimit part idx s
  | .placementZeroingComplete ix => Sys2Proof.Machine.execPlacementZeroingComplete ix s
  | .meshPacketRoute plane t o => Sys2Proof.Machine.execMeshPacketRoute plane t o s
  | .flitReplay plane t o ok => Sys2Proof.Machine.execFlitReplay plane t o ok s
  | .stampAdvance a ix => Sys2Proof.Machine.execStampAdvance a ix s
  | .arbBackoffEnd a ix => Sys2Proof.Machine.execArbBackoffEnd a ix s
  | .rillRoute t o => Sys2Proof.Machine.execRillRoute t o s
  | .faultNotice n k => Sys2Proof.Machine.execFaultNotice n k s
  | .startToken part => Sys2Proof.Machine.execStartToken part s
  | .rillSnapshot => Sys2Proof.Machine.execRillSnapshot s
  | .broadcastApply t => Sys2Proof.Machine.execBroadcastApply t s
  | .armedNotice src k => Sys2Proof.Machine.execArmedNotice src k s
  | .mireVerdict src k => Sys2Proof.Machine.execMireVerdict src k s
  | .armVerdictTimeout => Sys2Proof.Machine.execArmVerdictTimeout s
  | .drainReport src k => Sys2Proof.Machine.execDrainReport src k s
  | .mireStartMessage src k => Sys2Proof.Machine.execMireStartMessage src k s
  | .opPointSettled => Sys2Proof.Machine.execOpPointSettled s
  | .mireTick => Sys2Proof.Machine.execMireTick s
  | .sectionLoadCommand f k => Sys2Proof.Machine.execSectionLoadCommand f k s
  | .rillControlToken n k => Sys2Proof.Machine.execRillControlToken n k s
  | .firingNotice f k => Sys2Proof.Machine.execFiringNotice f k s
  | .monitorRecord r => Sys2Proof.Machine.execMonitorRecord r s
  | .load c img seed => Sys2Proof.Machine.execLoad c img seed s
  | .verify part => Sys2Proof.Machine.execVerify part s
  | .prepare part us => Sys2Proof.Machine.execPrepare part us s
  | .commit part => Sys2Proof.Machine.execCommit part s
  | .sectionDrained part => Sys2Proof.Machine.execSectionDrained part s
  | .drainLimit part => Sys2Proof.Machine.execDrainLimit part s
  | .progressLimit part => Sys2Proof.Machine.execProgressLimit part s
  | .sumpContribution h k chk => Sys2Proof.Machine.execSumpContribution h k chk s
  | .sumpEfRefRead part group q => Sys2Proof.Machine.execSumpEfRefRead part group q s
  | .sumpPartial n k chk => Sys2Proof.Machine.execSumpPartial n k chk s
  | .sumpResult n k => Sys2Proof.Machine.execSumpResult n k s
  | .resendPartial n k => Sys2Proof.Machine.execResendPartial n k s
  | .resendResult n k => Sys2Proof.Machine.execResendResult n k s
  | .sumpLimit part group q => Sys2Proof.Machine.execSumpLimit part group q s
  | .mcReserve n k => Sys2Proof.Machine.execMcReserve n k s
  | .mcTargetReserve part group root seq => Sys2Proof.Machine.execMcTargetReserve part group root seq s
  | .mcGrant n k => Sys2Proof.Machine.execMcGrant n k s
  | .mcData n k => Sys2Proof.Machine.execMcData n k s
  | .mcLanded n k => Sys2Proof.Machine.execMcLanded n k s
  | .mcCommit n k => Sys2Proof.Machine.execMcCommit n k s
  | .mcAbort n k => Sys2Proof.Machine.execMcAbort n k s
  | .holdLimit h => Sys2Proof.Machine.execHoldLimit h s
  | .winPut n k => Sys2Proof.Machine.execWinPut n k s
  | .winAck n k => Sys2Proof.Machine.execWinAck n k s
  | .winClosed n k => Sys2Proof.Machine.execWinClosed n k s
  | .winOpen n k => Sys2Proof.Machine.execWinOpen n k s
  | .winClose n k => Sys2Proof.Machine.execWinClose n k s
  | .windowLimit xfer => Sys2Proof.Machine.execWindowLimit xfer s
  | .token n k => Sys2Proof.Machine.execToken n k s
  | .bulkPut n k => Sys2Proof.Machine.execBulkPut n k s
  | .ctrl n k => Sys2Proof.Machine.execCtrl n k s
  | .throttle n k => Sys2Proof.Machine.execThrottle n k s
  | .lodeFrameReceive n flits tagOk corrected uncorrectable => Sys2Proof.Machine.execLodeFrameReceive n flits tagOk corrected uncorrectable s
  | .lodeControlBlock n cb => Sys2Proof.Machine.execLodeControlBlock n cb s
  | .laneLockLoss n lane => Sys2Proof.Machine.execLaneLockLoss n lane s
  | .lodeFecRateCheck n => Sys2Proof.Machine.execLodeFecRateCheck n s
  | .lodeTraining n r => Sys2Proof.Machine.execLodeTraining n r s
  | .lodeHello n m => Sys2Proof.Machine.execLodeHello n m s
  | .lodeKemKey n msg sigOk => Sys2Proof.Machine.execLodeKemKey n msg sigOk s
  | .lodeKemCiphertext n msg sigOk => Sys2Proof.Machine.execLodeKemCiphertext n msg sigOk s
  | .lodeDone n tagOk switchSeq => Sys2Proof.Machine.execLodeDone n tagOk switchSeq s
  | .lodeHandshakeRetry n => Sys2Proof.Machine.execLodeHandshakeRetry n s
  | .lodeRekey n => Sys2Proof.Machine.execLodeRekey n s
  | .syncInEdge => Sys2Proof.Machine.execSyncInEdge s
  | .syncOutPulse => Sys2Proof.Machine.execSyncOutPulse s
  | .syncLost => Sys2Proof.Machine.execSyncLost s
  | .powerEstimate mw amps => Sys2Proof.Machine.execPowerEstimate mw amps s
  | .powerWindow islands fixed => Sys2Proof.Machine.execPowerWindow islands fixed s
  | .pmbusRead reg w => Sys2Proof.Machine.execPmbusRead reg w s
  | .pmbAlertN warning => Sys2Proof.Machine.execPmbAlertN warning s
  | .dipwellSample hot => Sys2Proof.Machine.execDipwellSample hot s
  | .emergencyClear temp => Sys2Proof.Machine.execEmergencyClear temp s
  | .stage2Throttle => Sys2Proof.Machine.execStage2Throttle s
  | .brakeNAssert => Sys2Proof.Machine.execBrakeNAssert s
  | .brakeNDeassert => Sys2Proof.Machine.execBrakeNDeassert s
  | .brakeHeld => Sys2Proof.Machine.execBrakeHeld s
  | .thermalTrip => Sys2Proof.Machine.execThermalTrip s
  | .droopDetected t => Sys2Proof.Machine.execDroopDetected t s
  | .voltageTrim margin => Sys2Proof.Machine.execVoltageTrim margin s
  | .clockGate u => Sys2Proof.Machine.execClockGate u s
  | .reeveWatchdog c => Sys2Proof.Machine.execReeveWatchdog c s
  | .mgmtUncorrectable c => Sys2Proof.Machine.execMgmtUncorrectable c s
  | .ccHeartbeat => Sys2Proof.Machine.execCcHeartbeat s
  | .fenHung f why => Sys2Proof.Machine.execFenHung f why s
  | .fenRecoveryStart f ok => Sys2Proof.Machine.execFenRecoveryStart f ok s
  | .fenSelfTestComplete f ok failed => Sys2Proof.Machine.execFenSelfTestComplete f ok failed s
  | .fenRecovered f ok => Sys2Proof.Machine.execFenRecovered f ok s
  | .rngReseed => Sys2Proof.Machine.execRngReseed s
  | .railApply step => Sys2Proof.Machine.execRailApply step s
  | .railOutOfRegulation step => Sys2Proof.Machine.execRailOutOfRegulation step s
  | .resetNAssert => Sys2Proof.Machine.execResetNAssert s
  | .resetNRelease nodeId straps => Sys2Proof.Machine.execResetNRelease nodeId straps s
  | .bootReeveStart f => Sys2Proof.Machine.execBootReeveStart f s
  | .ccFirmwareLoaded => Sys2Proof.Machine.execCcFirmwareLoaded s
  | .selfTestComplete failed => Sys2Proof.Machine.execSelfTestComplete failed s
  | .memoryTrainingComplete failed boardOk => Sys2Proof.Machine.execMemoryTrainingComplete failed boardOk s
  | .deviceReady us => Sys2Proof.Machine.execDeviceReady us s
  | .sysclkLoss => Sys2Proof.Machine.execSysclkLoss s
  | .lrefLoss g => Sys2Proof.Machine.execLrefLoss g s
  | .prefLoss q => Sys2Proof.Machine.execPrefLoss q s
  | .pcieLinkUp q rate width flit => Sys2Proof.Machine.execPcieLinkUp q rate width flit s
  | .perstNAssert q => Sys2Proof.Machine.execPerstNAssert q s
  | .linkDownTimeout q => Sys2Proof.Machine.execLinkDownTimeout q s
  | .functionLevelReset q => Sys2Proof.Machine.execFunctionLevelReset q s
  | .busMasterDisable q => Sys2Proof.Machine.execBusMasterDisable q s
  | .heartbeat q w => Sys2Proof.Machine.execHeartbeat q w s
  | .heartbeatTimeout q => Sys2Proof.Machine.execHeartbeatTimeout q s
  | .ringEnable q r ctl cmdBase cplBase => Sys2Proof.Machine.execRingEnable q r ctl cmdBase cplBase s
  | .ringDisable q r => Sys2Proof.Machine.execRingDisable q r s
  | .cmdTail q r v io => Sys2Proof.Machine.execCmdTail q r v io s
  | .cplHead q r v => Sys2Proof.Machine.execCplHead q r v s
  | .coalesceTimeout q r => Sys2Proof.Machine.execCoalesceTimeout q r s
  | .apertureRead q w off d => Sys2Proof.Machine.execApertureRead q w off d s
  | .apertureWrite q w x => Sys2Proof.Machine.execApertureWrite q w x s
  | .rcvWriteSlot q addr bytes slot img => Sys2Proof.Machine.execRcvWriteSlot q addr bytes slot img s
  | .rcvReset q => Sys2Proof.Machine.execRcvReset q s
  | .unloadDiscardStaged c => Sys2Proof.Machine.execUnloadDiscardStaged c s
  | .unloadStopRearm c => Sys2Proof.Machine.execUnloadStopRearm c s
  | .manifest c m => Sys2Proof.Machine.execManifest c m s
  | .place c => Sys2Proof.Machine.execPlace c s
  | .release c => Sys2Proof.Machine.execRelease c s
  | .hostRegionRegister c => Sys2Proof.Machine.execHostRegionRegister c s
  | .hostRegionUnregister c => Sys2Proof.Machine.execHostRegionUnregister c s
  | .windowOpen c => Sys2Proof.Machine.execWindowOpen c s
  | .windowClose c => Sys2Proof.Machine.execWindowClose c s
  | .resupply c d => Sys2Proof.Machine.execResupply c d s
  | .tileCopyToHost c ds => Sys2Proof.Machine.execTileCopyToHost c ds s
  | .tileCopyFromHost c ds => Sys2Proof.Machine.execTileCopyFromHost c ds s
  | .keyInstallSeal c blob => Sys2Proof.Machine.execKeyInstallSeal c blob s
  | .keyInstallOpen c blob => Sys2Proof.Machine.execKeyInstallOpen c blob s
  | .attest c => Sys2Proof.Machine.execAttest c s
  | .dict c ops => Sys2Proof.Machine.execDict c ops s
  | .dictWriteSet c ws => Sys2Proof.Machine.execDictWriteSet c ws s
  | .logRead c => Sys2Proof.Machine.execLogRead c s
  | .snapshot c => Sys2Proof.Machine.execSnapshot c s
  | .snapshotAndClear c => Sys2Proof.Machine.execSnapshotAndClear c s
  | .probeReedRegister c => Sys2Proof.Machine.execProbeReedRegister c s
  | .probeQueueHead c => Sys2Proof.Machine.execProbeQueueHead c s
  | .probeStreamContext c => Sys2Proof.Machine.execProbeStreamContext c s
  | .coreSample c => Sys2Proof.Machine.execCoreSample c s
  | .choiceReport c => Sys2Proof.Machine.execChoiceReport c s
  | .numericsRead c => Sys2Proof.Machine.execNumericsRead c s
  | .numericsRestore c buf => Sys2Proof.Machine.execNumericsRestore c buf s
  | .dictWrite c ix sub expect len value => Sys2Proof.Machine.execDictWrite c ix sub expect len value s
  | .capRequest c expect value => Sys2Proof.Machine.execCapRequest c expect value s
  | .snapshotCmd c expect value => Sys2Proof.Machine.execSnapshotCmd c expect value s
  | .snapshotCmdClear c expect value => Sys2Proof.Machine.execSnapshotCmdClear c expect value s
  | .svnCommit c expect value => Sys2Proof.Machine.execSvnCommit c expect value s
  | .deviceReset c expect value => Sys2Proof.Machine.execDeviceReset c expect value s
  | .fenRecover c expect value => Sys2Proof.Machine.execFenRecover c expect value s
  | .retestRequest c expect value => Sys2Proof.Machine.execRetestRequest c expect value s
  | .partRect c p expect value => Sys2Proof.Machine.execPartRect c p expect value s
  | .partitionDelete c p expect => Sys2Proof.Machine.execPartitionDelete c p expect s
  | .ownerHost c p expect value => Sys2Proof.Machine.execOwnerHost c p expect value s
  | .principal c n expect value => Sys2Proof.Machine.execPrincipal c n expect value s
  | .testChallenge c => Sys2Proof.Machine.execTestChallenge c s
  | .testUnlock c expect sig => Sys2Proof.Machine.execTestUnlock c expect sig s
  | .testChallengeExpire => Sys2Proof.Machine.execTestChallengeExpire s
  | .persistStore ok => Sys2Proof.Machine.execPersistStore ok s
  | .discover h => Sys2Proof.Machine.execDiscover h s
  | .read h ix sub => Sys2Proof.Machine.execRead h ix sub s
  | .write h payload => Sys2Proof.Machine.execWrite h payload s
  | .writeSet h payload => Sys2Proof.Machine.execWriteSet h payload s
  | .sedgeLogRead h first n => Sys2Proof.Machine.execSedgeLogRead h first n s
  | .sedgeAttest h scope nonce => Sys2Proof.Machine.execSedgeAttest h scope nonce s
  | .dir h lo hi => Sys2Proof.Machine.execDir h lo hi s
  | .subscribe h mask => Sys2Proof.Machine.execSubscribe h mask s
  | .eventAck h => Sys2Proof.Machine.execEventAck h s
  | .eventResend id req => Sys2Proof.Machine.execEventResend id req s
  | .hello h payload => Sys2Proof.Machine.execHello h payload s
  | .confirm h payload => Sys2Proof.Machine.execConfirm h payload s
  | .close c => Sys2Proof.Machine.execClose c s
  | .handshakeExpire principal => Sys2Proof.Machine.execHandshakeExpire principal s
  | .sessionIdleExpire id => Sys2Proof.Machine.execSessionIdleExpire id s
  | .fragmentExpire source req => Sys2Proof.Machine.execFragmentExpire source req s
  | .frameFcsError => Sys2Proof.Machine.execFrameFcsError s
  | .plcaStatusChange ok => Sys2Proof.Machine.execPlcaStatusChange ok s
  | .plcaIdConflict => Sys2Proof.Machine.execPlcaIdConflict s
  | .addressConflict => Sys2Proof.Machine.execAddressConflict s
  | .tapReset => Sys2Proof.Machine.execTapReset s
  | .extest => Sys2Proof.Machine.execExtest s
  | .idcode => Sys2Proof.Machine.execIdcode s
  | .samplePreload lands shifted => Sys2Proof.Machine.execSamplePreload lands shifted s
  | .clamp => Sys2Proof.Machine.execClamp s
  | .highz => Sys2Proof.Machine.execHighz s
  | .extestPulse => Sys2Proof.Machine.execExtestPulse s
  | .extestTrain => Sys2Proof.Machine.execExtestTrain s
  | .bypass op => Sys2Proof.Machine.execBypass op s
  | .reedCycle t => Sys2Proof.Machine.execReedCycle t s
  | .supplyRecovery t => Sys2Proof.Machine.execSupplyRecovery t s
  | .stage2Hold hold => Sys2Proof.Machine.execStage2Hold hold s
  | .lodeFrameTransmit n => Sys2Proof.Machine.execLodeFrameTransmit n s
  | .correctedWordWriteBack l => Sys2Proof.Machine.execCorrectedWordWriteBack l s
  | .dadComplete => Sys2Proof.Machine.execDadComplete s
  | .ccHeartbeatAnswer core => Sys2Proof.Machine.execCcHeartbeatAnswer core s
  | .snapshotCompleted => Sys2Proof.Machine.execSnapshotCompleted s
  | .intMask q w => Sys2Proof.Machine.execIntMask q w s
  | .msixVectorUnmask q v entry => Sys2Proof.Machine.execMsixVectorUnmask q v entry s
  | .hostReturn q k => Sys2Proof.Machine.execHostReturn q k s

end Sys2Proof.Machine
end

