-- ==== Sys2Proof/Machine/Tick.lean ====
section
/-! DEFINITION. What a mesh cycle does whatever is commanded (R54, R70, R74, R227, R280, R295, R336, R412): the step on an empty queue. -/
namespace Sys2Proof.Machine

/-- Do the clocks of the device run (R339, R412)? -/
def State.clocked (s : State) : Bool := s.boot != .held && !s.power.tripped

/-- WINDOW_WAIT (R295): the mesh cycles in which a contribution waited for the window. -/
def State.tickWindow (s : State) : State := if s.sump.any (fun h => !h.2.waits.isEmpty) then s.bump 0x7600 6 else s

/-- One mesh cycle (entry 1): the time base counts, section faults are told to hosts and mires, token buckets fill, the emergency's holds end, the ends of sections are noted, SYNC
moves, waits for the sump's window count. -/
def State.tick (s : State) : State :=
  if s.clocked then
    let s := ({ s with timeBase := s.timeBase + 1 }).tickBuckets.releaseHold
    let s := (List.range 8).foldl (fun s p => (((s.postFault p).noteEnd p).reportDrain p).issueStart p) s
    s.tickSync.tickWindow
  else s

end Sys2Proof.Machine
end

