-- ==== Sys2Proof/Safety.lean ====
section
/-! DEFINITION. The terms in which claims are stated: what a command leaves alone, when an instruction issues, what is safe. -/
namespace Sys2Proof.Machine

/-! ### Frames -/

/-- From s to t nothing has changed but one reed, and of the partitions at most their runs (where R408 notes the time of progress). -/
def State.OnlyReed (s t : State) (q : Nat) : Prop :=
  { t with reeds := s.reeds, parts := s.parts } = s ∧ (∀ p, p ≠ q → t.reed p = s.reed p) ∧
    ∀ p, { t.part p with run := (s.part p).run } = s.part p

/-- The same for an instruction that accesses banked memory: the arbiters, what counts their grants, and the banks in use may change too (R110,
R260). -/
def State.OnlyReedBanks (s t : State) (q : Nat) : Prop :=
  { t with reeds := s.reeds, parts := s.parts, arbs := s.arbs, dict := s.dict, tus := s.tus } = s ∧ (∀ p, p ≠ q → t.reed p = s.reed p) ∧
    (∀ p, { t.part p with run := (s.part p).run } = s.part p) ∧ ∀ u, { t.tus1 u with banks := (s.tus1 u).banks } = s.tus1 u

/-- Two states of a reed hold the same memories, tags, handles, queues, accumulators, banks, monitors and counters, and the same
fetch engine. -/
def Reed.SameStore (x y : Reed) : Prop :=
  y.spad = x.spad ∧ y.tags = x.tags ∧ y.handles = x.handles ∧ y.pmem = x.pmem ∧ y.qi = x.qi ∧ y.qo = x.qo ∧ y.acc = x.acc ∧
    y.banks = x.banks ∧ y.mon = x.mon ∧ y.idle = x.idle ∧ y.slack = x.slack ∧ y.fetch = x.fetch ∧ y.ops = x.ops ∧ y.hold = x.hold

/-- The registers of the reed register space that a program or a control core reads or writes are unchanged (R80). -/
def Reed.SameSpecial (x y : Reed) : Prop :=
  y.csCtl = x.csCtl ∧ y.dropped = x.dropped ∧ y.written = x.written ∧ y.threads = x.threads ∧ y.idleSnap = x.idleSnap ∧
    y.slackSnap = x.slackSnap ∧ y.snapTime = x.snapTime

/-- The execute engine may issue in this state: it is the context's turn (R83, R87, R92, R100) and nothing holds the instruction (R55, R93,
R337). -/
def State.Issues (s : State) (r : RR) (srcs : List Nat) : Prop :=
  (s.reed r.reed.val).canIssue r.ctx.val = true ∧ s.issueWait r srcs = none

/-- The word at the program counter of an engine of a reed is the instruction's encoding (R89, R90, R94). -/
def State.At (s : State) (r : RR) (e : Engine) (i : Instr) : Prop := (s.reed r.reed.val).names r e i = true

/-- The fetch engine issues (R94). -/
def State.Fetches (s : State) (r : RR) : Prop := (s.reed r.reed.val).fetchCan = true

/-- From s to t one reed has changed, and in it at most the registers of one context, the marks and where the sequencer stands: its store,
its special registers, its V registers and its other contexts are as they were. -/
def State.OnlyContext (s t : State) (r : RR) : Prop :=
  s.OnlyReed t r.reed.val ∧ Reed.SameStore (s.reed r.reed.val) (t.reed r.reed.val) ∧
    Reed.SameSpecial (s.reed r.reed.val) (t.reed r.reed.val) ∧ (t.reed r.reed.val).v = (s.reed r.reed.val).v ∧
    ∀ j, j ≠ r.ctx.val → (t.reed r.reed.val).context j = (s.reed r.reed.val).context j

/-- The instruction at the program counter, issued, writes one S register of its context and changes no other S, A or V register, nor VL, nor any store. -/
def State.WritesS (s : State) (r : RR) (i : Instr) (dst : Fin 16) (w : W32) : Prop :=
  s.At r .exec i → ∃ t, exec i s = .next t ∧ s.OnlyContext t r ∧ (t.ctxOf r).a = (s.ctxOf r).a ∧ (t.ctxOf r).vl = (s.ctxOf r).vl ∧
    ∀ j, (t.ctxOf r).getS j = if j = dst.val then w else (s.ctxOf r).getS j

/-- The instruction at the program counter, issued, writes one A register of its context's execute copy and nothing else. -/
def State.WritesA (s : State) (r : RR) (i : Instr) (dst : Fin 16) (w : W32) : Prop :=
  s.At r .exec i → ∃ t, exec i s = .next t ∧ s.OnlyContext t r ∧ (t.ctxOf r).s = (s.ctxOf r).s ∧ (t.ctxOf r).vl = (s.ctxOf r).vl ∧
    ∀ j, (t.ctxOf r).getA j = if j = dst.val then w else (s.ctxOf r).getA j

/-- The instruction at the fetch engine's program counter writes one A register of the fetch copy; the execute engine's registers and every store stay. -/
def State.FetchesA (s : State) (r : RR) (i : Instr) (dst : Fin 16) (w : W32) : Prop :=
  s.At r .fetch i → ∃ t, exec i s = .next t ∧ s.OnlyReed t r.reed.val ∧ (t.reed r.reed.val).ctx = (s.reed r.reed.val).ctx ∧
    (t.reed r.reed.val).v = (s.reed r.reed.val).v ∧ (t.reed r.reed.val).spad = (s.reed r.reed.val).spad ∧
    (t.reed r.reed.val).tags = (s.reed r.reed.val).tags ∧
    ∀ j, Tbl.lk 0 (t.reed r.reed.val).fetch.a j = if j = dst.val then w else Tbl.lk 0 (s.reed r.reed.val).fetch.a j

/-- No byte of a memory, no tag, no handle and no accumulator of any reed, tussock or stack, and no sealed tile, has changed. -/
def State.SameMemory (s t : State) : Prop :=
  (∀ q, (t.reed q).spad = (s.reed q).spad ∧ (t.reed q).tags = (s.reed q).tags ∧ (t.reed q).handles = (s.reed q).handles ∧
    (t.reed q).acc = (s.reed q).acc) ∧
    (∀ u, (t.tus1 u).pool = (s.tus1 u).pool ∧ (t.tus1 u).tags = (s.tus1 u).tags) ∧ (∀ i, (t.stack i).mem = (s.stack i).mem) ∧
    t.board = s.board

/-- Is a space one whose slots carry tags (R102, R218)? -/
def Space.tagged : Space → Bool
  | .spad _ | .pool _ => true
  | _ => false

/-- The arbiters of a memory's banks grant an access at a rank in this cycle, which leaves a state (R110). -/
def State.Grants (s : State) (sp : Space) (a len rank : Nat) (u : State) : Prop := s.bankAsk sp a len rank = .granted u

/-- The scalar registers of the context that issues are as they were: S, A, C and VL. -/
def State.SameScalars (s t : State) (r : RR) : Prop :=
  (t.ctxOf r).s = (s.ctxOf r).s ∧ (t.ctxOf r).a = (s.ctxOf r).a ∧ (t.ctxOf r).vl = (s.ctxOf r).vl

/-- The V registers of the reed are as they were, but for the physical registers named. -/
def State.SameVBut (s t : State) (r : RR) (l : List Nat) : Prop :=
  ∀ p, 64 + p ∉ l → Tbl.lk 0 (t.reed r.reed.val).v p = Tbl.lk 0 (s.reed r.reed.val).v p

/-- The operation an instruction leaves outstanding is the last of its reed's, with the registers its result goes to and the slots it writes
(R88, R93). -/
def State.AddsOp (s t : State) (r : RR) (kind : OpKind) (acks : Nat) (dst : List Nat) (wr : Option (Space × Nat × Nat) := none) : Prop :=
  (t.reed r.reed.val).ops = (s.reed r.reed.val).ops ++
    [{ id := (s.reed r.reed.val).nextOp, kind := kind, acks := acks, dst := dst, wr := wr }]

/-- The vector instruction at the program counter, issued, writes the lanes of DST below VL and clears those above (R182); it leaves its operation outstanding
and changes no other V register, no S or A register, nor VL, and no memory. -/
def State.WritesLanes (s : State) (r : RR) (i : Instr) (dst : Fin 32) (f : Fmt) (vl : Nat) (out : Nat → Nat) : Prop :=
  s.At r .exec i → ∃ t, exec i s = .next t ∧ s.OnlyReed t r.reed.val ∧
    (t.reed r.reed.val).lanes r.ctx.val dst.val f = (List.range (fmtLanes f)).map (fun n => if n < vl then out n % 2 ^ f.width else 0) ∧
    s.SameVBut t r (vSpecs (s.reed r.reed.val) r.ctx.val dst.val f) ∧ s.SameScalars t r ∧ s.SameMemory t ∧
    s.AddsOp t r .vector 0 (vSpecs (s.reed r.reed.val) r.ctx.val dst.val f)

/-- Element n of a V register in a format. -/
def State.elem (s : State) (r : RR) (i : Fin 32) (f : Fmt) (n : Nat) : Nat := ((s.reed r.reed.val).lanes r.ctx.val i.val f).getD n 0

/-- The state in which an issued matrix instruction stands in its engine's queue, before any effect (R149). -/
def State.entered (s : State) (r : RR) (k : MatKind) (fill : Nat) : State :=
  ((s.unfenced r).addOp r.reed.val .matrix 0 []).modReed r.reed.val
    (fun x => { x with matq := x.matq ++ [{ op := (s.reed r.reed.val).nextOp, kind := k, fill := fill }] })

/-- The section of a partition has faulted from s to t (R75): it no longer runs, no load of it is staged, the partition shows the cause,
and its reeds that ran are stopped. -/
def State.SectionFaulted (s t : State) (p : Nat) (c : SCause) : Prop :=
  (t.part p).run = none ∧ (t.part p).faulted = true ∧ (t.part p).staged = none ∧ t.get (0x5100 + p) 6 = c.code ∧
    ∀ r, (s.part p).run = some r → ∀ q, (s.reed q).status = .running → tusOf q ∈ r.sec.tussocks → (t.reed q).status = .stopped

/-- A counter of the dictionary has risen by n, modulo 2^w. -/
def State.Counts (s t : State) (i sub w n : Nat) : Prop := t.get i sub = (s.get i sub + n) % 2 ^ w

/-- A port takes a command of a ring now (R395, R397): its opcode is op and its RSVD bytes and bits are zero. -/
def State.Takes (s : State) (c : HCmd) (op : Nat) : Prop := s.takesCmd c.port.val c.ring.val = true ∧ c.opcode = op ∧ c.clean op = true

/-- A port takes a command of a partition that its host owns, and its buffers can be reached (R394, R397). -/
def State.TakesOwn (s : State) (c : HCmd) (op : Nat) : Prop := s.Takes c op ∧ c.part < 8 ∧ s.owns c = true ∧ c.dmaOk = true

/-- A host command is answered on its ring with a COMMAND_DONE entry of a status (R397, R398), where the ring has a free slot, no notice of
the ring waits and the command's completion is not discarded. -/
def State.Answers (s t : State) (c : HCmd) (status : Nat) (body : List (Nat × Nat × Nat)) : Prop :=
  (s.ring c.port.val c.ring.val).full = false → (s.port c.port.val).waitsFor c.ring.val = false →
    (s.ring c.port.val c.ring.val).discard.contains c.id = false →
    let x := s.ring c.port.val c.ring.val
    let e : Cpl := { type := 1, status := status, part := c.part, cmdId := c.id, body := cplBody body }
    Out.cpl c.port.val c.ring.val x.cplTail x.phase e (x.cplBase.toNat + 64 * x.cplTail) (e.bytes x.phase) ∈ t.out

/-! ### Lodes and the sump -/

/-- The k-th packet of a lode has been taken (R274). -/
def State.TakesPkt (s t : State) (n k : Nat) : Prop := (t.lode n).inbox = dropAt (s.lode n).inbox k

/-- Nothing has changed but the lodes: their buffers, their credits, their egress queues. -/
def State.LodesOnly (s t : State) : Prop := { t with lodes := s.lodes } = s

/-- A packet waits in the egress queue of its VC at the lode that its way picks, where there is one (R274, R277). -/
def State.Routed (s t : State) (g : Option Nat) (p : LPkt) : Prop :=
  ∀ i n, g = some i → s.pickLode i p.src p.dst p.target.toNat = some n →
    ∃ q, q ∈ Tbl.lk [] (t.lode n).egress p.vc ∧ { q with cls := p.cls, age := p.age } = p

/-- A packet goes one hop to a neighbour of a tree (R287, R292). -/
def State.HopSends (s t : State) (d : Nat) (p : LPkt) : Prop := s.Routed t (s.groupHop d [0, 1, 2]) p

/-- A packet goes toward its device (R277). -/
def State.SendsPkt (s t : State) (p : LPkt) : Prop := s.Routed t (s.groupTo p.dst) p

/-- The k-th packet of a lode, of a type, belongs to a running section of this device's configuration (R271). -/
def State.Traffic (s : State) (n k ptype : Nat) (x : LPkt) : Prop :=
  s.lodePkt n k = some x ∧ x.ptype = ptype ∧ (s.part x.dpart).run.isSome = true ∧ x.fp = s.fp x.dpart

/-- The k-th packet of a lode is a sump packet of a kind, of a bound group, with the section's fingerprint, epoch and step (R297, R306). -/
def State.SumpTraffic (s : State) (n k kind : Nat) (x : LPkt) (g : GroupDecl) (q : Nat) : Prop :=
  s.lodePkt n k = some x ∧ x.ptype = 16 ∧ bits x.target.toNat 31 29 = kind ∧ bits x.target.toNat 23 0 = q ∧ x.fp = s.fp x.dpart ∧
    (s.boundGroups x.dpart).find? (fun y => y.group == bits x.target.toNat 27 24) = some g ∧
    ∃ r, (s.part x.dpart).run = some r ∧ bits x.arg.toNat 31 29 = (s.sectEpoch r.sec).toNat ∧ bits x.arg.toNat 63 32 = r.step.toNat % 2 ^ 32

/-- No contribution waits above a window and no result is due in either half of the sump (R295, R298). -/
def State.SumpIdle (s : State) : Prop :=
  ∀ h, h < 2 → (s.sumpHalf h).waits = [] ∧ ∀ o, o ∈ (s.sumpHalf h).slots → o.due = false

/-- A contribution that is added: its CRC, its header, its epoch, its group and its tile in the window, fewer than the local contributions
of the tile but one, the first one's extent, its residue (R132, R134, R294, R295, R300). -/
def State.Adds (s : State) (w : SumpWait) (p : Nat) (g : GroupDecl) (q : Nat) : Prop :=
  let hd := TileHdr.ofTile w.tile
  let k := (s.slot? p g.group q).getD (s.newSlot p g q w.epoch)
  headerOk { hd with residue := 0, nonfinite := false } .fp32 false = true ∧ BitVec.ofNat 3 hd.epoch = s.epochOf w.reed ∧
    s.groupOfReed w.reed w.group = some (p, g) ∧ g.seqOf hd.tensor.toNat hd.row.toNat hd.col.toNat = some q ∧
    (s.groupRun p g.group).base ≤ q ∧ q < (s.groupRun p g.group).base + g.slots ∧ (s.groupRun p g.group).done.contains q = false ∧
    k.local_ + 1 < g.contrib ∧ (k.local_ ≠ 0 → k.rows = hd.vrows ∧ k.cols = hd.vcols) ∧
    residueOf (sumInts ((quadElems w.tile hd.vrows hd.vcols).map (fun e => accInt e.2))) = hd.residue

/-! ### Resets and hosts -/

/-- A reset has left what R412 keeps, the fuses, flash with its slots, log and records, and the test port, and nothing of the rest of the
device: no section, no partition, no port setting, no memory of any reed, tussock or stack. -/
def State.Cleared (s t : State) : Prop :=
  t.fuses = s.fuses ∧ t.slots = s.slots ∧ t.log.flash = s.log.flash ∧ t.log.ring = [] ∧ t.oosFlash = s.oosFlash ∧ t.oos = s.oosFlash ∧ t.tap = s.tap ∧
    t.sedge.copyA = s.sedge.copyA ∧ t.sedge.copyB = s.sedge.copyB ∧ t.sedge.sessions = [] ∧ t.reeds = [] ∧ t.tus = [] ∧ t.hbmStacks = [] ∧ t.board = [] ∧
    t.parts = [] ∧ t.ports = [] ∧ t.lodes = [] ∧ t.xfers = [] ∧ t.sump = [] ∧ t.mcasts = [] ∧ t.power = {}

/-- A host has been lost for a reason (R403): its port has its reset values, its rings are off, and every running section of its partitions
has faulted with HOST_LOST; host 1's partitions are host 0's. -/
def State.LosesHost (s t : State) (q : Nat) (k : LossKind) : Prop :=
  (t.port q).loss = [k] ∧ (t.port q).hbLimit = 0 ∧ (∀ r, (t.ring q r).enabled = false) ∧
    (∀ p, p < 8 → s.owner p = q → (t.part p).staged = none ∧ (t.part p).regions = [] ∧
      ((s.part p).run.isSome = true → s.SectionFaulted t p .hostLost)) ∧
    (∀ p, p < 8 → s.owner p ≠ q → (t.part p).run = (s.part p).run) ∧ (q = 1 → ∀ p, p < 8 → s.owner p = 1 → t.owner p = 0)

/-- An entry of the dictionary whose accepted write does nothing beside setting it (R379): none of those with an action of their own. -/
def plainEntry (i sub : Nat) : Bool :=
  !(i == 0x2000 && sub == 1) && i != 0x1100 && i != 0x1010 && !(decide (0x5100 ≤ i) && decide (i < 0x5108)) && i != 0x6010 && i != 0x6020 && i != 0x6050
    && i != 0x7000 && decide (i < 0xF000)

/-- A caller's write of an entry passes every check of R379 while the reeve runs: the caller's rights, the length, the range, EXPECT, BUSY. -/
def State.Writes (s : State) (c : Caller) (i sub : Nat) (expect : W32) (len value : Nat) : Prop :=
  s.reeveRuns = true ∧ ∃ a, s.actor c = some a ∧ s.writeStatus a { idx := i, sub := sub, expect := expect, len := len, value := value } = 0

/-- A caller's write is answered with SUCCESS (R379) and the count of its index has risen. -/
def State.Wrote (s t : State) (c : Caller) (i : Nat) : Prop :=
  t.changeCount i = s.changeCount i + 1 ∧ ∃ v, Out.dict c 0 [v] ∈ t.out ∧ v.status = 0 ∧ v.idx = i

/-! ### Sedge -/

/-- A datagram of a TYPE comes to the device on the segment (R361, R364, R365). -/
def State.Hits (s : State) (h : SHdr) (type : Nat) : Prop := s.segmentUp = true ∧ s.addressed h type = true ∧ h.type.toNat = type

/-- A datagram of an open session, of a TYPE and with a payload, is accepted (R364, R368, R371, R372): addressed to the device, of a session
that has not idled out, with its TAG and a fresh count. -/
def State.Hears (s : State) (h : SHdr) (type : Nat) (payload : List Byte) (x : Session) : Prop :=
  s.Hits h type ∧ h.session ≠ 0 ∧ s.session? h.session = some x ∧ s.idled x = false ∧ h.tag = sedgeTag x.rxKey (h.bytes payload) ∧
    x.rxHigh < h.counter.toNat + 64 ∧ h.counter ≠ 0 ∧ x.rxSeen.contains h.counter.toNat = false ∧ h.counter.toNat ≤ 2 ^ 63

/-- A request of an open session is new (R373): not one that awaits a store, that is cached, or that lies below the highest. -/
def State.Asks (s : State) (h : SHdr) (type : Nat) (payload : List Byte) (x : Session) : Prop :=
  s.Hears h type payload x ∧ s.waitsSync x.id h.req = false ∧ x.cache.find? (fun c => c.req == h.req) = none ∧ x.highReq ≤ h.req.toNat

/-- The session's counts allow a message of a payload (R372). -/
def Session.canSend (x : Session) (payload : List Byte) : Prop := x.txCount + Nat.min 16 (sedgeCount payload) ≤ 2 ^ 63 + 1

/-! ### Safety -/

/-- Every byte-addressed memory is in its canonical form. -/
def State.memWf (s : State) : Prop :=
  (∀ r, (s.reed r).spad.wf = true) ∧ (∀ t, (s.tus1 t).pool.wf = true) ∧ ∀ i, (s.stack i).mem.wf = true

/-- No land is driven or floated by boundary scan, and no such instruction is current, but while RESET_N is asserted (R436). -/
def State.scanSafe (s : State) : Prop := (s.tap.ir.drives = true ∨ s.tap.driving = true ∨ s.tap.hiz = true) → s.boot = .held

/-- The device leaves RESET_N only with every rail in regulation (R412, R428). -/
def State.railsSafe (s : State) : Prop := s.boot ≠ .held → s.rails = 4

/-- What one-time programming may do to the fuse bank (R342, R346, R349): bits are set and never cleared, and the rest stays. -/
def Fuses.Grows (a b : Fuses) : Prop :=
  b.secret = a.secret ∧ b.rootKey = a.rootKey ∧ b.fwKey0 = a.fwKey0 ∧ b.fwKey1 = a.fwKey1 ∧ b.serial = a.serial ∧
    (a.key0Revoked = true → b.key0Revoked = true) ∧ (a.decommissioned = true → b.decommissioned = true) ∧
    a.svnReeve &&& b.svnReeve = a.svnReeve ∧ a.svnCc &&& b.svnCc = a.svnCc

end Sys2Proof.Machine
end

