-- ==== Sys2Proof/WellFormed.lean ====
section
/-! DEFINITION. Which commands are well formed: the ranges of operands whose Lean type is wider than the field the manual gives (R79, R82,
R89 to R91, R114, R181, R184). The check of a program at PREPARE refuses the same instruction words, so that no run meets them. -/
namespace Sys2Proof.Machine

/-- The SLOTS and KBLK fields (R89): 1 to 4,095. -/
def slotCount (n : Nat) : Bool := decide (1 ≤ n) && decide (n ≤ 4095)

/-- The offsets that CSR may name (R80, R82): a listed register, or the upper half of one of 64 bits. -/
def csrOffset (o : Nat) : Bool :=
  let wide := o < 0x10 || (decide (0x28 ≤ o) && decide (o < 0x30)) || (decide (0x40 ≤ o) && decide (o < 0xC0)) || (decide (0x100 ≤ o) && decide (o < 0x190))
  o % 4 == 0 && (wide || o == 0x10 || o == 0x18 || o == 0x20)

/-- Formats of vector lanes (R179, R180). -/
def laneFmts : List Fmt := [.fp64, .fp32, .bf16, .fp16, .int32, .idx32]
/-- Formats of the instructions that move lanes. -/
def moveFmts : List Fmt := laneFmts ++ [.e5m2, .e4m3, .int8]
/-- Narrow formats of VPACK and VUNPK. -/
def narrowFmts : List Fmt := [.e5m2, .e4m3, .e3m2, .e2m3, .e2m1, .int8, .int4]
/-- A matrix format of integers (R136). -/
def intMatrix (f : Fmt) : Bool := f == .int8 || f == .int4

/-- No rounding is asked for and no monitor bound. -/
def VOpt.plain (o : VOpt) : Bool := o.rnd == .near && o.sr == 0 && o.mon.isNone
/-- RND may be stochastic on no integer or FP64 target, and SR_OPERAND serves stochastic rounding alone (R184). -/
def VOpt.rounds (o : VOpt) : Bool :=
  (o.rnd != .stoch || !([Fmt.fp64, .int32, .idx32].contains o.fmt)) && (o.rnd == .stoch || o.sr == 0)
/-- A lane operation over integers too, which rounds only floating point. -/
def VOpt.arith (o : VOpt) (rounding : Bool) : Bool :=
  laneFmts.contains o.fmt && o.mon.isNone && o.rounds && (o.rnd == .near || (rounding && o.fmt != .int32 && o.fmt != .idx32))
/-- A rounded operation on floating-point lanes. -/
def VOpt.float (o : VOpt) : Bool := [Fmt.fp64, .fp32, .bf16, .fp16].contains o.fmt && o.mon.isNone && o.rounds
/-- The registers of an FP64 operation are even (R180). -/
def VOpt.pairs (o : VOpt) (l : List (Fin 32)) : Bool := o.fmt != .fp64 || l.all (fun i => i.val % 2 == 0)

/-- A word that the memory has (R21, R23, R114, R140): 4,096 of a scratchpad, 65,536 of a pool, 1,024 of the accumulators. -/
def EccLoc.wf : EccLoc → Bool
  | .spad _ w => decide (w < 4096)
  | .pool _ w => decide (w < 65536)
  | .acc _ w => decide (w < 1024)
/-- A datagram of a message: its TYPE is the message's, or a reserved one (R367); its sender has an IPv6 address. -/
def SHdr.wf (h : SHdr) (type : Nat) : Bool := (h.type.toNat == type || !listedType h.type.toNat) && decide (h.source < 2 ^ 128)
/-- A command entry of 64 bytes: its opcode is reserved (R14), or a row's with the bits of one byte that tell rows of one opcode apart (R397). -/
def HCmd.wf (c : HCmd) (op off mask val : Nat) : Bool :=
  let o := (c.entry.getD 0 0).toNat
  c.entry.length == 64 && (o == 0 || decide (0x13 < o) || (o == op && ((c.entry.getD off 0).toNat &&& mask) == val))
/-- A word, or one of the 49,152 regions of 1 MiB of a stack (R216, R236). -/
def RetestLoc.wf : RetestLoc → Bool
  | .word l => l.wf
  | .hbmRegion _ r => decide (r < 49152)

end Sys2Proof.Machine

namespace Sys2Proof
open Machine

/-- Is a command well formed? -/
def Instr.wf : Instr → Bool
  | .nop _ => true
  | .loop _ _ _ _ len => decide (1 ≤ len) && decide (len ≤ 2044)
  | .dmark _ _ => true
  | .fence _ => true
  | .end_ _ _ => true
  | .setvl _ imm => decide (1 ≤ imm.toNat) && decide (imm.toNat ≤ 128)
  | .note _ _ => true
  | .csr _ _ off => csrOffset off.toNat
  | .csw _ _ off => off == 0x020
  | .sadd _ _ _ _ => true
  | .ssub _ _ _ _ => true
  | .smul _ _ _ _ => true
  | .sand _ _ _ _ => true
  | .sor _ _ _ _ => true
  | .sxor _ _ _ _ => true
  | .sshl _ _ _ _ => true
  | .sshr _ _ _ _ => true
  | .sli _ _ _ => true
  | .ssel _ _ _ _ _ => true
  | .scmp _ _ _ _ _ => true
  | .smov _ _ _ _ => true
  | .aadd _ _ _ _ _ => true
  | .amad _ _ _ _ _ => true
  | .qpop _ _ _ _ => true
  | .qpopnb _ _ _ _ _ => true
  | .qpush _ _ _ _ => true
  | .qdrop _ _ => true
  | .qpopm _ _ _ => true
  | .qpushm _ _ _ => true
  | .twaitf _ _ n => slotCount n
  | .tsete _ _ n => slotCount n
  | .tsetf _ _ n => slotCount n
  | .ctok _ _ => true
  | .fdld _ d => slotCount d.slots
  | .fdst _ d => slotCount d.slots
  | .fdmv _ d => slotCount d.slots
  | .mres _ _ f kblk => f.tBlk.isSome && slotCount kblk && kblk % f.kPerTile false == 0
  | .mmac _ _ _ fa fb kblk _ transp => fa.tBlk.isSome && fb.tBlk.isSome && slotCount kblk && (intMatrix fa == intMatrix fb) && !(transp && fa.width == 16) && decide (0 < fa.kPerTile transp) && kblk % fa.kPerTile transp == 0
  | .mout _ _ => true
  | .msump _ _ _ _ => true
  | .mclr _ _ => true
  | .mcfg _ _ _ _ => true
  | .vadd _ o dst a b => o.arith true && o.pairs [dst, a, b]
  | .vsub _ o dst a b => o.arith true && o.pairs [dst, a, b]
  | .vmul _ o dst a b => o.arith true && o.pairs [dst, a, b]
  | .vfma _ o dst a b c => o.float && o.pairs [dst, a, b, c]
  | .vdiv _ o dst a b => o.float && o.pairs [dst, a, b]
  | .vsqrt _ o dst a => o.float && o.pairs [dst, a]
  | .vmax _ o dst a b => o.arith false && o.pairs [dst, a, b]
  | .vmin _ o dst a b => o.arith false && o.pairs [dst, a, b]
  | .vcvt _ o dst _ src => laneFmts.contains o.fmt && laneFmts.contains src && src != o.fmt && o.rounds && o.pairs [dst]
  | .vcmp _ o dst a b _ => laneFmts.contains o.fmt && o.plain && o.pairs [dst, a, b]
  | .vsel _ o dst a b m => moveFmts.contains o.fmt && o.plain && o.pairs [dst, a, b, m]
  | .vbcast _ o _ _ => laneFmts.contains o.fmt && o.fmt != .fp64 && o.plain
  | .vred _ o _ _ _ => [Fmt.fp32, .bf16, .fp16].contains o.fmt && o.rnd == .near && o.sr == 0
  | .vstat _ o _ _ kind => [Fmt.fp32, .bf16, .fp16].contains o.fmt && o.rnd == .near && (o.mon.isNone || kind == .accum)
  | .vrand _ _ _ _ _ => true
  | .vexp _ _ _ => true
  | .vlog _ _ _ => true
  | .vrsqrt _ _ _ => true
  | .vsigm _ _ _ => true
  | .vtanh _ _ _ => true
  | .vsmax _ _ => true
  | .vperm _ o _ _ _ => moveFmts.contains o.fmt && o.fmt != .fp64 && o.plain
  | .vshuf _ o _ _ _ _ => moveFmts.contains o.fmt && o.fmt != .fp64 && o.plain
  | .vpack _ o _ a _ => narrowFmts.contains o.fmt && a.val % 4 == 0 && o.sr == 0 && (o.rnd != .stoch || !([Fmt.int8, .int4].contains o.fmt))
  | .vunpk _ o dst _ _ => narrowFmts.contains o.fmt && dst.val % 4 == 0 && o.plain
  | .vld _ _ _ _ _ => true
  | .vst _ _ _ _ => true
  | .vtile _ _ => true
  | .firingStart _ => true
  | .operationComplete _ _ => true
  | .fillWriteArrive _ _ => true
  | .heldFillRelease _ _ => true
  | .readRequestArrive _ _ _ => true
  | .mergeGroupClose _ _ => true
  | .readResponseArrive _ _ => true
  | .mergedReadResponseArrive _ _ => true
  | .writeAckArrive _ _ => true
  | .queueTokenArrive _ _ => true
  | .nullPacketArrive _ _ => true
  | .trickleBatchArrive _ _ => true
  | .trickleBatchClose _ _ => true
  | .queuePointer _ _ _ _ _ => true
  | .sluicePair _ _ => true
  | .eccRetryRead l _ => l.wf
  | .memoryRetest l _ => l.wf
  | .scrubWord l _ => l.wf
  | .tileRereadDone _ => true
  | .hbmReread _ _ _ _ => true
  | .tierReadRetry _ _ => true
  | .atsTranslationCompletion _ _ _ _ _ _ _ => true
  | .pageResponse _ _ _ => true
  | .pageRequestLimit _ _ => true
  | .atsInvalidation _ _ _ _ => true
  | .atsInvalidationComplete _ _ => true
  | .streamSlotSend _ _ _ _ => true
  | .resupplyLimit _ _ => true
  | .placementZeroingComplete _ => true
  | .meshPacketRoute _ _ _ => true
  | .flitReplay _ _ _ _ => true
  | .stampAdvance _ _ => true
  | .arbBackoffEnd _ _ => true
  | .rillRoute _ _ => true
  | .faultNotice _ _ => true
  | .startToken _ => true
  | .rillSnapshot => true
  | .broadcastApply _ => true
  | .armedNotice _ _ => true
  | .mireVerdict _ _ => true
  | .armVerdictTimeout => true
  | .drainReport _ _ => true
  | .mireStartMessage _ _ => true
  | .opPointSettled => true
  | .mireTick => true
  | .sectionLoadCommand _ _ => true
  | .rillControlToken _ _ => true
  | .firingNotice _ _ => true
  | .monitorRecord _ => true
  | .load c _ _ => c.wf 0x01 0 0 0
  | .verify _ => true
  | .prepare _ _ => true
  | .commit _ => true
  | .sectionDrained _ => true
  | .drainLimit _ => true
  | .progressLimit _ => true
  | .sumpContribution _ _ _ => true
  | .sumpEfRefRead _ _ _ => true
  | .sumpPartial _ _ _ => true
  | .sumpResult _ _ => true
  | .resendPartial _ _ => true
  | .resendResult _ _ => true
  | .sumpLimit _ _ _ => true
  | .mcReserve _ _ => true
  | .mcTargetReserve _ _ _ _ => true
  | .mcGrant _ _ => true
  | .mcData _ _ => true
  | .mcLanded _ _ => true
  | .mcCommit _ _ => true
  | .mcAbort _ _ => true
  | .holdLimit _ => true
  | .winPut _ _ => true
  | .winAck _ _ => true
  | .winClosed _ _ => true
  | .winOpen _ _ => true
  | .winClose _ _ => true
  | .windowLimit _ => true
  | .token _ _ => true
  | .bulkPut _ _ => true
  | .ctrl _ _ => true
  | .throttle _ _ => true
  | .lodeFrameReceive _ flits _ _ _ => decide (flits.length ≤ 17)
  | .lodeControlBlock _ _ => true
  | .laneLockLoss _ _ => true
  | .lodeFecRateCheck _ => true
  | .lodeTraining _ _ => true
  | .lodeHello _ _ => true
  | .lodeKemKey _ _ _ => true
  | .lodeKemCiphertext _ _ _ => true
  | .lodeDone _ _ _ => true
  | .lodeHandshakeRetry _ => true
  | .lodeRekey _ => true
  | .syncInEdge => true
  | .syncOutPulse => true
  | .syncLost => true
  | .powerEstimate _ _ => true
  | .powerWindow _ _ => true
  | .pmbusRead _ _ => true
  | .pmbAlertN _ => true
  | .dipwellSample _ => true
  | .emergencyClear _ => true
  | .stage2Throttle => true
  | .brakeNAssert => true
  | .brakeNDeassert => true
  | .brakeHeld => true
  | .thermalTrip => true
  | .droopDetected _ => true
  | .voltageTrim _ => true
  | .clockGate _ => true
  | .reeveWatchdog _ => true
  | .mgmtUncorrectable _ => true
  | .ccHeartbeat => true
  | .fenHung _ _ => true
  | .fenRecoveryStart _ _ => true
  | .fenSelfTestComplete _ _ _ => true
  | .fenRecovered _ _ => true
  | .rngReseed => true
  | .railApply _ => true
  | .railOutOfRegulation _ => true
  | .resetNAssert => true
  | .resetNRelease _ _ => true
  | .bootReeveStart _ => true
  | .ccFirmwareLoaded => true
  | .selfTestComplete _ => true
  | .memoryTrainingComplete _ _ => true
  | .deviceReady _ => true
  | .sysclkLoss => true
  | .lrefLoss _ => true
  | .prefLoss _ => true
  | .pcieLinkUp _ _ _ _ => true
  | .perstNAssert _ => true
  | .linkDownTimeout _ => true
  | .functionLevelReset _ => true
  | .busMasterDisable _ => true
  | .heartbeat _ _ => true
  | .heartbeatTimeout _ => true
  | .ringEnable _ _ _ _ _ => true
  | .ringDisable _ _ => true
  | .cmdTail _ _ _ _ => true
  | .cplHead _ _ _ => true
  | .coalesceTimeout _ _ => true
  | .apertureRead _ _ _ _ => true
  | .apertureWrite _ _ _ => true
  | .rcvWriteSlot _ _ _ _ _ => true
  | .rcvReset _ => true
  | .unloadDiscardStaged c => c.wf 0x02 8 1 1
  | .unloadStopRearm c => c.wf 0x02 8 2 2
  | .manifest c _ => c.wf 0x03 0 0 0
  | .place c => c.wf 0x04 0 0 0
  | .release c => c.wf 0x05 0 0 0
  | .hostRegionRegister c => c.wf 0x06 9 1 1
  | .hostRegionUnregister c => c.wf 0x06 9 1 0
  | .windowOpen c => c.wf 0x07 9 1 1
  | .windowClose c => c.wf 0x07 9 1 0
  | .resupply c _ => c.wf 0x08 0 0 0
  | .tileCopyToHost c _ => c.wf 0x09 20 1 1
  | .tileCopyFromHost c _ => c.wf 0x09 20 1 0
  | .keyInstallSeal c _ => c.wf 0x0A 8 1 0
  | .keyInstallOpen c _ => c.wf 0x0A 8 1 1
  | .attest c => c.wf 0x0B 0 0 0
  | .dict c _ => c.wf 0x0C 9 1 0
  | .dictWriteSet c _ => c.wf 0x0C 9 1 1
  | .logRead c => c.wf 0x0D 0 0 0
  | .snapshot c => c.wf 0x0E 11 128 0
  | .snapshotAndClear c => c.wf 0x0E 11 128 128
  | .probeReedRegister c => c.wf 0x0F 8 3 0
  | .probeQueueHead c => c.wf 0x0F 8 3 1
  | .probeStreamContext c => c.wf 0x0F 8 3 2
  | .coreSample c => c.wf 0x10 0 0 0
  | .choiceReport c => c.wf 0x11 0 0 0
  | .numericsRead c => c.wf 0x12 0 0 0
  | .numericsRestore c _ => c.wf 0x13 0 0 0
  | .dictWrite _ i sub _ _ _ => decide (i < 65536) && decide (sub < 256)
  | .capRequest _ _ _ => true
  | .snapshotCmd _ _ _ => true
  | .snapshotCmdClear _ _ _ => true
  | .svnCommit _ _ _ => true
  | .deviceReset _ _ _ => true
  | .fenRecover _ _ _ => true
  | .retestRequest _ _ _ => true
  | .partRect _ _ _ _ => true
  | .partitionDelete _ _ _ => true
  | .ownerHost _ _ _ _ => true
  | .principal _ _ _ _ => true
  | .testChallenge _ => true
  | .testUnlock _ _ _ => true
  | .testChallengeExpire => true
  | .persistStore _ => true
  | .discover h => h.wf 1
  | .read h _ _ => h.wf 2
  | .write h b => h.wf 3 && decide (b.length ≤ 1192)
  | .writeSet h b => h.wf 4 && decide (b.length ≤ 1192)
  | .sedgeLogRead h _ _ => h.wf 5
  | .sedgeAttest h _ _ => h.wf 6
  | .dir h _ _ => h.wf 7
  | .subscribe h _ => h.wf 8
  | .eventAck h => h.wf 9
  | .eventResend _ _ => true
  | .hello h b => h.wf 0x10 && decide (b.length ≤ 1192)
  | .confirm h b => h.wf 0x12 && decide (b.length ≤ 1192)
  | .close (.client h) => h.wf 0x14
  | .close (.device _) => true
  | .handshakeExpire _ => true
  | .sessionIdleExpire _ => true
  | .fragmentExpire _ _ => true
  | .frameFcsError => true
  | .plcaStatusChange _ => true
  | .plcaIdConflict => true
  | .addressConflict => true
  | .tapReset => true
  | .extest => true
  | .idcode => true
  | .samplePreload _ _ => true
  | .clamp => true
  | .highz => true
  | .extestPulse => true
  | .extestTrain => true
  | .bypass op => op == 0xFF || !(List.contains [0x00, 0x01, 0x02, 0x04, 0x05, 0x06, 0x07] op.toNat)
  | .reedCycle _ => true
  | .supplyRecovery _ => true
  | .stage2Hold _ => true
  | .lodeFrameTransmit _ => true
  | .correctedWordWriteBack l => l.wf
  | .dadComplete => true
  | .ccHeartbeatAnswer _ => true
  | .snapshotCompleted => true
  | .intMask _ _ => true
  | .msixVectorUnmask _ _ _ => true
  | .hostReturn _ _ => true

end Sys2Proof
end

