-- ==== Sys2Proof/Certificates/Slice0/Obligations.lean ====
section
/-! DEFINITION. The statements for the provers. -/
open Sys2Proof Sys2Proof.Machine

/-! ### The reed's scalar instructions (R78, R82, R90, R94, R95, R440) -/

/-- R90, R440: each integer instruction that stands at the program counter and issues writes its result to DST and changes nothing else: sums, differences and products
modulo 2^32, bitwise operations, shifts by SRC2[4:0], the selection, the comparison as 1 or 0, the immediate. R78, R90, R94: AADD adds the
immediate to an A register or ZERO, AMAD a counter times a stride, modulo 2^32; the execute engine works on its copy, the fetch engine on
its own, and neither touches the other's. The model's own readings in it: entries 63, 71, 73. -/
def Obligations.ScalarResults : Prop :=
  (∀ (s : State) (r : RR) (dst : Fin 16) (a b c : SSrc) (imm : W32),
    let x := (s.ctxOf r).src a
    let y := (s.ctxOf r).src b
    let z := (s.ctxOf r).src c
    (s.Issues r (a.spec r.ctx.val ++ b.spec r.ctx.val) →
      s.WritesS r (.sadd r dst a b) dst (x + y) ∧ s.WritesS r (.ssub r dst a b) dst (x - y) ∧
      s.WritesS r (.smul r dst a b) dst (x * y) ∧ s.WritesS r (.sand r dst a b) dst (x &&& y) ∧
      s.WritesS r (.sor r dst a b) dst (x ||| y) ∧ s.WritesS r (.sxor r dst a b) dst (x ^^^ y) ∧
      s.WritesS r (.sshl r dst a b) dst (x <<< (y.toNat % 32)) ∧ s.WritesS r (.sshr r dst a b) dst (x >>> (y.toNat % 32)) ∧
      s.WritesS r (.scmp r dst a b .eq) dst (if x = y then 1 else 0) ∧ s.WritesS r (.scmp r dst a b .ne) dst (if x ≠ y then 1 else 0) ∧
      s.WritesS r (.scmp r dst a b .ltS) dst (if x.toInt < y.toInt then 1 else 0) ∧
      s.WritesS r (.scmp r dst a b .ltU) dst (if x.toNat < y.toNat then 1 else 0)) ∧
    (s.Issues r (a.spec r.ctx.val ++ b.spec r.ctx.val ++ c.spec r.ctx.val) → s.WritesS r (.ssel r dst a b c) dst (if z = 0 then y else x)) ∧
    (s.Issues r [] → s.WritesS r (.sli r dst imm) dst imm)) ∧
  (∀ (s : State) (r : RR) (dst i st : Fin 16) (ctr : Fin 8) (imm : W32),
    let c := s.ctxOf r
    let f := (s.reed r.reed.val).fetch
    (s.Issues r [] →
      s.WritesA r (.aadd r .exec dst (.a i) imm) dst (c.getA i.val + imm) ∧ s.WritesA r (.aadd r .exec dst .zero imm) dst imm ∧
      s.WritesA r (.amad r .exec dst ctr st) dst (c.getA dst.val + (Tbl.lk 0 c.c ctr.val).zeroExtend 32 * c.getA st.val)) ∧
    (s.Fetches r →
      s.FetchesA r (.aadd r .fetch dst (.a i) imm) dst (Tbl.lk 0 f.a i.val + imm) ∧ s.FetchesA r (.aadd r .fetch dst .zero imm) dst imm ∧
      s.FetchesA r (.amad r .fetch dst ctr st) dst (Tbl.lk 0 f.a dst.val + (Tbl.lk 0 f.c ctr.val).zeroExtend 32 * Tbl.lk 0 f.a st.val)))

/-- R78, R90, R95, R181: SMOV on the execute engine moves a value among S, A, C, VL and FIRING, zero-extended, into VL its low 8 bits;
into an A register from S, C or VL, on a reed that is not threaded, it leaves a mark that carries the value. On the fetch engine it copies
the fetch engine's A register or firing index, and otherwise takes the value of the next mark once that mark is met. R82, R90: CSR
delivers the 32 bits that its offset selects into its S register and changes nothing else, but that a CSR at 0x02C also clears DROPPED;
CSW at 0x020 writes CORE_SAMPLE_CTL and no other register of R80. The model's own readings in it: entries 63, 69, 73. -/
def Obligations.MovesAndControlRegisters : Prop :=
  (∀ (s : State) (r : RR) (dst : Fin 16) (src : MovSrc),
    (s.Issues r (src.spec r.ctx.val) →
      s.WritesS r (.smov r .exec (.s dst) src) dst (s.movValue r src) ∧
      (s.At r .exec (.smov r .exec .vl src) → ∃ t, exec (.smov r .exec .vl src) s = .next t ∧ s.OnlyContext t r ∧ (t.ctxOf r).s = (s.ctxOf r).s ∧ (t.ctxOf r).a = (s.ctxOf r).a ∧
        (t.ctxOf r).vl = (s.movValue r src).setWidth 8) ∧
      s.WritesA r (.smov r .exec (.a dst) src) dst (s.movValue r src) ∧
      (s.At r .exec (.smov r .exec (.a dst) src) → ∃ t, exec (.smov r .exec (.a dst) src) s = .next t ∧
        (t.reed r.reed.val).marks = (s.reed r.reed.val).marks ++
          (if src.marks ∧ (s.reed r.reed.val).threads = 0 then
            [{ writes := ((s.reed r.reed.val).ops.filter (fun o => o.kind == .store)).map (·.id), value := some (s.movValue r src) }] else []))) ∧
    (s.Fetches r →
      (∀ j : Fin 16, s.FetchesA r (.smov r .fetch (.a dst) (.a j)) dst (Tbl.lk 0 (s.reed r.reed.val).fetch.a j.val)) ∧
      s.FetchesA r (.smov r .fetch (.a dst) .firing) dst (BitVec.ofNat 32 (s.reed r.reed.val).fetch.j) ∧
      (∀ m rest, src.marks → (s.reed r.reed.val).markReady = some (m, rest) →
        s.FetchesA r (.smov r .fetch (.a dst) src) dst (m.value.getD 0) ∧
        (s.At r .fetch (.smov r .fetch (.a dst) src) →
          ∃ t, exec (.smov r .fetch (.a dst) src) s = .next t ∧ (t.reed r.reed.val).marks = rest)))) ∧
  (∀ (s : State) (r : RR) (dst : Fin 16) (src : SSrc) (off : BitVec 12),
    (s.Issues r [] → s.At r .exec (.csr r dst off) → ∃ t, exec (.csr r dst off) s = .next t ∧ s.OnlyReed t r.reed.val ∧
      (∀ j, (t.ctxOf r).getS j = if j = dst.val then s.csrRead r.reed.val off.toNat else (s.ctxOf r).getS j) ∧
      (t.reed r.reed.val).dropped = (if off = 0x02C then 0 else (s.reed r.reed.val).dropped) ∧
      (t.reed r.reed.val).written = (s.reed r.reed.val).written ∧ (t.reed r.reed.val).csCtl = (s.reed r.reed.val).csCtl) ∧
    (s.Issues r (src.spec r.ctx.val) → s.At r .exec (.csw r src 0x020) → ∃ t, exec (.csw r src 0x020) s = .next t ∧ s.OnlyReed t r.reed.val ∧
      (t.reed r.reed.val).csCtl = ((s.ctxOf r).src src) &&& 0xFC3FFFFF#32 ∧ (t.ctxOf r).s = (s.ctxOf r).s ∧
      (t.reed r.reed.val).dropped = (s.reed r.reed.val).dropped ∧ (t.reed r.reed.val).slack = (s.reed r.reed.val).slack ∧
      (t.reed r.reed.val).idle = (s.reed r.reed.val).idle))

/-- R90, R95, R181: NOP and FENCE change no register, and FENCE leaves the wait for acknowledgements behind; SETVL sets VL alone; DMARK on
the execute engine of a reed that is not threaded records a mark of the writes then outstanding, and on the fetch engine passes a mark
that is met. R90, R252: a NOTE that issues puts one firing notice on the rill of its tussock, addressed to the control core of its fen and
carrying the immediate; no register and no memory changes. The payload word is the model's choice (entry 20). The model's own readings in
it: entries 20, 73. -/
def Obligations.SequencerInstructions : Prop :=
  (∀ (s : State) (r : RR) (imm : Byte),
    (s.Issues r [] →
      (s.At r .exec (.nop r) → ∃ t, exec (.nop r) s = .next t ∧ s.OnlyContext t r ∧ (t.ctxOf r).s = (s.ctxOf r).s ∧ (t.ctxOf r).a = (s.ctxOf r).a ∧
        (t.ctxOf r).vl = (s.ctxOf r).vl ∧ (t.ctxOf r).fence = false) ∧
      (s.At r .exec (.fence r) → ∃ t, exec (.fence r) s = .next t ∧ s.OnlyContext t r ∧ (t.ctxOf r).s = (s.ctxOf r).s ∧ (t.ctxOf r).a = (s.ctxOf r).a ∧
        (t.ctxOf r).vl = (s.ctxOf r).vl ∧ (t.ctxOf r).fence = true) ∧
      (s.At r .exec (.setvl r imm) → ∃ t, exec (.setvl r imm) s = .next t ∧ s.OnlyContext t r ∧ (t.ctxOf r).s = (s.ctxOf r).s ∧ (t.ctxOf r).a = (s.ctxOf r).a ∧
        (t.ctxOf r).vl = imm) ∧
      (s.At r .exec (.dmark r .exec) → ∃ t, exec (.dmark r .exec) s = .next t ∧ s.OnlyReed t r.reed.val ∧
        (t.reed r.reed.val).marks = (s.reed r.reed.val).marks ++
          (if (s.reed r.reed.val).threads = 0 then
            [{ writes := ((s.reed r.reed.val).ops.filter (fun o => o.kind == .store)).map (·.id), value := none }] else []))) ∧
    (∀ m rest, s.Fetches r → (s.reed r.reed.val).markReady = some (m, rest) →
      s.At r .fetch (.dmark r .fetch) → ∃ t, exec (.dmark r .fetch) s = .next t ∧ s.OnlyReed t r.reed.val ∧ (t.reed r.reed.val).marks = rest ∧
        (t.reed r.reed.val).ctx = (s.reed r.reed.val).ctx)) ∧
  (∀ (s : State) (r : RR) (imm : W16), s.Issues r [] →
    s.At r .exec (.note r imm) → ∃ t, exec (.note r imm) s = .next t ∧ s.SameScalars t r ∧ s.SameVBut t r [] ∧ s.SameMemory t ∧
      Tbl.lk [] t.rillq (tusOf r.reed.val) = Tbl.lk [] s.rillq (tusOf r.reed.val) ++
        [{ destT := 240 * fenOf (tusOf r.reed.val), port := 26, type := 3, epoch := s.epochOf r.reed.val,
           words := [BitVec.ofNat 32 (r.reed.val * 2 ^ 16 + imm.toNat)], srcT := tusOf r.reed.val, age := s.stamp }])

/-- R90, R91: LOOP with a bound above 0 enters its body with its counter at 0, and with a bound of 0 skips it: the program counter of the
execute engine of a reed that is not threaded, inside a body and outside every loop, moves past LEN instructions; no S, A or V register
changes. Stated where the words it moves to are not FDLD, which the execute engine passes by. R83, R87: END for the execute engine of a reed that is not threaded, between bodies and past the last block, ends the program
where no unfinished FENCE holds it: with no operation outstanding the reed enters DRAIN; for the fetch engine it stops the fetch engine. No register and no memory changes.
The model's own readings in it: entries 69, 73. -/
def Obligations.LoopsAndEnds : Prop :=
  (∀ (s : State) (r : RR) (ctr : Fin 8) (bound : BitVec 24) (len : Nat), s.Issues r [] →
    (s.reed r.reed.val).threads = 0 → (s.ctxOf r).loops = [] →
    (s.ctxOf r).pc.toNat + 1 + len < (s.reed r.reed.val).bodyEnd → (s.ctxOf r).pc.toNat + 1 + len < 2048 → 0 < len →
    (s.reed r.reed.val).takes ((s.ctxOf r).pc.toNat + 1) = true → (s.reed r.reed.val).takes ((s.ctxOf r).pc.toNat + 1 + len) = true →
      s.At r .exec (.loop r .exec ctr bound len) → ∃ t, exec (.loop r .exec ctr bound len) s = .next t ∧ s.OnlyReed t r.reed.val ∧ (t.ctxOf r).s = (s.ctxOf r).s ∧
        (t.ctxOf r).a = (s.ctxOf r).a ∧
        (if bound = 0 then (t.ctxOf r).pc = (s.ctxOf r).pc + 1 + BitVec.ofNat 11 len ∧ (t.ctxOf r).loops = []
         else (t.ctxOf r).pc = (s.ctxOf r).pc + 1 ∧ Tbl.lk 0 (t.ctxOf r).c ctr.val = 0 ∧ ∃ f, (t.ctxOf r).loops = [f] ∧
           f.bound = bound.toNat ∧ f.iter = 0 ∧ f.start = (s.ctxOf r).pc.toNat + 1 ∧ f.stop = (s.ctxOf r).pc.toNat + 1 + len)) ∧
  (∀ (s : State) (r : RR),
    (r.ctx.val = 0 → (s.reed r.reed.val).threads = 0 → (s.reed r.reed.val).canEnd 0 = true → s.issueWait r [] = none →
      s.At r .exec (.end_ r .exec) → ∃ t, exec (.end_ r .exec) s = .next t ∧ s.OnlyReed t r.reed.val ∧ (t.ctxOf r).ended = true ∧ s.SameScalars t r ∧ s.SameMemory t ∧
        s.SameVBut t r [] ∧
        (t.reed r.reed.val).status = (if (s.reed r.reed.val).ops = [] then SeqState.drain else (s.reed r.reed.val).status)) ∧
    (s.Fetches r →
      s.At r .fetch (.end_ r .fetch) → ∃ t, exec (.end_ r .fetch) s = .next t ∧ s.OnlyReed t r.reed.val ∧ (t.reed r.reed.val).fetch.ended = true ∧
        (t.reed r.reed.val).ctx = (s.reed r.reed.val).ctx ∧ s.SameMemory t))

/-! ### Queues and tags (R97 to R99, R103, R117 to R119) -/

/-- R87, R97, R98, R119: QPOP and QPOPNB take the token at the head of a queue into half HALF of a V register; QPOPNB sets its flag to 1,
and where no token has come before this reed cycle to 0 and nothing else; QPOP on such a queue stays where it is and notes the cause of its wait; QDROP takes away what
is present of the current packet, and drops what is still to come where its last token is not present. No memory changes. The model's own
readings in it: entry 73. -/
def Obligations.QueuePops : Prop :=
  ∀ (s : State) (r : RR) (reg : Fin 32) (hi : Bool) (q : Fin 8) (flag : Fin 16),
    let x := s.inq r.reed.val q.val
    let sp := spV (s.reed r.reed.val) r.ctx.val reg.val
    (∀ k rest, x.head = some k → x.toks = k :: rest →
      (s.Issues r [sp] → s.At r .exec (.qpop r reg hi q) → ∃ t, exec (.qpop r reg hi q) s = .next t ∧ (t.inq r.reed.val q.val).toks = rest ∧ (t.inq r.reed.val q.val).rd = x.rd + 1 ∧
        (t.inq r.reed.val q.val).rd2 = x.rd2 + 1 ∧ t.v r reg.val = vPutHalf (s.v r reg.val) hi k.data ∧ s.SameVBut t r [sp] ∧
        s.SameScalars t r ∧ s.SameMemory t) ∧
      (s.Issues r [] → s.At r .exec (.qpopnb r reg hi q flag) → ∃ t, exec (.qpopnb r reg hi q flag) s = .next t ∧ (t.inq r.reed.val q.val).toks = rest ∧
        t.v r reg.val = vPutHalf (s.v r reg.val) hi k.data ∧ s.SameVBut t r [sp] ∧ s.SameMemory t ∧
        ∀ j, (t.ctxOf r).getS j = if j = flag.val then 1 else (s.ctxOf r).getS j)) ∧
    (x.head = none →
      (s.Issues r [sp] → s.At r .exec (.qpop r reg hi q) → ∃ t, exec (.qpop r reg hi q) s = .next t ∧ (t.ctxOf r).pc = (s.ctxOf r).pc ∧ (t.ctxOf r).wait = some (s.queueCause r.reed.val q.val) ∧
        s.SameScalars t r ∧ s.SameVBut t r [] ∧ s.SameMemory t) ∧
      (s.Issues r [] → s.WritesS r (.qpopnb r reg hi q flag) flag 0)) ∧
    (s.Issues r [] →
      s.At r .exec (.qdrop r q) → ∃ t, exec (.qdrop r q) s = .next t ∧ s.SameScalars t r ∧ s.SameVBut t r [] ∧ s.SameMemory t ∧
        (if x.inPacket then
          (t.inq r.reed.val q.val).toks = x.toks.drop (restOfPacket x.toks).1 ∧
            (t.inq r.reed.val q.val).dropping = !(restOfPacket x.toks).2 ∧ (t.inq r.reed.val q.val).inPacket = !(restOfPacket x.toks).2
         else (t.inq r.reed.val q.val) = x))

/-- R97, R118: QPUSH and QPUSHM with a credit at hand send one token of 64 bytes, stamped with LAST, the epoch and the packet number, from
a half of a V register or from the scratchpad; on the queue of a reed of the same tussock that drops nothing it is the last token. CTOK
sends the value of an S register to the control buffer of its tussock's path, and QPOPM writes its token's 64 bytes to the scratchpad and
no other byte; the scratchpad accesses are stated where their banks are granted (R110). The model's own readings in it: entries 48, 68, 72, 73. -/
def Obligations.QueuePushes : Prop :=
  ∀ (s : State) (r : RR) (reg : Fin 32) (hi : Bool) (q : Fin 8) (ha : HA) (src : Fin 16),
    let o := s.outq r.reed.val q.val
    let last := decide (o.len ≤ o.tok + 1)
    let tag := tokTag last false false (s.epochOf r.reed.val) o.pkt
    (o.cr ≠ 0 →
      (s.Issues r [spV (s.reed r.reed.val) r.ctx.val reg.val] →
        s.At r .exec (.qpush r reg hi q) → ∃ t, exec (.qpush r reg hi q) s = .next t ∧ s.SameScalars t r ∧ s.SameVBut t r [] ∧ s.SameMemory t ∧
          ∀ p n, o.dest = .queue p n → tusOf p = tusOf r.reed.val → (s.inq p n).dropping = false →
            (t.inq p n).toks = (s.inq p n).toks ++ [{ tag := tag, data := vHalf (s.v r reg.val) hi }] ∧
            (t.outq r.reed.val q.val).cr = o.cr - 1 ∧ (t.outq r.reed.val q.val).tok = (if last then 0 else o.tok + 1) ∧
            (t.outq r.reed.val q.val).pkt = (if last then o.pkt + 1 else o.pkt)) ∧
      (∀ u sp a priv, s.Issues r [] → (s.unfenced r).spadRead r ha.h ((s.ctxOf r).getA ha.a.val).toNat 64 5 = .ok u sp a priv →
        s.At r .exec (.qpushm r ha q) → ∃ t, exec (.qpushm r ha q) s = .next t ∧ s.SameScalars t r ∧ s.SameVBut t r [] ∧ s.SameMemory t ∧
          ∀ p n, o.dest = .queue p n → tusOf p = tusOf r.reed.val → (s.inq p n).dropping = false →
            (t.inq p n).toks = (s.inq p n).toks ++ [{ tag := tag, data := BitVec.ofNat 512 (leNat (s.bytes sp a 64)) }])) ∧
    (∀ p, s.Issues r [spS r.ctx.val src.val] → s.pathOf r.reed.val = some p → (s.path (tusOf r.reed.val) p).ctl.toks.length < 32 →
      s.At r .exec (.ctok r src) → ∃ t, exec (.ctok r src) s = .next t ∧ s.SameScalars t r ∧ s.SameVBut t r [] ∧ s.SameMemory t ∧
        (t.path (tusOf r.reed.val) p).ctl = (s.path (tusOf r.reed.val) p).ctl.push
          { tag := tokTag false false true (s.epochOf r.reed.val) (s.reed r.reed.val).ctokSeq, data := ((s.ctxOf r).getS src.val).zeroExtend 512 } ∧
        (t.reed r.reed.val).ctokSeq = (s.reed r.reed.val).ctokSeq + 1) ∧
    (∀ k rest u p a priv, s.Issues r [] → (s.inq r.reed.val q.val).head = some k → (s.inq r.reed.val q.val).toks = k :: rest →
      (s.unfenced r).spadWrite r ha.h ((s.ctxOf r).getA ha.a.val).toNat 64 5 = .ok u (.spad p) a priv →
      s.At r .exec (.qpopm r ha q) → ∃ t, exec (.qpopm r ha q) s = .next t ∧ (t.inq r.reed.val q.val).toks = rest ∧ s.SameScalars t r ∧ s.SameVBut t r [] ∧
        (t.reed p).spad = (s.reed p).spad.write a (leBytes 64 k.data.toNat) ∧ (t.reed p).tags = (s.reed p).tags ∧
        ∀ u, u ≠ p → (t.reed u).spad = (s.reed u).spad)

/-- R90, R93, R103, R112: TWAITF passes where every named slot is FULL and changes no tag; TSETE turns the named slots that are FULL to
EMPTY, and TSETF those that are EMPTY to FULL, once no earlier access of the reed to them is outstanding, and leaves every other tag and
every byte of memory; in a pool TSETF also lets reads that wait be served, so that form is stated for a pool where none waits. In a memory
without tags they leave everything. The model's own readings in it: entries 65, 73. -/
def Obligations.TagInstructions : Prop :=
  ∀ (s : State) (r : RR) (ha : HA) (n : Nat) (sp : Space) (sl : Nat),
    s.Issues r [] → (s.unfenced r).tagSlots r ha n = .ok sp sl →
      (s.notTag sp sl n .full = none → s.At r .exec (.twaitf r ha n) → ∃ t, exec (.twaitf r ha n) s = .next t ∧ s.OnlyContext t r ∧ s.SameScalars t r ∧ s.SameMemory t) ∧
      ((s.unfenced r).earlierUse r sp sl n = none → (∀ q, sp = .pool q → (s.tus1 q).groups = []) →
        (s.At r .exec (.tsete r ha n) → ∃ t, exec (.tsete r ha n) s = .next t ∧ s.SameScalars t r ∧ s.SameVBut t r [] ∧
          (∀ i, t.tag sp i = if sp.tagged ∧ sl ≤ i ∧ i < sl + n ∧ s.tag sp i = .full then Tag.empty else s.tag sp i) ∧
          (∀ u i, u ≠ sp → t.tag u i = s.tag u i) ∧ ∀ u a m, t.bytes u a m = s.bytes u a m) ∧
        (s.At r .exec (.tsetf r ha n) → ∃ t, exec (.tsetf r ha n) s = .next t ∧ s.SameScalars t r ∧ s.SameVBut t r [] ∧
          (∀ i, t.tag sp i = if sp.tagged ∧ sl ≤ i ∧ i < sl + n ∧ s.tag sp i = .empty then Tag.full else s.tag sp i) ∧
          (∀ u i, u ≠ sp → t.tag u i = s.tag u i) ∧ ∀ u a m, t.bytes u a m = s.bytes u a m))

/-! ### Descriptors (R88, R90, R94, R111, R226) -/

/-- R90, R94, R218: FDLD on the fetch engine, with a descriptor that passes the checks of its issue and need not wait, enters it in the
reed's queue of descriptors, as the newest one, and moves on; no register of the execute engine, no tag and no byte of memory changes at
issue. On a threaded reed the execute engine does the same (R100). R88, R90: FDST and FDMV, with a descriptor that passes the checks of
its issue and need not wait, leave one store operation outstanding that awaits an acknowledgement for every slot, or for every tile of an
untagged destination; an FDMV, and an FDST but for a single slot that goes to a scratchpad or a pool, are entered as the newest descriptor; no register, tag or
byte of memory changes at issue. An FDST is stated where the bank of its first slot is granted (R110). The model's own readings in it: entries 64, 73. -/
def Obligations.DescriptorsEnter : Prop :=
  (∀ (s : State) (r : RR) (d : Desc) (x : Xfer),
    ((s.reed r.reed.val).threads = 0 → s.Fetches r →
      s.checkDesc r.reed.val (fun i => Tbl.lk 0 (s.reed r.reed.val).fetch.a i) .load d 0x30 (s.reed r.reed.val).fetch.pc.toNat
        (s.reed r.reed.val).fetchPos = .ok x →
      s.loadWaits x = false → s.At r .fetch (.fdld r d) →
      ∃ t, exec (.fdld r d) s = .next t ∧ t.xfers = s.xfers ++ [x] ∧ t.nextXfer = s.nextXfer + 1 ∧ x.id = s.nextXfer ∧ s.SameMemory t ∧
        (t.reed r.reed.val).ctx = (s.reed r.reed.val).ctx ∧ (t.reed r.reed.val).v = (s.reed r.reed.val).v ∧
        (t.reed r.reed.val).descq = (s.reed r.reed.val).descq ++ (if x.chan = 0 ∨ (x.chan = 2 ∧ x.mode = 2) then [x.id] else [])) ∧
    ((s.reed r.reed.val).threads ≠ 0 → s.Issues r [] →
      s.checkDesc r.reed.val (s.ctxOf r).getA .load d 0x30 (s.ctxOf r).pc.toNat ((s.reed r.reed.val).execPos r.ctx.val) = .ok x →
      s.loadWaits x = false → s.At r .exec (.fdld r d) → ∃ t, exec (.fdld r d) s = .next t ∧ t.xfers = s.xfers ++ [x] ∧ t.nextXfer = s.nextXfer + 1 ∧ s.SameMemory t ∧ s.SameScalars t r ∧
        s.SameVBut t r [] ∧ (t.reed r.reed.val).descq = (s.reed r.reed.val).descq ++
          (if x.chan = 0 ∨ (x.chan = 2 ∧ x.mode = 2) then [x.id] else []))) ∧
  (∀ (s : State) (r : RR) (d : Desc) (x : Xfer), s.Issues r [] →
    let op := (s.reed r.reed.val).nextOp
    (∀ u, s.checkDesc r.reed.val (s.ctxOf r).getA .store d 0x31 (s.ctxOf r).pc.toNat ((s.reed r.reed.val).execPos r.ctx.val) = .ok x → x.mode ≠ 2 →
      ((s.handle r.reed.val d.src.h.val).priv = true ∨ ∀ i, i < x.slots → s.tagFor .full x.src (x.srcSlot i) = .full) →
      (∀ i, i < x.slots → s.corrects x.src (x.srcSlot i) = false) →
      (s.unfenced r).bankAsk x.src (256 * x.srcSlot 0) 256 x.src.readRank = .granted u →
      (x.chan ≠ 0 → (s.channel x.part x.tier x.chan).length < 256) →
      s.At r .exec (.fdst r d) → ∃ t, exec (.fdst r d) s = .next t ∧ s.SameScalars t r ∧ s.SameVBut t r [] ∧ s.SameMemory t ∧
        s.AddsOp t r .store x.acks [] (some (x.dst, x.dstBase, x.slots)) ∧
        (x.trickles = false → ∃ y, t.xfers = s.xfers ++ [y] ∧ y.id = s.nextXfer ∧ y.op = op ∧ y.dst = x.dst ∧ y.dstBase = x.dstBase ∧ y.slots = x.slots)) ∧
    (s.checkDesc r.reed.val (s.ctxOf r).getA .move d 0x32 (s.ctxOf r).pc.toNat ((s.reed r.reed.val).execPos r.ctx.val) = .ok x →
      (x.chan ≠ 0 → (s.channel x.part x.tier x.chan).length < 256) →
      s.At r .exec (.fdmv r d) → ∃ t, exec (.fdmv r d) s = .next t ∧ s.SameScalars t r ∧ s.SameVBut t r [] ∧ s.SameMemory t ∧
        s.AddsOp t r .store x.acks [] (some (x.dst, x.dstBase, x.slots)) ∧ t.xfers = s.xfers ++ [{ x with op := op }] ∧ t.nextXfer = s.nextXfer + 1 ∧ x.id = s.nextXfer))

/-! ### The matrix engine (R137 to R149, R439) -/

/-- R139, R149: MRES, with the engine's queue empty, its operand's slots FULL, its tiles verified and its banks granted (R110), loads the next
resident bank and makes it the current one, the other bank unchanged. R137, R140, R146: MMAC, with operands that agree on the valid positions
of every K-block and on the extents of its tile, completes, and leaves the accumulator tiles as the addition of its K-blocks to them leaves
them. Each leaves one matrix operation outstanding, and neither changes a register, a special register or a memory. R137, R140, R141, R146: adding one K-block of a streamed and a resident tile leaves in element (i, j) of the
accumulator tile the rounding, once, of the old element plus the exact block sum of streamed row i0 + i and resident row j under their two
scales, and counts one K-block more; the threshold, the descriptor and the extents stay. The model's own readings in it: entries 63, 73.
-/
def Obligations.MatrixOperands : Prop :=
  (∀ (s : State) (r : RR) (ha : HA) (kblk a : Nat) (priv : Bool), s.Issues r [] → (s.reed r.reed.val).matq = [] →
    (∀ (f : Fmt) (ts : List (List Byte)) (v : State), (s.unfenced r).matAddr r ha (4608 * operandTiles f false kblk) 256 = .ok a priv →
      s.operands r.reed.val (a / 256) priv (operandTiles f false kblk) = some ts → checkTiles f false ts = .ok →
      (s.entered r (.mres (a / 256) priv f kblk (s.reed r.reed.val).nextBank) (s.fillOf r ha)).bankAsk (.spad r.reed.val) (256 * (a / 256)) 128 3
        = .granted v → s.At r .exec (.mres r ha f kblk) →
      ∃ t, exec (.mres r ha f kblk) s = .next t ∧ s.OnlyReedBanks t r.reed.val ∧ s.SameScalars t r ∧ s.SameVBut t r [] ∧ s.SameMemory t ∧
        Reed.SameSpecial (s.reed r.reed.val) (t.reed r.reed.val) ∧
        s.AddsOp t r .matrix 0 [] ∧ (t.reed r.reed.val).curBank = some (s.reed r.reed.val).nextBank ∧
        (t.reed r.reed.val).nextBank = 1 - (s.reed r.reed.val).nextBank ∧
        ∀ b, Tbl.lk? (t.reed r.reed.val).banks b =
          if b = (s.reed r.reed.val).nextBank then some { fmt := f, kblk := kblk, tiles := ts } else Tbl.lk? (s.reed r.reed.val).banks b) ∧
    (∀ (acc : Fin 4) (fa fb : Fmt) (clear trans : Bool) (ts : List (List Byte)) (b : Nat) (bk : Bank) (v : State),
      let e := s.entered r (.mmac (a / 256) priv fa fb kblk acc.val clear trans (some b)) (s.fillOf r ha)
      let two := trans && fa.width == 4
      let m := if trans then (TileHdr.ofTile (ts.headD [])).vcols else (TileHdr.ofTile (ts.headD [])).vrows
      let n := (TileHdr.ofTile (bk.tiles.headD [])).vrows
      let fits := fun (i rows : Nat) => clear = true ∨ ∀ x, ((s.reed r.reed.val).accTile i).ext = some x → x = (rows, n)
      (s.unfenced r).matAddr r ha (4608 * operandTiles fa trans kblk) 256 = .ok a priv → (s.reed r.reed.val).tileHeld acc.val = false →
      (two = true → (s.reed r.reed.val).tileHeld (acc.val + 1) = false) →
      (s.reed r.reed.val).curBank = some b → Tbl.lk? (s.reed r.reed.val).banks b = some bk → bk.kblk = kblk → bk.fmt = fb →
      s.operands r.reed.val (a / 256) priv (operandTiles fa trans kblk) = some ts → checkTiles fa trans ts = .ok →
      kAgree fa fb trans ts bk.tiles kblk = true → (two = false → fits acc.val m) →
      (two = true → fits acc.val (Nat.min 64 m) ∧ fits (acc.val + 1) (m - 64)) →
      e.bankAsk (.spad r.reed.val) (256 * (a / 256)) 128 3 = .granted v → s.At r .exec (.mmac r ha acc fa fb kblk clear trans) →
      ∃ t u, exec (.mmac r ha acc fa fb kblk clear trans) s = .next t ∧
        e.runMmac r.reed.val acc.val fa fb kblk clear trans ts bk.tiles = .done u ∧ (t.reed r.reed.val).acc = (u.reed r.reed.val).acc ∧
        s.OnlyReedBanks t r.reed.val ∧ s.AddsOp t r .matrix 0 [] ∧ s.SameScalars t r ∧ s.SameVBut t r [] ∧
        Reed.SameSpecial (s.reed r.reed.val) (t.reed r.reed.val) ∧ (t.reed r.reed.val).banks = (s.reed r.reed.val).banks ∧
        (t.reed r.reed.val).spad = (s.reed r.reed.val).spad ∧ (t.reed r.reed.val).tags = (s.reed r.reed.val).tags)) ∧
  (∀ (t : AccTile) (fa fb : Fmt) (trans : Bool) (ta tb : List Byte) (ba bb i0 : Nat) (rnd : Nat → Nat → Rnd) (i j : Nat), i < 64 → j < 64 →
    let u := addBlock t fa fb trans ta tb ba bb i0 rnd
    Tbl.lk 0 u.el (64 * i + j) = accRound (rnd i j) ((f32 (Tbl.lk 0 t.el (64 * i + j))).add
      (blockSum ((streamRow fa trans ta (i0 + i) ba).zip (streamRow fb false tb j bb))
        (tileScale fa ta (TileHdr.ofTile ta) (i0 + i) ba) (tileScale fb tb (TileHdr.ofTile tb) j bb))) ∧
    u.nblk = t.nblk + 1 ∧ u.lsum = t.lsum ∧ u.desc = t.desc ∧ u.ext = t.ext ∧ u.held = t.held)

/-- R140, R143, R147, R149, R439: with the engine's queue empty and the tile not held, MCLR zeroes its tile and forgets its extents and
its count, MCFG sets its threshold and output descriptor from the 64 bytes it names, MOUT puts the tile, padded with zeros outside its
extents, last in the queue of finished tiles and holds it, MSUMP holds it and MSUMP's tile goes to the sump; every other accumulator tile,
register and memory stays, and one matrix operation is outstanding. MCFG is stated where its bank is granted (R110). The model's own readings in it: entries 72, 73. -/
def Obligations.AccumulatorTiles : Prop :=
  ∀ (s : State) (r : RR) (ha : HA) (acc : Fin 4) (thresh : BitVec 24) (group : Fin 16) (h : HInfo) (sp : Space) (a : Nat) (priv : Bool) (v : State),
    s.Issues r [] → (s.reed r.reed.val).matq = [] → (s.reed r.reed.val).tileHeld acc.val = false →
    let x := (s.reed r.reed.val).accTile acc.val
    (s.At r .exec (.mclr r acc) → ∃ t, exec (.mclr r acc) s = .next t ∧ s.OnlyReed t r.reed.val ∧ s.AddsOp t r .matrix 0 [] ∧ s.SameScalars t r ∧ s.SameVBut t r [] ∧
      (t.reed r.reed.val).spad = (s.reed r.reed.val).spad ∧
      ∀ j, (t.reed r.reed.val).accTile j = if j = acc.val then { x with el := [], nblk := 0, ext := none } else (s.reed r.reed.val).accTile j) ∧
    ((s.unfenced r).matAddr r ha 64 64 = .ok a priv → (priv = true ∨ s.notTag (.spad r.reed.val) (a / 256) 1 .full = none) →
      s.correctsIn (.spad r.reed.val) a 64 = false →
      (s.entered r (.mcfg acc.val thresh a priv) (s.fillOf r ha)).bankAsk (.spad r.reed.val) (256 * (a / 256)) 128 3 = .granted v →
      s.At r .exec (.mcfg r ha acc thresh) → ∃ t, exec (.mcfg r ha acc thresh) s = .next t ∧ s.OnlyReedBanks t r.reed.val ∧ s.AddsOp t r .matrix 0 [] ∧ s.SameScalars t r ∧
        s.SameVBut t r [] ∧ (t.reed r.reed.val).spad = (s.reed r.reed.val).spad ∧
        ∀ j, (t.reed r.reed.val).accTile j =
          (let n := leNat ((s.reed r.reed.val).spad.read a 64)
           if j = acc.val then { x with lsum := thresh, desc := ⟨BitVec.ofNat 32 n, BitVec.ofNat 32 (n >>> 32), BitVec.ofNat 32 (n >>> 64), BitVec.ofNat 32 (n >>> 96)⟩ }
           else (s.reed r.reed.val).accTile j)) ∧
    (s.At r .exec (.mout r acc) → ∃ t, exec (.mout r acc) s = .next t ∧ s.OnlyReed t r.reed.val ∧ s.AddsOp t r .matrix 0 [] ∧ s.SameScalars t r ∧ s.SameVBut t r [] ∧
      (t.reed r.reed.val).spad = (s.reed r.reed.val).spad ∧
      (t.reed r.reed.val).fin = (s.reed r.reed.val).fin ++
        [{ acc := acc.val, rows := (x.ext.getD (64, 64)).1, cols := (x.ext.getD (64, 64)).2, op := (s.reed r.reed.val).nextOp }] ∧
      ∀ j, (t.reed r.reed.val).accTile j = if j = acc.val then { x.padded with held := true } else (s.reed r.reed.val).accTile j) ∧
    ((s.unfenced r).locate r.reed.val ha.h.val ((s.ctxOf r).getA ha.a.val).toNat (4 * 4608) = .at_ h sp a → ((s.ctxOf r).getA ha.a.val).toNat % 256 = 0 →
      s.sumpAccepts r.reed.val group.val = true →
      s.At r .exec (.msump r ha acc group) → ∃ t, exec (.msump r ha acc group) s = .next t ∧ s.AddsOp t r .matrix 0 [] ∧ s.SameScalars t r ∧ s.SameVBut t r [] ∧
        (t.reed r.reed.val).spad = (s.reed r.reed.val).spad ∧
        ∀ j, (t.reed r.reed.val).accTile j = if j = acc.val then { x.padded with held := true } else (s.reed r.reed.val).accTile j)

/-! ### The vector engine (R179 to R198) -/

/-- R182, R184, R185: with VL between 1 and the lanes of the format, each elementwise instruction writes, in every lane below VL, the
exact sum, difference, product, product and sum, quotient, root, maximum or minimum of its sources' lanes, rounded once into the format;
on the integer formats the sum, difference and product are taken modulo 2^32. Lanes above VL become zero. The model's own readings in it:
entries 63, 73. -/
def Obligations.ElementwiseResults : Prop :=
  ∀ (s : State) (r : RR) (o : VOpt) (dst a b c : Fin 32),
    let k := r.ctx.val
    let y := s.reed r.reed.val
    let vl := (s.ctxOf r).vl.toNat
    let v (i : Fin 32) (n : Nat) : Val := o.fmt.decode (s.elem r i o.fmt n)
    let put (x : Val) (n : Nat) : Nat := (o.fmt.encode (s.vRnd r o 2 o.sr.toNat n) false x).bits
    let res (int : Nat → Nat → Nat) (fl : Val → Val → Val) (n : Nat) : Nat :=
      if o.fmt.isInt then int (s.elem r a o.fmt n) (s.elem r b o.fmt n) else put (fl (v a n) (v b n)) n
    0 < vl → vl ≤ fmtLanes o.fmt →
    (s.Issues r (vSpecs y k a.val o.fmt ++ vSpecs y k b.val o.fmt) →
      (Instr.wf (.vadd r o dst a b) = true →
        s.WritesLanes r (.vadd r o dst a b) dst o.fmt vl (res (fun m n => (m + n) % 2 ^ 32) Val.add) ∧
        s.WritesLanes r (.vsub r o dst a b) dst o.fmt vl (res (fun m n => (m + (2 ^ 32 - n)) % 2 ^ 32) Val.sub) ∧
        s.WritesLanes r (.vmul r o dst a b) dst o.fmt vl (res (fun m n => m * n % 2 ^ 32) Val.mul)) ∧
      (Instr.wf (.vmax r o dst a b) = true →
        s.WritesLanes r (.vmax r o dst a b) dst o.fmt vl (res (intMax o.fmt) Val.max) ∧
        s.WritesLanes r (.vmin r o dst a b) dst o.fmt vl (res (intMin o.fmt) Val.min)) ∧
      (Instr.wf (.vdiv r o dst a b) = true →
        s.WritesLanes r (.vdiv r o dst a b) dst o.fmt vl (fun n => put ((v a n).div (v b n)) n))) ∧
    (Instr.wf (.vsqrt r o dst a) = true → s.Issues r (vSpecs y k a.val o.fmt) →
      s.WritesLanes r (.vsqrt r o dst a) dst o.fmt vl (fun n => put ((v a n).sqrt) n)) ∧
    (Instr.wf (.vfma r o dst a b c) = true → s.Issues r (vSpecs y k a.val o.fmt ++ vSpecs y k b.val o.fmt ++ vSpecs y k c.val o.fmt) →
      s.WritesLanes r (.vfma r o dst a b c) dst o.fmt vl (fun n => put (((v a n).mul (v b n)).add (v c n)) n))

/-- R182, R186, R191: VCMP writes all ones where the predicate holds and zero elsewhere, VSEL selects by its mask's lanes and VSHUF
interleaves the lanes of two sources below VL, with zero for those above (the model's reading, entry 25). VBCAST writes every lane, whatever VL holds (the model's reading, entry 24). R155, R156, R166, R192, R194: VCVT
rounds element n of the source once into the destination format, with the OVF_NAN of the slot it is bound to; VPACK packs the first VL
elements of four FP32 registers, each scaled by its block's code, which its S register or its slot's mode gives; a bound one writes the
codes to that register, and each adds its elements to its slot's count. The model's own readings in it: entries 24, 25, 63, 73, 83. -/
def Obligations.MovesAndConversions : Prop :=
  ∀ (s : State) (r : RR) (o : VOpt) (dst a b m : Fin 32) (p : VPred) (src sp : Fin 16) (from_ : Fmt),
    let k := r.ctx.val
    let y := s.reed r.reed.val
    let vl := (s.ctxOf r).vl.toNat
    let w := ((s.ctxOf r).getS sp.val).toNat
    let slot : MonSlot := Tbl.lk {} y.mon ((o.mon.map (·.val)).getD 0)
    let ovf := o.mon.isSome && numOvfNan slot.numerics
    let counts (t : State) : Prop := ∀ i, if o.mon.map (·.val) = some i
      then (Tbl.lk {} (t.reed r.reed.val).mon i).elems = (Tbl.lk {} y.mon i).elems + BitVec.ofNat 64 vl
      else Tbl.lk {} (t.reed r.reed.val).mon i = Tbl.lk {} y.mon i
    let x (n : Nat) : Val := Fmt.fp32.decode ((y.lanes k (a.val + n / 32) .fp32).getD (n % 32) 0)
    let block (c : Nat) : List Val := ((upto (32 * c) 32).filter (fun n => n < vl)).map x
    let code (c : Nat) : Nat :=
      if vl ≤ 32 * c then 127
      else if o.mon = none then bits w (8 * c + 7) (8 * c)
      else if numMode slot.numerics = 1 then (if slot.calib then blockCode o.fmt 0 (block c) else slot.scale.toNat)
      else if numMode slot.numerics = 2 then blockCode o.fmt (numHeadroom slot.numerics) (block c)
      else 127
    0 < vl →
    (Instr.wf (.vcmp r o dst a b p) = true → s.Issues r (vSpecs y k a.val o.fmt ++ vSpecs y k b.val o.fmt) → vl ≤ fmtLanes o.fmt →
      s.WritesLanes r (.vcmp r o dst a b p) dst o.fmt vl
        (fun n => if cmpBits o.fmt p (s.elem r a o.fmt n) (s.elem r b o.fmt n) then 2 ^ o.fmt.width - 1 else 0)) ∧
    (Instr.wf (.vsel r o dst a b m) = true → s.Issues r (vSpecs y k a.val o.fmt ++ vSpecs y k b.val o.fmt ++ vSpecs y k m.val o.fmt) →
      vl ≤ fmtLanes o.fmt → s.WritesLanes r (.vsel r o dst a b m) dst o.fmt vl
        (fun n => if s.elem r m o.fmt n ≠ 0 then s.elem r a o.fmt n else s.elem r b o.fmt n)) ∧
    (Instr.wf (.vbcast r o dst src) = true → s.Issues r [spS k src.val] → vl ≤ fmtLanes o.fmt →
      s.WritesLanes r (.vbcast r o dst src) dst o.fmt (fmtLanes o.fmt) (fun _ => ((s.ctxOf r).getS src.val).toNat)) ∧
    (Instr.wf (.vshuf r o dst a b sp) = true → s.Issues r [spV y k a.val, spV y k b.val, spS k sp.val] → w < 32 →
      2 ^ bits w 4 2 ≤ fmtLanes o.fmt / 2 → vl ≤ fmtLanes o.fmt →
      s.WritesLanes r (.vshuf r o dst a b sp) dst o.fmt vl
        (fun n => (shuffle (w % 4) (2 ^ bits w 4 2) (belowVl vl (y.lanes k a.val o.fmt)) (belowVl vl (y.lanes k b.val o.fmt))).getD n 0)) ∧
    (Instr.wf (.vcvt r o dst a from_) = true → s.Issues r (vSpecs y k a.val from_) → vl ≤ fmtLanes from_ → vl ≤ fmtLanes o.fmt →
      s.WritesLanes r (.vcvt r o dst a from_) dst o.fmt vl
        (fun n => (o.fmt.encode (s.vRnd r o 0 0 n) ovf (from_.decode (s.elem r a from_ n))).bits) ∧
      (s.At r .exec (.vcvt r o dst a from_) → ∃ t, exec (.vcvt r o dst a from_) s = .next t ∧ counts t)) ∧
    (Instr.wf (.vpack r o dst a sp) = true → s.Issues r (spS k sp.val :: (upto a.val 4).map (spV y k)) → vl ≤ 128 →
      s.At r .exec (.vpack r o dst a sp) → ∃ t, exec (.vpack r o dst a sp) s = .next t ∧ s.OnlyReed t r.reed.val ∧ s.SameMemory t ∧
        s.SameVBut t r [spV y k dst.val] ∧ s.AddsOp t r .vector 0 [spV y k dst.val, spS k sp.val] ∧ counts t ∧
        (t.ctxOf r).a = (s.ctxOf r).a ∧ (t.ctxOf r).vl = (s.ctxOf r).vl ∧
        (∀ j, (t.ctxOf r).getS j = if j = sp.val ∧ o.mon ≠ none then BitVec.ofNat 32 (packBits 8 ((List.range 4).map code)) else (s.ctxOf r).getS j) ∧
        ∀ n, n < 128 → bits (t.v r dst.val).toNat (o.fmt.width * n + o.fmt.width - 1) (o.fmt.width * n) =
          if n < vl then
            (if code (n / 32) = 255 then o.fmt.nanBits % 2 ^ o.fmt.width
             else (o.fmt.encode (s.vRnd r o 0 0 n) ovf ((x n).scale (127 - (code (n / 32) : Int)))).bits % 2 ^ o.fmt.width)
          else 0)

/-- R190: VPERM sets lane n below VL to the lane of SRC1 that lane n of SRC2 names, which may be one at or above VL, and to zero where the
format has no such lane. R193: VUNPK multiplies the 128 packed elements of SRC1 by their blocks' scales and writes them to four registers
in FP32, rounded to nearest even, whatever VL holds; NaN and the scale code 255 give NaN, and what is infinite or out of range an
infinity. -/
def Obligations.PermuteAndUnpack : Prop :=
  ∀ (s : State) (r : RR) (o : VOpt) (dst a b : Fin 32) (sc : Fin 16),
    let k := r.ctx.val
    let y := s.reed r.reed.val
    let vl := (s.ctxOf r).vl.toNat
    let p := ((s.ctxOf r).getS sc.val).toNat
    let code (n : Nat) : Nat := bits p (8 * (n / 32) + 7) (8 * (n / 32))
    (Instr.wf (.vperm r o dst a b) = true → s.Issues r [spV y k a.val, spV y k b.val] → 0 < vl → vl ≤ fmtLanes o.fmt →
      s.WritesLanes r (.vperm r o dst a b) dst o.fmt vl
        (fun n => if s.elem r b o.fmt n < fmtLanes o.fmt then s.elem r a o.fmt (s.elem r b o.fmt n) else 0)) ∧
    (Instr.wf (.vunpk r o dst a sc) = true → s.Issues r [spS k sc.val, spV y k a.val] →
      s.At r .exec (.vunpk r o dst a sc) → ∃ t, exec (.vunpk r o dst a sc) s = .next t ∧ s.OnlyReed t r.reed.val ∧ s.SameScalars t r ∧ s.SameMemory t ∧
        s.SameVBut t r ((upto dst.val 4).map (spV y k)) ∧ s.AddsOp t r .vector 0 ((upto dst.val 4).map (spV y k)) ∧
        ∀ n, n < 128 → ((t.reed r.reed.val).lanes k (dst.val + n / 32) .fp32).getD (n % 32) 0 =
          (toF32 (if code n = 255 then .nan
            else (o.fmt.decode (bits (s.v r a.val).toNat (o.fmt.width * n + o.fmt.width - 1) (o.fmt.width * n))).scale ((code n : Int) - 127))).toNat)

/-- R163, R183: an instruction bound to a monitor slot adds to that slot's counts what it inspects, and to no other slot; an instruction
bound to none adds nothing. Stated for VRED, which writes its reduction of the elements below VL, as an FP32 value, into its S register
(R187), and VSTAT, which sets its statistics to zero, adds the elements below VL to them, or finishes them (R188). The model's own
readings in it: entries 63, 73. -/
def Obligations.ReductionsAndMonitors : Prop :=
  ∀ (s : State) (r : RR) (o : VOpt) (dst : Fin 16) (vd a : Fin 32) (kind : RedKind),
    let k := r.ctx.val
    let y := s.reed r.reed.val
    let vl := (s.ctxOf r).vl.toNat
    let vs := ((y.lanes k a.val o.fmt).take vl).map o.fmt.decode
    let words := (List.range 16).map (fun i => bits (s.v r vd.val).toNat (64 * i + 63) (64 * i))
    0 < vl → vl ≤ fmtLanes o.fmt → y.msumpBusy = false →
    (s.Issues r (vSpecs y k a.val o.fmt) →
      s.At r .exec (.vred r o dst a kind) → ∃ t, exec (.vred r o dst a kind) s = .next t ∧ s.OnlyReed t r.reed.val ∧ s.SameVBut t r [] ∧ s.SameMemory t ∧
        s.AddsOp t r .vector 0 [spS k dst.val] ∧
        (∀ j, (t.ctxOf r).getS j = if j = dst.val then toF32 (reduce kind vs) else (s.ctxOf r).getS j) ∧
        (t.ctxOf r).a = (s.ctxOf r).a ∧ (t.ctxOf r).vl = (s.ctxOf r).vl ∧
        ∀ i, Tbl.lk {} (t.reed r.reed.val).mon i =
          if o.mon.map (·.val) = some i then (Tbl.lk {} y.mon i).add (inspect vs) else Tbl.lk {} y.mon i) ∧
    (s.Issues r [spV y k vd.val, spV y k a.val] →
      (s.At r .exec (.vstat r o vd a .init) → ∃ t, exec (.vstat r o vd a .init) s = .next t ∧ s.OnlyReed t r.reed.val ∧ t.v r vd.val = 0 ∧ s.SameVBut t r [spV y k vd.val] ∧
        s.SameScalars t r ∧ s.SameMemory t ∧ (t.reed r.reed.val).mon = y.mon) ∧
      (s.At r .exec (.vstat r o vd a .accum) → ∃ t, exec (.vstat r o vd a .accum) s = .next t ∧ s.OnlyReed t r.reed.val ∧
        t.v r vd.val = BitVec.ofNat 1024 (packBits 64 (vs.foldl statStep words)) ∧ s.SameVBut t r [spV y k vd.val] ∧ s.SameScalars t r ∧
        s.SameMemory t ∧
        ∀ i, Tbl.lk {} (t.reed r.reed.val).mon i =
          if o.mon.map (·.val) = some i then (Tbl.lk {} y.mon i).add (inspect vs) else Tbl.lk {} y.mon i) ∧
      (s.At r .exec (.vstat r o vd a .finish) → ∃ t, exec (.vstat r o vd a .finish) s = .next t ∧ s.OnlyReed t r.reed.val ∧
        t.v r vd.val = BitVec.ofNat 1024 (packBits 64 (statFinish words)) ∧ s.SameVBut t r [spV y k vd.val] ∧ s.SameScalars t r ∧
        s.SameMemory t ∧ (t.reed r.reed.val).mon = y.mon))

/-- R195, R196: the transcendental instructions write the function's value of every element below VL, and VRAND the Philox words of
purpose 3 that its S registers name. R198: VSMAX initialises, advances and finishes the row state of a group, and emits the normalised
scores. The model's own readings in it: entries 4, 5, 63, 73. -/
def Obligations.FunctionsAndSoftMaximum : Prop :=
  ∀ (s : State) (r : RR) (dst a st : Fin 32) (draw base tensor sd : Fin 16) (g : Fin 8),
    let k := r.ctx.val
    let y := s.reed r.reed.val
    let vl := (s.ctxOf r).vl.toNat
    let c := s.ctxOf r
    let e (n : Nat) : W32 := BitVec.ofNat 32 (s.elem r a .fp32 n)
    let row := rowOf (y.lanes k st.val .fp32) g.val
    0 < vl → vl ≤ 32 →
    (s.Issues r [spV y k a.val] →
      s.WritesLanes r (.vexp r dst a) dst .fp32 vl (fun n => (fpExp (e n)).toNat) ∧
      s.WritesLanes r (.vlog r dst a) dst .fp32 vl (fun n => (fpLog (e n)).toNat) ∧
      s.WritesLanes r (.vrsqrt r dst a) dst .fp32 vl (fun n => (fpRsqrt (e n)).toNat) ∧
      s.WritesLanes r (.vsigm r dst a) dst .fp32 vl (fun n => (fpSigm (e n)).toNat) ∧
      s.WritesLanes r (.vtanh r dst a) dst .fp32 vl (fun n => (fpTanh (e n)).toNat)) ∧
    (s.Issues r [spS k draw.val, spS k base.val, spS k tensor.val] → (c.getS draw.val).toNat < 2 ^ 24 →
      s.WritesLanes r (.vrand r dst draw base tensor) dst .fp32 vl (fun n =>
        (randWord (s.jobSeed r.reed.val) ((c.getS base.val).toNat + n) 3 (c.getS draw.val).toNat (c.getS tensor.val) (s.stepOf r.reed.val)).toNat)) ∧
    (s.Issues r [spV y k dst.val] →
      s.WritesLanes r (.vsmax r (.init dst g)) dst .fp32 32
        (fun n => (putRow (y.lanes k dst.val .fp32) g.val { m := 0xFF800000, l := 0, npos := 0, nnan := 0 }).getD n 0)) ∧
    (s.Issues r [spV y k dst.val, spV y k a.val] →
      s.WritesLanes r (.vsmax r (.accum dst a g)) dst .fp32 32
        (fun n => (putRow (y.lanes k dst.val .fp32) g.val
          ((rowOf (y.lanes k dst.val .fp32) g.val).accum (((y.lanes k a.val .fp32).take vl).map (BitVec.ofNat 32)))).getD n 0)) ∧
    (s.Issues r [spV y k a.val, spV y k st.val] →
      s.WritesLanes r (.vsmax r (.emit dst a st g)) dst .fp32 vl (fun n => (row.emit (e n)).toNat)) ∧
    (s.Issues r [spV y k st.val] →
      s.At r .exec (.vsmax r (.finish sd st g)) → ∃ t, exec (.vsmax r (.finish sd st g)) s = .next t ∧ s.OnlyReed t r.reed.val ∧ s.SameVBut t r [] ∧ s.SameMemory t ∧
        (∀ j, (t.ctxOf r).getS j = if j = sd.val then row.finish else (s.ctxOf r).getS j) ∧
        (t.reed r.reed.val).nanRows = (if row.nan = true then y.nanRows + 1 else y.nanRows) ∧
        (t.reed r.reed.val).infRows = (if row.nan = false ∧ row.posInf = true then y.infRows + 1 else y.infRows))

/-- R103, R147, R182, R197: VLD reads 128 bytes of the scratchpad into one register, and with CONSUME empties every slot that is not
PRIVATE and whose last word it reads; VST writes one register as 128 bytes and no other byte; VTILE takes into a register the next piece
of the oldest finished tile, its 32 elements in row order, or into an S register its extents, and with its piece 127 releases the tile.
R181: a vector instruction that VL governs and that issues with VL 0 or above the lanes of its format faults its section with
VECTOR_LENGTH, and writes nothing. Stated for VADD of a reed whose section is not running, where the fault is a SECONDARY entry of the log
alone (R410). The model's own readings in it: entries 71, 73. -/
def Obligations.VectorMemory : Prop :=
  (∀ (s : State) (r : RR) (reg : Fin 32) (sd : Fin 16) (ha : HA) (off : W32) (consume : Bool) (a q : Nat) (priv : Bool) (w : State),
    let k := r.ctx.val
    let y := s.reed r.reed.val
    (s.Issues r [] → (s.unfenced r).vmAddr r ha off false = .ok w (.spad q) a priv →
      s.At r .exec (.vld r reg ha off consume) → ∃ t, exec (.vld r reg ha off consume) s = .next t ∧ t.v r reg.val = BitVec.ofNat 1024 (leNat ((s.reed q).spad.read a 128)) ∧
        s.SameVBut t r [spV y k reg.val] ∧ s.SameScalars t r ∧ (∀ u b n, t.bytes u b n = s.bytes u b n) ∧
        ∀ u i, t.tag u i = if u = .spad q ∧ consume = true ∧ priv = false ∧ a ≤ 256 * i + 192 ∧ 256 * i + 192 < a + 128
          then Tag.empty else s.tag u i) ∧
    (s.Issues r [spV y k reg.val] → (s.unfenced r).vmAddr r ha off true = .ok w (.spad q) a priv →
      s.At r .exec (.vst r reg ha off) → ∃ t, exec (.vst r reg ha off) s = .next t ∧ s.SameVBut t r [] ∧ s.SameScalars t r ∧
        (t.reed q).spad = (s.reed q).spad.write a (leBytes 128 (s.v r reg.val).toNat) ∧ (∀ p, p ≠ q → (t.reed p).spad = (s.reed p).spad) ∧
        (∀ u i, t.tag u i = s.tag u i)) ∧
    (∀ f rest, s.Issues r [] → y.fin = f :: rest →
      (s.At r .exec (.vtile r (.s sd)) → ∃ t, exec (.vtile r (.s sd)) s = .next t ∧ s.SameVBut t r [] ∧ s.SameMemory t ∧ (t.reed r.reed.val).fin = y.fin ∧
        ∀ j, (t.ctxOf r).getS j = if j = sd.val then BitVec.ofNat 32 (f.rows * 256 + f.cols) else (s.ctxOf r).getS j) ∧
      (s.At r .exec (.vtile r (.v reg)) → ∃ t, exec (.vtile r (.v reg)) s = .next t ∧ s.SameScalars t r ∧ s.SameVBut t r [spV y k reg.val] ∧
        (t.reed r.reed.val).lanes k reg.val .fp32 = (List.range 32).map (fun n =>
          (Tbl.lk 0 (y.accTile f.acc).el (64 * (f.piece / 2) + 32 * (f.piece % 2) + n)).toNat) ∧
        (if f.piece < 127 then (t.reed r.reed.val).fin = { f with piece := f.piece + 1 } :: rest ∧ (t.reed r.reed.val).acc = y.acc
         else (t.reed r.reed.val).fin = rest ∧ (t.reed r.reed.val).accTile f.acc = { y.accTile f.acc with held := false })))) ∧
  (∀ (s : State) (r : RR) (o : VOpt) (dst a b : Fin 32),
    s.Issues r (vSpecs (s.reed r.reed.val) r.ctx.val a.val o.fmt ++ vSpecs (s.reed r.reed.val) r.ctx.val b.val o.fmt) →
    ((s.ctxOf r).vl = 0 ∨ fmtLanes o.fmt < (s.ctxOf r).vl.toNat) → ∀ p, s.partOf r.reed.val = some p → (s.part p).run = none → (s.part p).faultNote = none →
      s.At r .exec (.vadd r o dst a b) → ∃ t e, exec (.vadd r o dst a b) s = .next t ∧ s.SameScalars t r ∧ s.SameVBut t r [] ∧ s.SameMemory t ∧
        t.log.ring.getLast? = some e ∧ e.secondary = true ∧ e.cause = SCause.vectorLength.code ∧ (t.ctxOf r).pc = (s.ctxOf r).pc)

/-! ### Events of the reeds (R42, R50 to R54, R74, R83 to R88, R253, R327, R441) -/

/-- R83, R85, R87: FIRING_START begins the next firing of the block once nothing keeps it: the body begins after the guards, FIRING takes
the firing's index within its block, a firing that starts after its slack is counted, one that is sampled leaves its record, and no memory
changes; a body that holds nothing for the execute engine ends at once; an unmet condition is recorded as the reed's wait and nothing starts.
The model's own readings in it: entries 121, 136. -/
def Obligations.FiringStarts : Prop :=
  ∀ (s : State) (q : Fin 6144) (h : FireHdr),
    let x := s.reed q.val
    let due := (x.firetAt x.block).1 + x.nextJ * (x.firetAt x.block).2 + h.slack
    let stop := x.block + 2 + h.guards + h.body
    x.status = .running → x.inBody = false → x.threads = 0 → x.issued = false → x.started = false → x.fireAt x.block = some h →
    (s.firingWait q.val h = .holds →
      ∃ t, exec (.firingStart q) s = .next t ∧ s.OnlyReed t q.val ∧ s.SameMemory t ∧ (t.reed q.val).v = x.v ∧ (t.reed q.val).ops = x.ops ∧
        (t.reed q.val).j = BitVec.ofNat 32 x.nextJ ∧ ((t.reed q.val).context 0).s = (x.context 0).s ∧
        (t.reed q.val).slack = (if due < x.cycle then BitVec.ofNat 32 (satAdd 32 x.slack.toNat 1) else x.slack) ∧
        (t.reed q.val).samples = (if sampled x.csCtl x.firing.toNat
          then x.samples ++ [s.record q.val s.timeBase x.prior x.waitCycles x.firing.toNat] else x.samples) ∧
        if x.bodyPc x.block = stop then (t.reed q.val).inBody = false ∧ (t.reed q.val).firing = x.firing + 1
        else (t.reed q.val).inBody = true ∧ (t.reed q.val).bodyEnd = stop ∧ (t.reed q.val).firing = x.firing ∧
          ((t.reed q.val).context 0).pc = BitVec.ofNat 11 (x.bodyPc x.block)) ∧
    (∀ c, s.firingWait q.val h = .unmet c →
      ∃ t, exec (.firingStart q) s = .next t ∧ s.OnlyReed t q.val ∧ s.SameMemory t ∧ (t.reed q.val).inBody = false ∧
        (t.reed q.val).nextJ = x.nextJ ∧ ((t.reed q.val).context 0).wait = some c)

/-- R50, R51, R441: in a reed cycle of a tussock whose clocks run and whose reeds have nothing to do by themselves (no core-sample record, no
matrix operation without its effect, no transposed load, no record for the control core), exactly one idle counter of each of its 24 reeds
counts, that of the cause R51 gives the reed, modulo 2^56, and its next cycle begins; every other reed, every other tussock and everything
else stay. R327: CLOCK_GATE closes the gate of a unit without work and changes nothing else. R88, R149: OPERATION_COMPLETE of a vector
operation, or of a store whose acknowledgements have all come, takes it off the operations outstanding; of the oldest matrix operation,
whose effect is made, takes it off the engine, an MSUMP releasing its tile and a MOUT leaving its operation to its last piece. No register
and no memory changes but the tile's hold. The model's own readings in it: entries 38, 63, 124. -/
def Obligations.ReedEventsComplete : Prop :=
  (∀ (s : State) (t : Fin 256) (r : Fin 6144) (b : Fin 32) (p : Fin 16),
    (s.fenHeld (fenOf t.val) = false →
      (∀ q, tusOf q = t.val → (s.reed q).samples = [] ∧ (s.reed q).ringBlocks = false ∧ (s.reed q).csWait = [] ∧
        (∀ m, m ∈ (s.reed q).matq → m.done = true) ∧ ((s.reed q).status = .drain → (s.reed q).told = true)) →
      (∀ x, x ∈ s.xfers → tusOf x.reed = t.val → x.mode ≠ 2) → (s.tus1 t.val).groups = [] →
      ∃ u, exec (.reedCycle t) s = .next u ∧ { u with reeds := s.reeds, tus := s.tus } = s ∧
        (∀ w, u.tus1 w = if w = t.val then (s.tus1 w).tick else s.tus1 w) ∧
        ∀ q, u.reed q = if tusOf q = t.val then Reed.tick { s.reed q with
            idle := Tbl.up (s.reed q).idle (s.idleCause q).code (Tbl.lk 0 (s.reed q).idle (s.idleCause q).code + 1), prior := s.idleCause q }
          else s.reed q) ∧
    (s.fenHeld (fenOf t.val) = true → exec (.reedCycle t) s = .next s) ∧
    ((s.reed r.val).issued = false → s.advances r.val = false →
      exec (.clockGate (.reed r)) s = .next (s.setReed r.val { s.reed r.val with gated := true })) ∧
    ((s.reed r.val).matq = [] → exec (.clockGate (.matrix r)) s = .next (s.setReed r.val { s.reed r.val with matGated := true })) ∧
    exec (.clockGate (.bank t b)) s =
      .next (s.setTus t.val { s.tus1 t.val with gatedBanks := addOnce (s.tus1 t.val).gatedBanks b.val }) ∧
    ((s.path t.val p.val).ctl.toks = [] → exec (.clockGate (.path t p)) s =
      .next (s.setTus t.val { s.tus1 t.val with gatedPaths := addOnce (s.tus1 t.val).gatedPaths p.val }))) ∧
  (∀ (s : State) (q : Fin 6144) (id : Nat) (o : OpRec),
    let x := s.reed q.val
    let left := x.ops.filter (fun p => p.id != id)
    x.ops.find? (fun p => p.id == id) = some o → (∀ m, m ∈ x.matq → m.done = true) →
    ((o.kind = .vector ∨ (o.kind = .store ∧ o.acks = 0)) →
      ∃ t, exec (.operationComplete q id) s = .next t ∧ s.OnlyReed t q.val ∧ s.SameMemory t ∧ (t.reed q.val).v = x.v ∧
        (t.reed q.val).ctx = x.ctx ∧ (t.reed q.val).ops = left ∧ (t.reed q.val).matq = x.matq) ∧
    (∀ m rest, o.kind = .matrix → x.matq = m :: rest → m.op = id → s.sumpWaits q.val (· == id) = false →
      ∃ t, exec (.operationComplete q id) s = .next t ∧ s.OnlyReed t q.val ∧ (t.reed q.val).spad = x.spad ∧ (t.reed q.val).v = x.v ∧
        (t.reed q.val).ctx = x.ctx ∧ (t.reed q.val).matq = rest ∧
        (match m.kind with
          | .mout _ => (t.reed q.val).ops = x.ops ∧ (t.reed q.val).acc = x.acc
          | .msump a _ _ _ => (t.reed q.val).ops = left ∧ (t.reed q.val).accTile a = { x.accTile a with held := false }
          | _ => (t.reed q.val).ops = left ∧ (t.reed q.val).acc = x.acc)))

/-- R42, R74, R78, R87: the start token takes effect in a section that may start and whose tussocks all hold it: its reeds stand at the start of a step, with the
registers and loop counters 0, VL 32, the engines running from their first words, and the section runs. R52, R253: a tussock that holds a
snapshot broadcast whose APPLY has come and that lies in its scope latches its reeds' counters, one by one or all together; one that holds
the armed notice of its section acknowledges it (R72). R389, R390:
when the latched counters of a snapshot have been summed, the totals of its scope stand in SNAP_TOTAL, the snapshot is over and
SNAPSHOT_SEQ has risen by one. Stated for a snapshot behind which none waits. The model's own readings in it: entries 75, 83, 94. -/
def Obligations.StartsAndSnapshots : Prop :=
  (∀ (s : State) (p : Fin 8) (r : Run) (u : Fin 256) (apply : W32) (v : W64),
    ((s.part p.val).run = some r → s.mayStart r = true → s.inMire = false → s.tokenHeld p.val r.sec = true → r.sec.reeds.Nodup →
      ∃ t x, exec (.startToken p) s = .next t ∧ (t.part p.val).run = some x ∧ x.phase = .running ∧ x.step = r.step ∧
        (∀ q, q ∈ r.sec.reeds → t.reed q = (s.reed q).start) ∧ (∀ q, q ∉ r.sec.reeds → t.reed q = s.reed q) ∧ t.hbmStacks = s.hbmStacks ∧
        ∀ w, (t.tus1 w).pool = (s.tus1 w).pool) ∧
    (∀ x : Reed, x.start.status = .running ∧ x.start.v = [] ∧ x.start.j = 0 ∧ x.start.cycle = 0 ∧ x.start.spad = x.spad ∧
      ∀ k, k < (if x.threads = 0 then 1 else x.threads) →
        x.start.context k = { pc := BitVec.ofNat 11 (if x.threads = 0 then x.bodyPc 0 else 512 * k) }) ∧
    ((s.tus1 u.val).bcasts = [(apply, 4, v)] → s.due apply = true → s.inScope (v.toNat / 2 ^ 32) u.val = true →
      ∃ t, exec (.broadcastApply u) s = .next t ∧ (t.tus1 u.val).bcasts = [] ∧ t.parts = s.parts ∧
        ∀ q, t.reed q = if tusOf q = u.val then (s.reed q).latch s.snapTime (bit v.toNat 63) else s.reed q) ∧
    ((s.tus1 u.val).bcasts = [(apply, 1, v)] → s.due apply = true → (s.tus1 u.val).owner = some (v.toNat % 8) →
      exec (.broadcastApply u) s = .next (State.snapLatched ((s.modTus u.val (fun x => { x with bcasts := [] })).rillSend
        { destT := 240 * bits v.toNat 3 3, port := 26, type := 1, epoch := (s.tus1 u.val).epoch,
          words := [BitVec.ofNat 32 (8 * u.val + v.toNat % 8)], srcT := u.val }))) ∧
    (∃ t, exec .rillSnapshot s = .next t ∧ t.parts = s.parts ∧ ∀ q, q < 6144 → t.reed q =
      ((s.tus1 (tusOf q)).bcasts.filter (fun b => s.due b.1 && b.2.1 == 4 && s.inScope (b.2.2.toNat / 2 ^ 32) (tusOf q))).foldl
        (fun x b => x.latch s.snapTime (bit b.2.2.toNat 63)) (s.reed q))) ∧
  (∀ (s : State) (k : Snap), s.snap = some k → s.snapWait = [] → s.snapPending = false →
      ∃ t, exec .snapshotCompleted s = .next t ∧ t.snap = none ∧ s.Counts t 0x7000 2 32 1 ∧ t.reeds = s.reeds ∧ t.tus = s.tus ∧
        ∀ n, n < 16 → t.get 0x7010 (n + 1) =
          sumOf ((((List.range 256).filter (s.inScope k.value.toNat)).flatMap (fun u => upto (24 * u) 24)).map
            (fun q => (Tbl.lk 0 (s.reed q).idleSnap n).toNat)) % 2 ^ 64)

/-! ### What arrives over the dyke mesh (R71, R88, R103, R104, R113, R118 to R125, R229) -/

/-- R103, R104, R110: a fill write that finds its slot EMPTY, is granted its banks and has no acknowledgement to send writes its 256 bytes, or as many as it carries,
and turns the slot FULL; one that finds its slot not EMPTY is held, unless the hold buffer is full, and a held one proceeds once its slot
is EMPTY and its banks are granted. No other byte and no other tag changes. Stated for scratchpads. R88: an acknowledgement brings its operation one nearer to its
end. The model's own readings in it: entry 121. -/
def Obligations.FillsLand : Prop :=
  ∀ (s v : State) (u : Fin 256) (k q : Nat) (p : Pkt) (w : FillW) (m : Fin 6144),
    w.space = .spad q → w.plain = false → w.ack = none →
    (s.arrival (.tus u) k = some p → p.pay = .fill w none 0 → s.fresh? p u.val = true →
      (s.tag (.spad q) w.slot = .empty → s.Grants (.spad q) (256 * w.slot + w.off) w.data.length 1 v →
        ∃ t, exec (.fillWriteArrive (.tus u) k) s = .next t ∧ t.arrivals (.tus u) = dropAt (s.arrivals (.tus u)) k ∧
          (t.reed q).spad = (s.reed q).spad.write (256 * w.slot) w.data ∧ (∀ r, r ≠ q → (t.reed r).spad = (s.reed r).spad) ∧
          (∀ sp i, t.tag sp i = if sp = .spad q ∧ i = w.slot then .full else s.tag sp i) ∧ t.hbmStacks = s.hbmStacks ∧
          (t.reed q).v = (s.reed q).v ∧ (t.reed q).ctx = (s.reed q).ctx) ∧
      (s.tag (.spad q) w.slot = .full → (s.reed q).hold.length < 4 →
        ∃ t, exec (.fillWriteArrive (.tus u) k) s = .next t ∧ s.SameMemory t ∧
          (t.reed q).hold = (s.reed q).hold ++ [{ w with plane := p.plane }] ∧ t.arrivals (.tus u) = dropAt (s.arrivals (.tus u)) k)) ∧
    (q = m.val → (s.reed q).hold[k]? = some w → s.tag (.spad q) w.slot = .empty →
      s.Grants (.spad q) (256 * w.slot + w.off) w.data.length 1 v →
      ∃ t, exec (.heldFillRelease (.reed m) k) s = .next t ∧ (t.reed q).hold = dropAt (s.reed q).hold k ∧
        (t.reed q).spad = (s.reed q).spad.write (256 * w.slot) w.data ∧ (∀ r, r ≠ q → (t.reed r).spad = (s.reed r).spad) ∧
        (∀ sp i, t.tag sp i = if sp = .spad q ∧ i = w.slot then .full else s.tag sp i)) ∧
    (∀ op o, s.arrival (.tus u) k = some p → p.pay = .ack m.val op → (s.reed m.val).ops.find? (fun x => x.id == op) = some o →
      ∃ t, exec (.writeAckArrive (.tus u) k) s = .next t ∧ s.SameMemory t ∧ (t.reed m.val).ctx = (s.reed m.val).ctx ∧
        (t.reed m.val).ops = if o.acks ≤ 1 then (s.reed m.val).ops.filter (fun x => x.id != op)
          else (s.reed m.val).ops.map (fun x => if x.id = op then { x with acks := o.acks - 1 } else x))

/-- R103, R113: a read request that reaches a pool opens a merge group, where none open reads the same slots; a group of an HBM4
controller whose window is over leaves it, and one of a pool none of whose groups has a FULL slot to read is closed and keeps waiting; a slot
read for a load, alone or merged for two reeds, lands, at its turn and with its banks granted, in the EMPTY slot of the scratchpad that its
descriptor names, which turns FULL, and the descriptor counts it. The model's own readings in it: entries 67, 121. -/
def Obligations.ReadsAreServed : Prop :=
  ∀ (s y z : State) (u : Fin 256) (i : Fin 8) (k g id idx q : Nat) (p : Pkt) (x : Xfer) (data : List Byte) (h : Group),
    (∀ v, s.arrival (.tus u) k = some p → p.pay = .readReq id → s.xfer? id = some x → x.src = .pool v →
      (∀ e, e ∈ (s.tus1 v).groups → e.takes x (s.tus1 v).cycles = false) →
      ∃ t, exec (.readRequestArrive (.tus u) k []) s = .next t ∧ s.SameMemory t ∧ t.reeds = s.reeds ∧ t.xfers = s.xfers ∧
        (t.tus1 v).groups = (s.tus1 v).groups ++ [Group.ofXfer (s.tus1 v).nextGroup x ((s.tus1 v).cycles + 4)]) ∧
    ((s.stack i.val).groups.find? (fun e => e.id == g && decide (e.until_ ≤ s.meshNow)) = some h →
      ∃ t, exec (.mergeGroupClose (.hbm i) g) s = .next t ∧ s.SameMemory t ∧ t.reeds = s.reeds ∧ t.xfers = s.xfers ∧
        (t.stack i.val).groups = (s.stack i.val).groups.filter (fun e => e.id != g)) ∧
    ((∀ e, e ∈ (s.tus1 u.val).groups → e.next < e.slots ∧ s.tag (.pool u.val) (e.slot e.next) ≠ .full) →
      ((s.tus1 u.val).groups.map (fun e => e.id)).Nodup →
      ∃ t, exec (.mergeGroupClose (.tus u) g) s = .next t ∧ s.SameMemory t ∧ t.reeds = s.reeds ∧
        (t.tus1 u.val).groups = (s.tus1 u.val).groups.map (fun e => if e.id = g ∧ e.until_ ≤ (s.tus1 u.val).cycles then { e with isOpen := false } else e)) ∧
    (s.arrival (.tus u) k = some p → p.pay = .readResp id idx data → s.xfer? id = some x → x.dst = .spad q → x.mode ≠ 2 →
      x.inTurn idx = true → s.tag (.spad q) (x.dstSlot idx) = .empty → s.Grants (.spad q) (256 * x.dstSlot idx) 256 1 y →
      ∃ t, exec (.readResponseArrive u k) s = .next t ∧ t.arrivals (.tus u) = dropAt (s.arrivals (.tus u)) k ∧
        (t.reed q).spad = (s.reed q).spad.write (256 * x.dstSlot idx) data ∧ (∀ r, r ≠ q → (t.reed r).spad = (s.reed r).spad) ∧
        (∀ sp n, t.tag sp n = if sp = .spad q ∧ n = x.dstSlot idx then .full else s.tag sp n) ∧ t.hbmStacks = s.hbmStacks ∧
        (if x.slots ≤ (addOnce x.got idx).length then t.xfers.all (fun f => f.id != id) = true
         else t.xfer? id = some { x with got := addOnce x.got idx, done := Nat.max x.done (idx + 1) })) ∧
    (∀ id' x' q', s.arrival (.tus u) k = some p → p.pay = .merged [id, id'] idx data → s.xfer? id = some x → s.xfer? id' = some x' →
      id ≠ id' → x.dst = .spad q → x'.dst = .spad q' → q ≠ q' → x.mode ≠ 2 → x'.mode ≠ 2 →
      x.inTurn idx = true → x'.inTurn idx = true → s.tag (.spad q) (x.dstSlot idx) = .empty → s.tag (.spad q') (x'.dstSlot idx) = .empty →
      s.Grants (.spad q) (256 * x.dstSlot idx) 256 1 y → (y.landSlot x idx data).Grants (.spad q') (256 * x'.dstSlot idx) 256 1 z →
      ∃ t, exec (.mergedReadResponseArrive u k) s = .next t ∧ t.arrivals (.tus u) = dropAt (s.arrivals (.tus u)) k ∧
        (t.reed q).spad = (s.reed q).spad.write (256 * x.dstSlot idx) data ∧
        (t.reed q').spad = (s.reed q').spad.write (256 * x'.dstSlot idx) data ∧
        (∀ r, r ≠ q → r ≠ q' → (t.reed r).spad = (s.reed r).spad) ∧
        (∀ sp n, t.tag sp n = if (sp = .spad q ∧ n = x.dstSlot idx) ∨ (sp = .spad q' ∧ n = x'.dstSlot idx) then .full else s.tag sp n))

/-- R71, R118, R125, R229: a queue token of its tussock's epoch that arrives is the last of its input queue, and a null packet brings
PACKET_TOKENS tokens at once; a token of another epoch is discarded. A trickle batch of one transfer that is granted its banks fills its EMPTY slot, and a batch
that closes, 32 mesh cycles after its first transfer, leaves as one packet on plane DEST_X mod 2. R121: a pointer check that passes changes nothing, and one that fails empties its
queue; stated for a reed of no section. The model's own readings in it: entries 75, 121, 129. -/
def Obligations.TokensArrive : Prop :=
  ∀ (s v : State) (u d : Fin 256) (k q n : Nat) (r : Fin 6144) (c : Fin 8) (p : Pkt) (tok : Token) (seq : BitVec 24) (w : FillW) (t0 : W64)
      (ws : List FillW) (wr wr2 rd rd2 : BitVec 6),
    let x := s.inq r.val q
    (s.arrival (.tus u) k = some p → p.pay = .token tok (.queue r.val q) →
      (s.fresh? p u.val = true → x.dropping = false →
        ∃ t, exec (.queueTokenArrive (.tus u) k) s = .next t ∧ t.arrivals (.tus u) = dropAt (s.arrivals (.tus u)) k ∧ s.SameMemory t ∧
          (t.inq r.val q).toks = x.toks ++ [tok] ∧ (t.inq r.val q).wr = x.wr + 1 ∧ (t.inq r.val q).wr2 = x.wr2 + 1) ∧
      (s.fresh? p u.val = false →
        ∃ t, exec (.queueTokenArrive (.tus u) k) s = .next t ∧ t.arrivals (.tus u) = dropAt (s.arrivals (.tus u)) k ∧ s.SameMemory t ∧
          t.reeds = s.reeds)) ∧
    (s.arrival (.tus u) k = some p → p.pay = .null n seq (.queue r.val q) → s.fresh? p u.val = true → x.dropping = false →
      ∃ t, exec (.nullPacketArrive u k) s = .next t ∧ t.arrivals (.tus u) = dropAt (s.arrivals (.tus u)) k ∧ s.SameMemory t ∧
        (t.inq r.val q).toks = x.toks ++ nullToks n p.epoch seq) ∧
    (s.arrival (.tus u) k = some p → p.pay = .trickle [w] → s.fresh? p u.val = true → w.space = .spad r.val → w.plain = false → w.ack = none →
      s.tag (.spad r.val) w.slot = .empty → s.Grants (.spad r.val) (256 * w.slot + w.off) w.data.length 4 v →
      ∃ t, exec (.trickleBatchArrive u k) s = .next t ∧ t.arrivals (.tus u) = dropAt (s.arrivals (.tus u)) k ∧
        (t.reed r.val).spad = (s.reed r.val).spad.write (256 * w.slot) w.data ∧
        (∀ sp i, t.tag sp i = if sp = .spad r.val ∧ i = w.slot then .full else s.tag sp i)) ∧
    (Tbl.lk? (s.tus1 u.val).batches d.val = some (t0, ws) → t0.toNat + 32 ≤ s.timeBase.toNat →
      ∃ t, exec (.trickleBatchClose u d) s = .next t ∧ (t.tus1 u.val).batches = Tbl.del (s.tus1 u.val).batches d.val ∧ s.SameMemory t ∧
        t.reeds = s.reeds ∧
        (u ≠ d → ∃ e, t.waiting ((d.val / 16) % 2) u.val = s.waiting ((d.val / 16) % 2) u.val ++ [e] ∧ e.pay = .trickle ws ∧ e.dst = .tus d)) ∧
    (Tbl.lk? (s.tus1 u.val).batches d.val = some (t0, ws) → s.timeBase.toNat < t0.toNat + 32 → exec (.trickleBatchClose u d) s = .next s) ∧
    (pointersOk wr wr2 rd rd2 = true → exec (.queuePointer (.inQueue r c) wr wr2 rd rd2) s = .next s) ∧
    (pointersOk wr wr2 rd rd2 = false → s.partOf r.val = none →
      ∃ t, exec (.queuePointer (.inQueue r c) wr wr2 rd rd2) s = .next t ∧ (t.inq r.val c.val).toks = [] ∧ (t.inq r.val c.val).wr = 0 ∧
        (t.inq r.val c.val).rd = 0 ∧ s.SameMemory t)

/-- R124, R125: a path that forwards no packet and whose control head and data packets are present, in sequence, with a selector in range and
credits for every destination, takes them and counts; a path that is forwarding takes of each input what has come of the packet, and ends
the packet only when all of it has passed. In split mode the selected endpoint's queue, where it is a queue of the tussock that drops nothing and
that no other endpoint of the path names, receives the packet, and every other such queue a null packet of as many tokens. R226, R227,
R237: a retry that succeeds takes its record away, counts a transient error and delivers the tile, a privileged channel's into its stream
engine's hand; the head descriptor of a privileged channel, which nothing holds, sends its next slot once its bucket holds 256 bytes, and
pays for it. No byte of a scratchpad or a pool changes. The model's own readings in it: entries 22, 79, 121. -/
def Obligations.SluicesAndTierReads : Prop :=
  (∀ (s : State) (u : Fin 256) (p : Fin 16) (c : Token) (ct : List Token),
    let x := s.path u.val p.val
    let n := x.packetTokens
    let sel := c.data.toNat % 16
    let toks := fun (i : Nat) => (Tbl.lk {} x.data i).toks
    (∀ f, x.mode ≠ .off → x.fwd = some f →
      ∃ t, exec (.sluicePair u p) s = .next t ∧ s.SameMemory t ∧
        (∀ i, i < x.inputs.length → (Tbl.lk {} (t.path u.val p.val).data i).toks = (toks i).drop (x.ready i).length) ∧
        if ∀ i, i < x.inputs.length → n ≤ Tbl.lk 0 x.sent i + (x.ready i).length
        then (t.path u.val p.val).fwd = none ∧ (t.path u.val p.val).k = x.k + 1 ∧ (t.path u.val p.val).ctl.toks = x.ctl.toks.drop 1
        else (t.path u.val p.val).fwd = some f ∧ (t.path u.val p.val).k = x.k ∧ (t.path u.val p.val).ctl = x.ctl) ∧
    (x.mode ≠ .off → x.fwd = none → x.sent = [] → 0 < n → x.ctl.toks = c :: ct → c.seq = x.k → c.data.toNat % 2 ^ 32 < 16 → sel ≤ x.fanM1 →
      (∀ i, i < x.inputs.length → n ≤ (toks i).length ∧ ∀ e, (toks i).head? = some e → e.seq = x.k) →
      (∀ i, i < x.dests.length → n ≤ Tbl.lk 32 x.cr i) →
      ∃ t, exec (.sluicePair u p) s = .next t ∧ s.SameMemory t ∧ (t.path u.val p.val).ctl.toks = ct ∧ (t.path u.val p.val).k = x.k + 1 ∧
        (∀ i, i < x.inputs.length → (Tbl.lk {} (t.path u.val p.val).data i).toks = (toks i).drop n) ∧
        (x.mode = .split → ∀ i, i ≤ x.fanM1 →
          let e := s.endpoint u.val (x.epBase + i)
          tusOf e.reed = u.val → (s.inq e.reed e.queue).dropping = false →
          (∀ j, j ≤ x.fanM1 → j ≠ i → ((s.endpoint u.val (x.epBase + j)).reed, (s.endpoint u.val (x.epBase + j)).queue) ≠ (e.reed, e.queue)) →
          (t.inq e.reed e.queue).toks = (s.inq e.reed e.queue).toks ++
            (if i = sel then (toks 0).take n else nullToks n (s.tus1 u.val).epoch x.k)))) ∧
  (∀ (s : State) (rr : RetryRec) (x : Xfer) (ds : List HostData) (u : State) (b : List Byte) (p : Fin 8) (chan unit : Fin 4) (d : HostData),
    (s.retries.find? (fun r => r.xfer == x.id) = some rr → s.xfer? x.id = some x → x.chan ≠ 0 → x.chan ≠ 2 →
      ({ s with retries := s.retries.filter (fun r => r.xfer != x.id) }).tierRead x.part x.src (x.srcAddr rr.idx) (dataOr x.src ds) = .ok u b →
      ∃ t, exec (.tierReadRetry x.id ds) s = .next t ∧ t.retries = s.retries.filter (fun r => r.xfer != x.id) ∧ s.Counts t 0x7400 1 32 1 ∧
        t.reeds = s.reeds ∧ t.tus = s.tus ∧
        t.xfer? x.id = some { x with buf := b, sent := rr.idx, retry := false } ∧ ∀ j, j ≠ x.id → t.xfer? j = s.xfer? j) ∧
    (s.chanHead p.val chan.val unit.val = some x → chan.val ≠ 0 → x.halted = false → x.trans = false → x.retry = false →
      256 ≤ (s.bucket p.val chan.val unit.val).tokens →
      (chan.val ≠ 2 → x.buf ≠ [] →
        ∃ t, exec (.streamSlotSend p chan unit d) s = .next t ∧ s.SameMemory t ∧ t.reeds = s.reeds ∧
          t.xfers = s.xfers.map (fun y => if y.id = x.id then { y with sent := x.sent + 1, buf := if x.sent % 18 = 17 then [] else x.buf } else y) ∧
          (t.bucket p.val chan.val unit.val).tokens = (s.bucket p.val chan.val unit.val).tokens - 256) ∧
      (∀ e, chan.val = 2 → x.mode ≠ 2 → x.sent % 18 ≠ 17 → s.backData x x.sent d = .ok u e →
        ∃ t, exec (.streamSlotSend p chan unit d) s = .next t ∧ s.SameMemory t ∧ t.reeds = s.reeds ∧
          t.xfers = u.xfers.map (fun y => if y.id = x.id then { y with sent := x.sent + 1, buf := x.buf ++ e } else y) ∧
          (t.bucket p.val chan.val unit.val).tokens = (s.bucket p.val chan.val unit.val).tokens - 256)))

/-! ### Checked memories and the tiers (R114 to R116, R133, R225 to R239, R357) -/

/-- R114 to R116, R133, R236, R357: a second read that succeeds is logged as transient and its data is usable 3 reed cycles later; a retest
that fails takes its unit out of service; the scrubber reads the next word of an idle bank and moves on, a corrected word is counted, and
an uncorrectable one that no section uses is rewritten with zeros; a corrected word delays its reader by 2 reed cycles and changes no byte; a
clean second read of HBM4 is counted; a
released range that has been zeroed reads as zero and is free. The model's own readings in it: entries 78, 82, 121. -/
def Obligations.MemoryChecks : Prop :=
  ∀ (s : State) (r : Fin 6144) (w : Nat) (i : Fin 8) (g idx a n : Nat) (rest : List (Nat × Nat)) (h : Group) (l : RetestLoc),
    (∃ t, exec (.eccRetryRead (.spad r w) true) s = .next t ∧
      t.reed r.val = { s.reed r.val with corr := Tbl.up (s.reed r.val).corr w 3 } ∧ (∀ q, q ≠ r.val → t.reed q = s.reed q) ∧ t.tus = s.tus ∧ t.hbmStacks = s.hbmStacks ∧ t.parts = s.parts ∧
      ∃ e, e ∈ t.log.ring ∧ e.cls = 0 ∧ e.cause = 0x0100 ∧ e.unit = reedUnit r.val) ∧
    (∃ t, exec (.memoryRetest l false) s = .next t ∧ t.reeds = s.reeds ∧ t.tus = s.tus ∧ t.hbmStacks = s.hbmStacks ∧
      t.isOut (match l with | .word e => e.info.2.1 | .hbmRegion j b => hbmUnit j.val b) = true) ∧
    (∀ f, s.scrubs (.spad r w) = false → exec (.scrubWord (.spad r w) f) s = .next s) ∧
    (s.scrubs (.spad r w) = true →
      exec (.scrubWord (.spad r w) .clean) s = .next (s.scrubbed (.spad r w)) ∧
      exec (.scrubWord (.spad r w) .corrected) s = .next ((s.scrubbed (.spad r w)).bump 0x6040 2)) ∧
    (s.scrubs (.spad r w) = true → (s.tus1 (tusOf r.val)).owner = none →
      ∃ t, exec (.scrubWord (.spad r w) .uncorrectable) s = .next t ∧ (t.reed r.val).spad = (s.reed r.val).spad.write (64 * w) (rep 64 0) ∧
        (t.reed r.val).tags = (s.reed r.val).tags ∧ (∀ q, q ≠ r.val → t.reed q = s.reed q) ∧ s.Counts t 0x6040 3 32 1) ∧
    exec (.correctedWordWriteBack (.spad r w)) s = .next (s.setReed r.val { s.reed r.val with corr := Tbl.up (s.reed r.val).corr w 2 }) ∧
    ((s.stack i.val).groups.find? (fun e => e.id == g) = some h →
      ∃ t, exec (.hbmReread i g idx true) s = .next t ∧ t.hbmStacks = s.hbmStacks ∧ t.reeds = s.reeds ∧ s.Counts t 0x7400 1 32 1) ∧
    ((s.stack i.val).zeroing = (a, n) :: rest →
      ∃ t, exec (.placementZeroingComplete i) s = .next t ∧ (t.stack i.val).zeroing = rest ∧ t.reeds = s.reeds ∧ t.tus = s.tus ∧
        (∀ b, (t.stack i.val).mem.get b = if a ≤ b ∧ b < a + n then 0 else (s.stack i.val).mem.get b) ∧
        ∀ j, j ≠ i.val → t.stack j = s.stack j)

/-! ### Limits that fault a section (R70, R75, R233, R239, R279, R286, R298, R307, R408) -/

/-- R70, R75, R233, R239, R279, R286, R298, R307, R408: a fault notice of a peer, and a limit that has expired, of a drain, of progress,
of a page request, of a resupply entry, of a window, of a sump slot, of a hold, fault the section; each changes nothing before it has
expired. The model's own readings in it: entries 37, 121. -/
def Obligations.ExpiredLimitsFault : Prop :=
  ∀ (s : State) (p : Fin 8) (u : Run) (n : Fin 24) (k idx group g q id : Nat) (m : RillMsg) (e : Resup) (pr : PageReq) (port : Fin 2) (x : Xfer)
      (d : GroupDecl) (sl : SumpSlot) (w : W64) (gi : Fin 16) (mc : Mcast) (mg : Fin 32),
    (s.part p.val).run = some u →
    ((s.mireMail (some n))[k]? = some m → m.type = 7 → (m.w 0).toNat % 8 = p.val → s.fp p.val = m.fp →
      ∃ t, exec (.faultNotice n k) s = .next t ∧ s.SectionFaulted t p.val .peerSectionFault) ∧
    (u.phase = .running → u.ended = some w → s.drained p.val u.sec = false →
      (s.past u.ended u.sec.drainLimit = true → ∃ t, exec (.drainLimit p) s = .next t ∧ s.SectionFaulted t p.val .drainLimit) ∧
      (s.past u.ended u.sec.drainLimit = false → exec (.drainLimit p) s = .next s)) ∧
    (u.phase = .running → s.allEnded u.sec = false → s.held p.val u.sec = false →
      (s.past (some u.progress) (msCycles (s.get 0x5010 3)) = true →
        ∃ t, exec (.progressLimit p) s = .next t ∧ s.SectionFaulted t p.val .progressLimit) ∧
      (s.past (some u.progress) (msCycles (s.get 0x5010 3)) = false → exec (.progressLimit p) s = .next s)) ∧
    ((s.port port.val).reqs.find? (fun r => r.group == group && r.outstanding) = some pr → s.xfer? pr.xfer = some x →
      s.partOf x.reed = some p.val →
      (pr.sent.toNat + msCycles pr.limit ≤ s.timeBase.toNat →
        ∃ t, exec (.pageRequestLimit port group) s = .next t ∧ s.SectionFaulted t p.val .hostPage) ∧
      (s.timeBase.toNat < pr.sent.toNat + msCycles pr.limit → exec (.pageRequestLimit port group) s = .next s)) ∧
    ((s.part p.val).resup.find? (fun r => r.idx == idx) = some e →
      (e.opened.toNat + msCycles e.limit < s.timeBase.toNat →
        ∃ t, exec (.resupplyLimit p idx) s = .next t ∧ s.SectionFaulted t p.val .resupplyLimit) ∧
      (s.timeBase.toNat ≤ e.opened.toNat + msCycles e.limit → exec (.resupplyLimit p idx) s = .next s)) ∧
    (s.xfer? id = some x → s.partOf x.reed = some p.val → x.halted = true → x.fault = .windowClosed → x.limitAt ≤ s.timeBase.toNat →
      ∃ t, exec (.windowLimit id) s = .next t ∧ s.SectionFaulted t p.val .windowLimit) ∧
    ((s.boundGroups p.val).find? (fun y => y.group == gi.val) = some d → s.slot? p.val gi.val q = some sl →
      (msCycles (s.get 0x3600 1) ≤ s.timeBase.toNat - sl.since.toNat →
        ∃ t, exec (.sumpLimit p gi q) s = .next t ∧ s.SectionFaulted t p.val .sumpLimit) ∧
      (sl.sentAt = some w → sl.due = false → sl.limitAt ≤ s.timeBase.toNat →
        ∃ t, exec (.holdLimit (.sump p gi q)) s = .next t ∧ s.SectionFaulted t p.val .multicastTimeout)) ∧
    (s.mcast? p.val mg.val s.self g = some mc → mc.limitAt ≤ s.timeBase.toNat →
      ∃ t, exec (.holdLimit (.mcast p mg g)) s = .next t ∧ s.SectionFaulted t p.val .multicastTimeout)

/-! ### The dyke mesh and the rill (R244 to R257, R252, R279, R283) -/

/-- R90, R252 to R256: a rill router's output moves the message that its arbiter serves over its link, or delivers one for a control core
to its mail, or a broadcast to its tussock, and keeps the arbiter's state; a broadcast stays for its other outputs; a control core takes a
firing notice, and CC0 takes a section-load command, notes its share and passes that of a partition with east tussocks on to CC1, which
reports to CC0 (R23). R71, R279, R283: a control token from another member of this epoch enters the rill, and
a THROTTLE of a peer enters or leaves the set of throttled peers. R245 to R247, R254 to R259: once all that has room has entered a router,
its output moves the packet that its arbiter serves, with a legal port, whole from the head of its input buffer to the buffer that its
link leads to, or delivers it to its node, and keeps the arbiter's state; a clean replay is counted and a failed one takes the link out of
service; STAMP_ADVANCE of a router's output brings every stamp in an input buffer of its packets that lies further behind to 4,096 units
behind, and ARB_BACKOFF_END takes one back-off count that has reached zero away. The model's own readings in it: entries 42, 46, 66, 80, 121, 129, 148. -/
def Obligations.MeshAndRillMoves : Prop :=
  (∀ (s : State) (u : Fin 256) (o : Port5) (i k : Nat) (m : RillMsg) (f : Fin 2) (n : Fin 24) (p : Nat) (x : LPkt),
    let q := Tbl.lk [] s.rillq u.val
    let a := s.arb (arbKey 2 u.val o)
    let l := s.rillRequests u.val o
    (∀ w, a.own s.meshNow l = some w → rillHead q w.idx = some (i, m) → (rillRank m.type).isSome = true → rillPortOk m.port = true →
      (∀ v j, link u.val o = some (v, j) →
        ∃ t, exec (.rillRoute u o) s = .next t ∧ { t with rillq := s.rillq, arbs := s.arbs, dict := s.dict } = s ∧
          Tbl.lk [] t.rillq u.val = rillLeave u.val i o m q ∧ Tbl.lk [] t.rillq v = Tbl.lk [] s.rillq v ++ [{ m with inp := j, served := [] }] ∧
          t.arb (arbKey 2 u.val o) = a.served s.meshNow s.timeBase.toNat (s.get 0x3800 1) l w (1 + m.words.length)) ∧
      (link u.val o = none → m.cast = true →
        ∃ t, exec (.rillRoute u o) s = .next t ∧ { t with rillq := s.rillq, arbs := s.arbs, dict := s.dict, tus := s.tus } = s ∧
          Tbl.lk [] t.rillq u.val = rillLeave u.val i o m q ∧ (∀ v, v ≠ u.val → t.tus1 v = s.tus1 v) ∧
          (t.tus1 u.val).bcasts = (s.tus1 u.val).bcasts ++
            [(m.words.headD 0, m.type, BitVec.ofNat 64 (leNat (m.words.tail.flatMap (fun e => leBytes 4 e.toNat))))]) ∧
      (link u.val o = none → m.cast = false → m.port = 26 → (m.type ≠ 1 ∨ m.edge = true) →
        ∃ t, exec (.rillRoute u o) s = .next t ∧ { t with rillq := s.rillq, arbs := s.arbs, dict := s.dict, fens := s.fens } = s ∧
          Tbl.lk [] t.rillq u.val = dropAt q i ∧ (t.fen (fenOf u.val)).mail = (s.fen (fenOf u.val)).mail ++ [m])) ∧
    ((s.fen f.val).mail[k]? = some m → m.type = 3 →
      ∃ t, exec (.firingNotice f k) s = .next t ∧ { t with fens := s.fens } = s ∧ (t.fen f.val).mail = dropAt (s.fen f.val).mail k) ∧
    ((s.fen f.val).mail[k]? = some m → m.type = 5 →
      ∃ t, exec (.sectionLoadCommand f k) s = .next t ∧ { t with fens := s.fens, rillq := s.rillq, parts := s.parts } = s ∧
        (t.fen f.val).mail = dropAt (s.fen f.val).mail k ∧
        (f.val = 1 → t.parts = s.parts ∧ Tbl.lk [] t.rillq 240 = Tbl.lk [] s.rillq 240 ++
          [{ m with destT := 0, srcT := 240, words := [m.w 0, 1], inp := 0, age := s.stamp, served := [] }]) ∧
        (f.val = 0 → (t.part m.part).staged = (s.part m.part).staged.map (fun g => { g with shares := addOnce g.shares (if m.w 1 = 1 then 1 else 0) }) ∧
          t.rillq = if m.w 1 ≠ 1 ∧ 8 < (s.rect m.part).x + (s.rect m.part).w
            then (s.rillSend { m with destT := 240, srcT := 0 }).rillq else s.rillq)) ∧
    ((s.lode n.val).rillIn[k]? = some m → m.type = 8 → (s.tus1 m.destT).owner = some p → s.fp p = m.fp → m.epoch = (s.tus1 m.destT).epoch →
      ∃ t, exec (.rillControlToken n k) s = .next t ∧ (t.lode n.val).rillIn = dropAt (s.lode n.val).rillIn k ∧ t.reeds = s.reeds ∧
        Tbl.lk [] t.rillq (240 * fenOf m.destT) = Tbl.lk [] s.rillq (240 * fenOf m.destT) ++
          [{ m with port := 24, srcT := 240 * fenOf m.destT, edge := true, inp := 0, age := s.stamp, served := [] }]) ∧
    (s.lodePkt n.val k = some x → x.ptype = 18 →
      ∃ t, exec (.throttle n k) s = .next t ∧ { t with lodes := s.lodes, throttled := s.throttled } = s ∧
        t.throttled = if x.arg = 1 then addOnce s.throttled x.src else without s.throttled x.src)) ∧
  (∀ (s : State) (plane : Fin 2) (u : Fin 256) (o : Port5) (b : ArbId) (i : Fin 20) (n d : Nat) (path : List (Nat × List Req × Req)) (p : Pkt)
      (rest : List Pkt),
    let e := s.injected plane.val u.val
    (e.outGrant plane.val u.val o = some (n, path) → e.buf plane.val u.val n = p :: rest → p.portOk = true →
      ∃ t, exec (.meshPacketRoute plane u o) s = .next t ∧ t.buf plane.val u.val n = rest ∧
        (∀ l w, path = [(arbKey plane.val u.val o, l, w)] → t.arb (arbKey plane.val u.val o) =
          (e.arb (arbKey plane.val u.val o)).served s.meshNow s.timeBase.toNat (s.get 0x3800 1) l w p.flits) ∧
        t.reeds = s.reeds ∧ s.SameMemory t ∧
        (∀ v j, link u.val o = some (v, j) → t.buf plane.val v (2 * j + b2n p.rsp) = s.buf plane.val v (2 * j + b2n p.rsp) ++ [p]) ∧
        (link u.val o = none → p.contributes = false → t.arrivals p.dst = s.arrivals p.dst ++ [p])) ∧
    (o.dir = some d → exec (.flitReplay plane u o true) s = .next (s.bump 0x7500 5) ∧
      ∃ t, exec (.flitReplay plane u o false) s = .next t ∧ t.isOut (linkUnit plane.val d u.val) = true) ∧
    (∀ ok, o.dir = none → exec (.flitReplay plane u o ok) s = .next s) ∧
    (∀ k : Fin 76, ∃ t, exec (.stampAdvance (.mesh plane u o) k) s = .next t ∧ t.reeds = s.reeds ∧ s.SameMemory t ∧
      t.buf plane.val u.val k.val = (s.buf plane.val u.val k.val).map (fun e =>
        if e.route plane.val u.val = o ∧ 4096 < (s.stamp - e.age).toNat then { e with age := s.stamp - 4096 } else e)) ∧
    ((s.arb b.key).b (s.arbNow b) i.val = 0 →
      ∃ t, exec (.arbBackoffEnd b i) s = .next t ∧ { t with arbs := s.arbs } = s ∧ (∀ now, (t.arb b.key).b now i.val = 0) ∧
        (∀ k, k ≠ b.key → t.arb k = s.arb k) ∧ (t.arb b.key).grants = (s.arb b.key).grants ∧ (t.arb b.key).loss i.val = (s.arb b.key).loss i.val) ∧
    ((s.arb b.key).b (s.arbNow b) i.val ≠ 0 → exec (.arbBackoffEnd b i) s = .next s))

/-! ### The mire (R67, R74, R280 to R282, R331) -/

/-- R67, R74, R281, R282, R331: the master keeps a member's armed notice, and with the last one, or one mire tick after the first, sends every
member its verdict, which is good only where every notice equals the master's own values, and the round is over; a member that receives a
verdict for its load arms it, or drops it with MIRE_ARM, and posts its one completion; the master keeps a drain report, and with the last one
sends every member the slowest point reported and the first mire tick at least START_LEAD, and OP_SETTLE where the point changes, away; a
member takes that tick, or faults with MIRE_START_LATE once it has passed; at a mire tick the sections whose tick has come start their step,
and no other does. Nothing else changes. The model's own readings in it: entries 56, 84, 121. -/
def Obligations.MireArmsAndStarts : Prop :=
  ∀ (s : State) (src : Option (Fin 24)) (k : Nat) (m : RillMsg) (g : Staged) (u : Run),
    let n := s.mire.notices.filter (fun e => e.1 != (m.w 0).toNat) ++ [((m.w 0).toNat, m.w64 1, m.w64 3, m.w64 5, (m.w 7).toNat)]
    let first := Tbl.up s.mire.firstAt m.part ((Tbl.lk? s.mire.firstAt m.part).getD s.timeBase)
    let l := s.mire.reports.filter (fun r => r.1 != (m.w 0).toNat) ++ [((m.w 0).toNat, (m.w 1).toNat)]
    let pt := maxOf ((l.filter (fun r => r.1 % 8 == m.part)).map (·.2))
    let lead := s.get 0x3400 4 + (if pt = s.get 0x2000 3 ∧ s.power.trimPending = 0 then 0 else 32768)
    let tick := ceilDiv (s.timeBase.toNat + lead) (2 ^ s.get 0x3400 2) * 2 ^ s.get 0x3400 2
    let left := s.takeMail src k
    ((s.mireMail src)[k]? = some m →
      left.mireMail src = dropAt (s.mireMail src) k ∧ { left with lodes := s.lodes, fens := s.fens } = s ∧
      (m.type = 1 → m.words.length = 8 → s.master = s.self →
        if (boxDevs s.mireBox).all (fun d => n.any (fun e => e.1 == 8 * d + m.part)) then
          let ended : State := { left with mire := { s.mire with notices := n.filter (fun e => e.1 % 8 != m.part), firstAt := Tbl.del first m.part } }
          exec (.armedNotice src k) s = .next (match (s.part m.part).staged with
            | some g => ended.mireCast m.part 1 g.sec.fingerprint [BitVec.ofNat 32 (b2n (s.roundGood m.part g n))]
            | none => ended.mireCast m.part 1 0 [0])
        else exec (.armedNotice src k) s = .next { left with mire := { s.mire with notices := n, firstAt := first } }) ∧
      (m.type = 1 → m.words.length = 2 → (s.part m.part).staged = some g → g.phase = .notice →
        ∃ t, exec (.mireVerdict src k) s = .next t ∧ t.reeds = s.reeds ∧ t.tus = s.tus ∧ (t.part m.part).run = (s.part m.part).run ∧
          t.mireMail src = dropAt (s.mireMail src) k ∧
          if m.w 1 = 1 then (t.part m.part).staged = some { g with phase := .armed } ∧
            t = (left.modPart m.part (fun q => { q with staged := some { g with phase := .armed } })).loadDone m.part g 0 0
          else (t.part m.part).staged = none ∧ t = left.refuseLoad m.part 0x12 0) ∧
      (m.type = 2 → s.master = s.self → s.fp m.part = m.fp →
        exec (.drainReport src k) s = .next
          (if (boxDevs s.mireBox).all (fun d => l.any (fun r => r.1 == 8 * d + m.part)) then
            State.mireCast { left with mire := { s.mire with reports := l.filter (fun r => r.1 % 8 != m.part) } } m.part 0 m.fp
              (BitVec.ofNat 32 pt :: w2 (BitVec.ofNat 64 tick))
          else { left with mire := { s.mire with reports := l } })) ∧
      (m.type = 0 → s.fp m.part = m.fp → (s.part m.part).run = some u →
        (s.timeBase.toNat ≤ (m.w64 2).toNat →
          ∃ t, exec (.mireStartMessage src k) s = .next t ∧ t.reeds = s.reeds ∧ t.tus = s.tus ∧
            (t.part m.part).run = some { u with tick := some (m.w64 2) } ∧ (∀ p, p ≠ m.part → t.part p = s.part p) ∧
            t.mireMail src = dropAt (s.mireMail src) k ∧ { t with parts := s.parts, lodes := s.lodes, fens := s.fens } = s.changePoint (m.w 1).toNat) ∧
        ((m.w64 2).toNat < s.timeBase.toNat → ∃ t, exec (.mireStartMessage src k) s = .next t ∧ s.SectionFaulted t m.part .mireStartLate))) ∧
    (∀ p, p < 8 → (∀ q, q < 8 → s.past (Tbl.lk? s.mire.firstAt q) (2 ^ s.get 0x3400 2) = decide (q = p)) →
      let ended : State := { s with mire := { s.mire with notices := s.mire.notices.filter (fun e => e.1 % 8 != p), firstAt := Tbl.del s.mire.firstAt p } }
      exec .armVerdictTimeout s = .next (match (s.part p).staged with
        | some g => ended.mireCast p 1 g.sec.fingerprint [BitVec.ofNat 32 (b2n (s.roundGood p g s.mire.notices))]
        | none => ended.mireCast p 1 0 [0])) ∧
    ((∀ q, q < 8 → s.past (Tbl.lk? s.mire.firstAt q) (2 ^ s.get 0x3400 2) = false) → exec .armVerdictTimeout s = .next s) ∧
    (s.timeBase.toNat % 2 ^ s.get 0x3400 2 = 0 → s.inMire = true →
      ∃ t, exec .mireTick s = .next t ∧ { t with reeds := s.reeds, tus := s.tus, parts := s.parts } = s ∧
        (∀ w, (t.tus1 w).pool = (s.tus1 w).pool ∧ (t.tus1 w).tags = (s.tus1 w).tags ∧ (t.tus1 w).epoch = (s.tus1 w).epoch) ∧
        (∀ q, (∀ p v, p < 8 → (s.part p).run = some v → s.mayStart v = true → q ∉ v.sec.reeds) → t.reed q = s.reed q) ∧
        ∀ p v, p < 8 → (s.part p).run = some v →
          if s.mayStart v then ∃ w, (t.part p).run = some w ∧ w.phase = .running ∧ w.step = v.step ∧ w.sec = v.sec ∧
            ∀ q, q ∈ v.sec.reeds → (t.reed q).status = .running
          else (t.part p).run = some v) ∧
    ((s.timeBase.toNat % 2 ^ s.get 0x3400 2 ≠ 0 ∨ s.inMire = false) → exec .mireTick s = .next s)

/-! ### Sections (R64 to R73, R164, R200, R215, R351, R397) -/

/-- R66 to R68, R72, R200, R351: a LOAD of a host that owns its partition, with no other load, stages its section and tells CC0; VERIFY of
an image that passes notes its digest; PREPARE of a section that passes every check, outside a mire, charges its placements, keeps its
choices and arms it. A load that is refused is gone. R71 to R73, R140, R163: COMMIT of an armed load of a partition that runs none, no
queue of the section holding a token, makes it the running section, waiting for its start at its first step; each of its reeds is armed
and holds its program, its tussocks belong to the partition and stand at their next epoch; no byte of a pool changes. The model's own
readings in it: entries 30, 31, 32, 52, 74, 121. -/
def Obligations.LoadsStageAndCommit : Prop :=
  (∀ (s : State) (c : HCmd) (img : Image) (us : Nat) (seed : W64) (p : Fin 8) (g : Staged) (d : BitVec 256) (x : Sect) (code : Nat),
    (s.TakesOwn c 0x01 → c.f 16 8 = img.bytes.length → c.f 24 1 < 3 → c.f 25 1 < 16 → c.f 26 1 < 16 → c.f 28 2 ≠ 0 →
        (s.part c.part).staged = none →
      ∃ t e, exec (.load c img seed) s = .next t ∧ (t.part c.part).staged = some e ∧ e.phase = .staged ∧ e.cmdId = c.id ∧
        e.auto = bit (c.f 27 1) 0 ∧ e.sec.img = img ∧ e.sec.pass = c.f 24 1 ∧ e.sec.x0 = c.f 25 1 ∧ e.sec.y0 = c.f 26 1 ∧
        e.sec.left = c.f 28 2 ∧ e.sec.first = BitVec.ofNat 64 (c.f 32 8) ∧ e.sec.seed = seed ∧
        (t.part c.part).run = (s.part c.part).run ∧ t.reeds = s.reeds ∧
        Tbl.lk [] t.rillq (240 * c.port.val) = Tbl.lk [] s.rillq (240 * c.port.val) ++
          [{ destT := 0, port := 26, type := 5, epoch := 0, words := [BitVec.ofNat 32 c.part], srcT := 240 * c.port.val, age := s.stamp }]) ∧
    ((s.part p.val).staged = some g → g.phase = .staged → s.fenDown p.val ≠ some 0 →
      (s.verify p.val g.sec.img = .ok d →
        ∃ t, exec (.verify p) s = .next t ∧ { t with parts := s.parts } = s ∧
          t.part p.val = { s.part p.val with staged := some { g with phase := .verified, sec := { g.sec with digest := d } } }) ∧
      (s.verify p.val g.sec.img = .refuse code → ∃ t, exec (.verify p) s = .next t ∧ (t.part p.val).staged = none ∧ t.reeds = s.reeds)) ∧
    ((s.part p.val).staged = some g → g.phase = .verified → s.shared p.val g = true → s.placeGrid p.val g = .at_ x →
      let r := s.prepare p.val x
      (lowest r.bad = none → s.inMire = false →
        ∃ t e, exec (.prepare p us) s = .next t ∧ (t.part p.val).staged = some e ∧ e.phase = .armed ∧ e.sec = r.sec ∧ e.prepUs = us ∧
          (t.part p.val).places = (s.part p.val).places ++ r.places ∧ (t.part p.val).choices = r.choices ∧ t.reeds = s.reeds ∧ t.tus = s.tus) ∧
      (∀ w, lowest r.bad = some w → g.added = [] →
        ∃ t, exec (.prepare p us) s = .next t ∧ (t.part p.val).staged = none ∧ (t.part p.val).places = (s.part p.val).places ∧
          t.reeds = s.reeds ∧ t.tus = s.tus)) ∧
    ((s.part p.val).staged = some g → g.phase = .verified → s.shared p.val g = true → g.added = [] →
        s.placeGrid p.val g = .outside ∨ s.placeGrid p.val g = .onOut x →
      ∃ t, exec (.prepare p us) s = .next t ∧ (t.part p.val).staged = none ∧ (t.part p.val).places = (s.part p.val).places ∧
        t.reeds = s.reeds ∧ t.tus = s.tus)) ∧
  (∀ (s : State) (p : Fin 8) (g : Staged), (s.part p.val).staged = some g → g.phase = .armed → (s.part p.val).run = none →
    (s.causeway = true → ∀ w, w ∈ g.sec.tussocks → w < 128) → s.queuesLeft g.sec = false → g.sec.reeds.Nodup → g.sec.tussocks.Nodup →
      ∃ t u, exec (.commit p) s = .next t ∧ (t.part p.val).staged = none ∧ (t.part p.val).run = some u ∧ u.sec = g.sec ∧
        u.phase = .waitStart ∧ u.step = g.sec.first ∧ (t.part p.val).faulted = false ∧
        (∀ e, e ∈ g.sec.progs → (t.reed (g.sec.reedOf e)).status = .armed ∧
          (∀ j, Tbl.lk 0 (t.reed (g.sec.reedOf e)).pmem j = (e.words[j]?).getD (Tbl.lk 0 (s.reed (g.sec.reedOf e)).pmem j))) ∧
        (∀ r, r ∈ g.sec.allReeds → (t.reed r).acc = [] ∧ (t.reed r).slack = 0) ∧
        (∀ w, w ∈ g.sec.tussocks → (t.tus1 w).owner = some p.val ∧ (t.tus1 w).epoch = (s.tus1 w).epoch + 1) ∧
        ∀ w, (t.tus1 w).pool = (s.tus1 w).pool)

/-- R69, R73, R164, R175, R397: a running section that has drained re-arms for its next step while steps are left and no UNLOAD has
stopped it, and otherwise ends and gives its tussocks back; CC1 passes a drained reed's monitor record on to CC0, which merges its counts
or counts its soft-maximum rows; an UNLOAD discards the staged load, stops the re-arm, or both, as its flags say. The model's own readings in it: entries 83, 121. -/
def Obligations.SectionsDrain : Prop :=
  ∀ (s : State) (p : Fin 8) (u : Run) (r : Fin 6144) (c : HCmd),
    ((s.part p.val).run = some u → u.phase = .running → s.drained p.val u.sec = true → s.reporting u.sec = false → u.calib = false →
      (1 < u.sec.left → u.stop = false →
        ∃ t v, exec (.sectionDrained p) s = .next t ∧ (t.part p.val).run = some v ∧ v.phase = .waitStart ∧ v.step = u.step + 1 ∧
          v.sec.left = u.sec.left - 1 ∧ v.calib = false) ∧
      (u.sec.left ≤ 1 ∨ u.stop = true →
        ∃ t, exec (.sectionDrained p) s = .next t ∧ (t.part p.val).run = none ∧ ∀ w, w ∈ u.sec.tussocks → (t.tus1 w).owner = none)) ∧
    (∀ k m, fenOf (tusOf r.val) = 1 → s.recordOf 1 r.val = some (k, m) →
      ∃ t, exec (.monitorRecord r) s = .next t ∧ { t with fens := s.fens, rillq := s.rillq } = s ∧ (t.fen 1).mail = dropAt (s.fen 1).mail k ∧
        Tbl.lk [] t.rillq 240 = Tbl.lk [] s.rillq 240 ++
          [{ m with destT := 0, srcT := 240, edge := true, inp := 0, age := s.stamp, served := [] }]) ∧
    (∀ k m, (fenOf (tusOf r.val) = 1 → s.recordOf 1 r.val = none) → s.recordOf 0 r.val = some (k, m) → s.partOf r.val = some p.val →
        (s.part p.val).run = some u → m.epoch = s.epochOf r.val →
      ∃ t, exec (.monitorRecord r) s = .next t ∧ { t with fens := s.fens, parts := s.parts, dict := s.dict } = s ∧
        (t.fen 0).mail = dropAt (s.fen 0).mail k ∧
        if m.words.length = 3 then t.parts = s.parts ∧ s.Counts t 0x8011 6 32 (m.words.getD 1 0).toNat ∧
          s.Counts t 0x8011 7 32 (m.words.getD 2 0).toNat
        else t.dict = s.dict ∧ t.part p.val = { s.part p.val with
          merges := addMerge (s.part p.val).merges
            { u.merge (m.words.getD 1 0).toNat with
              amax := m.words.getD 2 0, elems := m.w64 3, zeros := m.w64 5, unders := m.w64 7, overs := m.words.getD 9 0, nonfin := m.words.getD 10 0 } }) ∧
    (s.TakesOwn c 0x02 → ∀ i, i = .unloadDiscardStaged c ∨ i = .unloadStopRearm c →
      ∃ t, exec i s = .next t ∧ t.reeds = s.reeds ∧ t.tus = s.tus ∧
        (t.part c.part).staged = (if bit (c.f 8 1) 0 then none else (s.part c.part).staged) ∧
        (t.part c.part).run = (if bit (c.f 8 1) 1 then (s.part c.part).run.map (fun v => { v with stop := true }) else (s.part c.part).run) ∧
        (bit (c.f 8 1) 0 = false → s.Answers t c 0 []))

/-! ### The sump (R133, R292 to R303) -/

/-- R133, R293 to R295: a contribution whose 19 packets are all there and whose checks pass, and which is not its tile's last, is added exactly in its tile's slot, with its
special map, its residue, its norm and its landing, and counted; one whose CRC fails waits for its re-read, after which it is logged and
added, or faults the section. No memory changes. R298, R307: for a reduction group, MC_LANDED of a child is noted in the tile's slot,
MC_COMMIT of a staged result frees its slot while its half has room for it, and MC_ABORT faults the section with the cause it carries, or
with CONFIG_MISMATCH where its fingerprint differs (R271). The model's own readings in it: entries 121, 122, 130. -/
def Obligations.ContributionsAdd : Prop :=
  (∀ (s : State) (h : Fin 2) (k p : Nat) (w : SumpWait) (g : GroupDecl) (q : Nat),
    let hd := TileHdr.ofTile w.tile
    let sl := (s.slot? p g.group q).getD (s.newSlot p g q w.epoch)
    let rest := (s.arrivals (halfNode h.val)).filter (fun e => !e.partOf w.reed w.op w.quad)
    s.contribution h.val k = some w →
    (tileCrc w.tile = hd.crc → s.Adds w p g q → s.SumpIdle →
      (∃ t, exec (.sumpContribution h k .good) s = .next t ∧ t.slot? p g.group q = some (sl.addLocal w hd.vrows hd.vcols) ∧
        t.arrivals (halfNode h.val) = rest ∧ t.reeds = s.reeds ∧ s.SameMemory t ∧ t.parts = s.parts ∧ s.Counts t 0x7600 1 64 1) ∧
      (∃ t, exec (.tileRereadDone (.sump h k)) s = .next t ∧ t.slot? p g.group q = some (sl.addLocal w hd.vrows hd.vcols) ∧
        t.arrivals (halfNode h.val) = rest ∧ t.reeds = s.reeds ∧ s.SameMemory t ∧ t.parts = s.parts ∧
        s.Counts t 0x7600 1 64 1)) ∧
    (tileCrc w.tile ≠ hd.crc →
      exec (.sumpContribution h k .good) s = .next s ∧
      (∀ u, p < 8 → s.partOf w.reed = some p → (s.part p).run = some u →
        ∃ t, exec (.tileRereadDone (.sump h k)) s = .next t ∧ s.SectionFaulted t p .tileCrc))) ∧
  (∀ (s : State) (n : Fin 24) (k : Nat) (x : LPkt) (g : GroupDecl) (sl : SumpSlot) (q : Nat) (r : SumpRes) (tile : GroupTensor × Nat × Nat × Bool),
    let p := x.dpart
    let gi := x.target.toNat - 32
    32 ≤ x.target.toNat → s.SumpIdle →
    (s.Traffic n.val k 11 x → q = x.arg.toNat → (s.boundGroups p).find? (fun d => d.group + 32 == x.target.toNat) = some g →
      s.slot? p gi q = some sl → (s.kids g).all (addOnce sl.landed x.src).contains = false →
      ∃ t, exec (.mcLanded n k) s = .next t ∧ s.TakesPkt t n.val k ∧ t.slot? p gi q = some { sl with landed := addOnce sl.landed x.src } ∧
        t.reeds = s.reeds ∧ s.SameMemory t) ∧
    (s.Traffic n.val k 12 x → q = x.arg.toNat → s.slot? p gi q = some sl → sl.result = some r → (s.sumpHalf (q % 2)).buf.length < 64 →
      (s.boundGroups p).find? (fun d => d.group == gi) = some g → g.tileOf q = some tile →
      ∃ t, exec (.mcCommit n k) s = .next t ∧ s.TakesPkt t n.val k ∧ t.slot? p gi q = none ∧ t.reeds = s.reeds) ∧
    (s.Traffic n.val k 13 x → p < 8 → (s.boundGroups p).find? (fun d => d.group == gi) = some g →
      ∃ t, exec (.mcAbort n k) s = .next t ∧ s.SectionFaulted t p (SCause.ofCode (bits x.arg.toNat 7 0))) ∧
    (s.lodePkt n.val k = some x → x.ptype = 13 → p < 8 → (s.part p).run.isSome = true → x.fp ≠ s.fp p →
      ∃ t, exec (.mcAbort n k) s = .next t ∧ s.SectionFaulted t p .configMismatch))

/-- R296 to R298, R300, R303, R307: a PARTIAL packet of a child is gathered with those before it; with the last one the whole partial, whose
residue is right, is added to its tile's slot, or held there until the tile's mask is known; one whose residue is wrong is asked for again,
and a second time faults the section. A tile's error feedback, zero at START_STEP, and reference enter its slot, and the partials held for them
follow. A result whose residue is right is staged in its slot and passed on to every child, and MC_LANDED goes up when every child has landed; a
wrong one is asked for again, and a second time faults the section. RESEND_PARTIAL and RESEND_RESULT send what the slot holds again,
packet by packet. No reed and no memory changes. Stated for a tile that is not complete with the event. The model's own readings in it:
entries 58, 121. -/
def Obligations.SumpTrees : Prop :=
  ∀ (s : State) (n : Fin 24) (k : Nat) (x : LPkt) (g : GroupDecl) (q : Nat) (y : SumpPart) (r : SumpRes) (part : Fin 8) (gi : Fin 16)
      (d : GroupDecl) (sl : SumpSlot) (tn : GroupTensor) (row col : Nat) (last : Bool) (chk : AddCheck),
    let p := x.dpart
    let ol := (s.slot? p g.group q).getD (s.newSlot p g q (BitVec.ofNat 3 (bits x.arg.toNat 31 29)))
    let got : SumpPart := if bits x.arg.toNat 25 20 = 0 then y else
      match Tbl.lk? ol.gather x.src with | some o => { y with vals := o.vals ++ y.vals } | none => y
    let whole : SumpSlot := { ol with gather := Tbl.del ol.gather x.src }
    let again := fun (kind : Nat) (e : BitVec 3) =>
      s.mkPkt p x.src p 16 (sumpTarget kind g.group q) (sumpArg (s.runStep p) e false (s.thinned p g) true 0) .none
    s.SumpIdle →
    (s.SumpTraffic n.val k 0 x g q → x.pay = .part y → (s.kids g).contains x.src = true →
      ol.kids.contains x.src = false → Tbl.lk? ol.heldKids x.src = none → (s.groupRun p g.group).base ≤ q →
      (s.groupRun p g.group).done.contains q = false → (g.tileOf q).isSome = true →
      (bit x.arg.toNat 26 = false →
        ∃ t, exec (.sumpPartial n k chk) s = .next t ∧ s.TakesPkt t n.val k ∧
          t.slot? p g.group q = some { ol with gather := Tbl.up ol.gather x.src got } ∧ t.reeds = s.reeds ∧ s.SameMemory t ∧ t.parts = s.parts) ∧
      (bit x.arg.toNat 26 = true → residueOf (sumInts got.vals) = got.residue → chk ≠ .bad →
        ((s.thinned p g = true ∧ ol.efRef = none) →
          ∃ t, exec (.sumpPartial n k chk) s = .next t ∧ s.TakesPkt t n.val k ∧ t.reeds = s.reeds ∧ s.SameMemory t ∧ t.parts = s.parts ∧
            t.slot? p g.group q = some { whole with asked := without ol.asked x.src, heldKids := Tbl.up ol.heldKids x.src got }) ∧
        (¬ (s.thinned p g = true ∧ ol.efRef = none) → ol.local_ < g.contrib →
          ∃ t v, exec (.sumpPartial n k chk) s = .next t ∧ s.TakesPkt t n.val k ∧ t.slot? p g.group q = some v ∧ t.reeds = s.reeds ∧
            s.SameMemory t ∧ t.parts = s.parts ∧ v.el = addInts ol.el ((s.positions p g ol).zip got.vals) ∧ v.special = orMap ol.special got.special ∧
            v.kids = ol.kids ++ [x.src] ∧ v.contribs = ol.contribs + got.contribs ∧ v.sq = ol.sq + got.sq ∧
            v.residue = (ol.residue + got.residue) % (2 ^ 31 - 1) ∧ v.local_ = ol.local_ ∧ v.landings = ol.landings)) ∧
      (bit x.arg.toNat 26 = true → residueOf (sumInts got.vals) ≠ got.residue →
        (ol.asked.contains x.src = false →
          ∃ t, exec (.sumpPartial n k chk) s = .next t ∧ t.reeds = s.reeds ∧ s.SameMemory t ∧ t.parts = s.parts ∧
            t.slot? p g.group q = some { whole with asked := addOnce ol.asked x.src } ∧ s.HopSends t x.src (again 2 ol.epoch)) ∧
        (ol.asked.contains x.src = true → p < 8 → ∃ t, exec (.sumpPartial n k chk) s = .next t ∧ s.SectionFaulted t p .sumpResidue))) ∧
    (s.SumpTraffic n.val k 1 x g q → x.pay = .res r → s.slot? p g.group q = some sl → g.root ≠ s.self →
      (residueOf (sumInts (r.vals.map accInt)) = r.residue →
        ∃ t v, exec (.sumpResult n k) s = .next t ∧ s.TakesPkt t n.val k ∧ t.slot? p g.group q = some v ∧ t.reeds = s.reeds ∧ s.SameMemory t ∧
          t.parts = s.parts ∧ v = { sl with asked := without sl.asked x.src, result := some r, landedUp := (s.kids g).all sl.landed.contains || sl.landedUp } ∧
          (∀ c, c ∈ s.kids g → s.HopSends t c (s.mkPkt p c p 16 (sumpTarget 1 g.group q)
            (sumpArg (s.runStep p) sl.epoch (r.vals.any nonFinite) (s.thinned p g) true 0) (.res r) (payFlits (64 + 4 * r.vals.length)))) ∧
          ((s.kids g).all sl.landed.contains = true → sl.landedUp = false → ∀ u, g.parentOf s.self = some u →
            s.HopSends t u (s.mkPkt p u p 11 (32 + g.group) q .none))) ∧
      (residueOf (sumInts (r.vals.map accInt)) ≠ r.residue →
        (sl.asked.contains x.src = false →
          ∃ t, exec (.sumpResult n k) s = .next t ∧ t.reeds = s.reeds ∧ s.SameMemory t ∧ t.parts = s.parts ∧
            t.slot? p g.group q = some { sl with asked := addOnce sl.asked x.src } ∧ s.HopSends t x.src (again 3 sl.epoch)) ∧
        (sl.asked.contains x.src = true → p < 8 → ∃ t, exec (.sumpResult n k) s = .next t ∧ s.SectionFaulted t p .sumpResidue))) ∧
    (s.SumpTraffic n.val k 2 x g q → s.slot? p g.group q = some sl →
      ∃ t, exec (.resendPartial n k) s = .next t ∧ s.TakesPkt t n.val k ∧ s.LodesOnly t ∧
        ∀ z u j e, sl.sent = some z → g.parentOf s.self = some u → (partialPackets z)[j]? = some e →
          s.HopSends t u (s.mkPkt p u p 16 (sumpTarget 0 g.group q)
            (sumpArg (s.runStep p) sl.epoch (!z.special.isEmpty) (s.thinned p g) (j + 1 == (partialPackets z).length) e.1)
            (.part { z with vals := e.2.1, special := if j + 1 = (partialPackets z).length then z.special else [] }) (payFlits e.2.2))) ∧
    (s.SumpTraffic n.val k 3 x g q → s.slot? p g.group q = some sl →
      ∃ t, exec (.resendResult n k) s = .next t ∧ s.TakesPkt t n.val k ∧ s.LodesOnly t ∧
        ∀ z, sl.result = some z → s.HopSends t x.src (s.mkPkt p x.src p 16 (sumpTarget 1 g.group q)
          (sumpArg (s.runStep p) sl.epoch (z.vals.any nonFinite) (s.thinned p g) true 0) (.res z) (payFlits (64 + 4 * z.vals.length)))) ∧
    ((s.boundGroups part.val).find? (fun e => e.group == gi.val) = some d → s.slot? part.val gi.val q = some sl →
      (sl.efDone = true → exec (.sumpEfRefRead part gi q) s = .next s) ∧
      (sl.efDone = false → sl.local_ < d.contrib → d.tileOf q = some (tn, row, col, last) →
        ∃ t v ef ref, exec (.sumpEfRefRead part gi q) s = .next t ∧ t.slot? part.val gi.val q = some v ∧ v.efDone = true ∧ v.heldKids = [] ∧
          v.efRef = some (ef, ref) ∧ t.reeds = s.reeds ∧ s.SameMemory t ∧ t.parts = s.parts ∧ v.kids = sl.kids ++ sl.heldKids.map (·.1) ∧
          (sl.heldKids = [] → v.el = addInts sl.el (ef.map (fun e => (e.1, accInt e.2)))) ∧
          (s.runStep part.val = s.startOf part.val → ef = []) ∧
          (∀ i a, s.hbmTile part.val .cur tn.refId row col = some (i, a) → ref = s.hbmElems i a) ∧
          ∀ i a, s.runStep part.val ≠ s.startOf part.val → s.hbmTile part.val .cur tn.efId row col = some (i, a) → ef = s.hbmElems i a))

/-! ### Multicasts and windows (R284 to R287) -/

/-- R287: a reservation that arrives joins the multicasts in progress and goes down to every child; a target whose window slots are all
EMPTY and held by no other multicast reserves them, and grants once every child has granted; a child's grant and a child's report of
landed data are noted and go up merged; the root, once granted, sends the data down; data lands in the reserved slots, whose tags stay as
they are; MC_COMMIT sets every reserved slot FULL and goes down; MC_ABORT takes the multicast away and changes no memory. The model's own
readings in it: entries 45, 76, 121. -/
def Obligations.MulticastSteps : Prop :=
  ∀ (s : State) (n : Fin 24) (k : Nat) (x : LPkt) (m : Mcast) (part : Fin 8) (g : Fin 32) (root : W16) (seq up : Nat) (b : List Byte),
    let p := x.dpart
    let a := x.arg.toNat
    let t32 := x.target.toNat
    let v := s.window part.val g.val
    (s.Traffic n.val k 8 x → s.mcast? p (t32 % 32) x.src (bits a 63 32) = none →
      ∃ t o, exec (.mcReserve n k) s = .next t ∧ s.TakesPkt t n.val k ∧ t.mcasts = s.mcasts ++ [o] ∧ { t with lodes := s.lodes, mcasts := s.mcasts } = s ∧
        o.part = p ∧ o.group = t32 % 32 ∧ o.root = x.src ∧ o.seq = bits a 63 32 ∧ o.slots = bits a 15 0 ∧ o.first = bits a 31 16 ∧ o.reserved = false ∧
        o.target = inBox (Tbl.lk [] (s.part p).mboxes (t32 % 32)) s.self ∧ o.granted = [] ∧ o.landed = [] ∧
        ∀ d, d ∈ o.kids → s.HopSends t d { s.mkPkt p d p 8 (t32 % 32) a .none with src := x.src }) ∧
    (s.mcast? part.val g.val root.toNat seq = some m → m.target = true → m.reserved = false → m.grantSent = false → m.landedSelf = false →
      m.parent = some up → v.isOpen = true →
      (∀ o, o ∈ s.mcasts → o.part = part.val → o.group = g.val → o.reserved = true → (o.root = m.root ∧ o.seq = m.seq) ∨
        ∀ i j, i < o.slots → j < m.slots → v.slotAt o i ≠ v.slotAt m j) →
      (v.hbm = true ∨ ∀ i, i < m.slots → s.tag (.pool v.place) (v.slotAt m i) = .empty) →
      ∃ t, exec (.mcTargetReserve part g root seq) s = .next t ∧ { t with lodes := s.lodes, mcasts := s.mcasts } = s ∧
        t.mcast? part.val g.val root.toNat seq = some { m with reserved := true, grantSent := m.kids.all m.granted.contains } ∧
        (m.kids.all m.granted.contains = true →
          s.HopSends t up (s.mkPkt part.val up part.val 9 g.val (m.seq + m.root * 2 ^ 32) .none))) ∧
    (s.Traffic n.val k 9 x → s.mcast? p t32 (bits a 63 32) (bits a 31 0) = some m → m.grantSent = false →
      let o := { m with granted := addOnce m.granted x.src }
      (o.parent = some up → o.allLanded = false →
        ∃ t, exec (.mcGrant n k) s = .next t ∧ s.TakesPkt t n.val k ∧ { t with lodes := s.lodes, mcasts := s.mcasts } = s ∧
          t.mcast? p t32 (bits a 63 32) (bits a 31 0) = some { o with grantSent := o.allGranted } ∧
          (o.allGranted = true → s.HopSends t up (s.mkPkt p up p 9 t32 (m.seq + m.root * 2 ^ 32) .none))) ∧
      (o.parent = none → o.allGranted = true → o.kids.all o.landed.contains = false →
        ∃ t, exec (.mcGrant n k) s = .next t ∧ s.TakesPkt t n.val k ∧ { t with lodes := s.lodes, mcasts := s.mcasts } = s ∧
          ∀ c, c ∈ mcChunks (m.bytes.length / 256 + 1) 0 m.bytes → ∀ d, d ∈ m.kids →
            s.HopSends t d { s.mkPkt p d p 10 t32 (c.1 + m.seq * 2 ^ 32) (.slots c.2) (payFlits c.2.length) with src := m.root, epoch := s.mcEpoch m })) ∧
    (s.Traffic n.val k 10 x → s.mcast? p t32 x.src (bits a 63 32) = some m → x.pay = .slots b → m.parent = some up → m.grantSent = true →
      m.landedSent = false → m.target = true →
      ∃ t o, exec (.mcData n k) s = .next t ∧ s.TakesPkt t n.val k ∧ { t with lodes := s.lodes, mcasts := s.mcasts } = s ∧
        t.mcast? p t32 x.src (bits a 63 32) = some o ∧
        (∀ i, i < b.length / 256 → Tbl.lk? o.data (bits a 31 0 / 256 + i) = some ((b.drop (256 * i)).take 256)) ∧
        o.landedSelf = decide (m.slots ≤ o.data.length) ∧ o.landedSent = o.allLanded ∧
        (∀ d, d ∈ m.kids → s.HopSends t d { s.mkPkt p d p 10 t32 a x.pay x.flits with src := x.src, epoch := s.mcEpoch m }) ∧
        (o.allLanded = true → s.HopSends t up (s.mkPkt p up p 11 t32 (m.seq + m.root * 2 ^ 32) .none))) ∧
    (s.Traffic n.val k 11 x → t32 < 32 → s.mcast? p t32 (bits a 63 32) (bits a 31 0) = some m → m.parent = some up → m.grantSent = true →
      m.landedSent = false →
      let o := { m with landed := addOnce m.landed x.src }
      ∃ t, exec (.mcLanded n k) s = .next t ∧ s.TakesPkt t n.val k ∧ { t with lodes := s.lodes, mcasts := s.mcasts } = s ∧
        t.mcast? p t32 (bits a 63 32) (bits a 31 0) = some { o with landedSent := o.allLanded } ∧
        (o.allLanded = true → s.HopSends t up (s.mkPkt p up p 11 t32 (m.seq + m.root * 2 ^ 32) .none))) ∧
    (s.Traffic n.val k 12 x → t32 < 32 → s.mcast? p t32 x.src a = some m → m.target = true → (s.window p t32).hbm = false →
      ∃ t, exec (.mcCommit n k) s = .next t ∧ s.TakesPkt t n.val k ∧ t.mcast? p t32 x.src a = none ∧ t.reeds = s.reeds ∧ t.hbmStacks = s.hbmStacks ∧
        (∀ sp i, t.tag sp i = if sp = .pool (s.window p t32).place ∧ (∃ e, e ∈ m.data ∧ i = (s.window p t32).slotAt m e.1) then .full else s.tag sp i) ∧
        (∀ i c, m.data = [(i, c)] → (t.tus1 (s.window p t32).place).pool =
          (s.tus1 (s.window p t32).place).pool.write (256 * (s.window p t32).slotAt m i) c) ∧
        ∀ d, d ∈ m.kids → s.HopSends t d { s.mkPkt p d p 12 t32 a .none with src := x.src, epoch := s.mcEpoch m }) ∧
    (s.Traffic n.val k 13 x → t32 < 32 → s.mcast? p t32 x.src (bits a 63 32) = some m →
      ∃ t, exec (.mcAbort n k) s = .next t ∧ s.TakesPkt t n.val k ∧ { t with lodes := s.lodes, mcasts := s.mcasts } = s ∧
        t.mcast? p t32 x.src (bits a 63 32) = none ∧
        ∀ d, d ∈ m.kids → s.HopSends t d { s.mkPkt p d p 13 t32 a .none with src := x.src, epoch := s.mcEpoch m })

/-- R284 to R286: a put whose epoch matches an open window, from inside its peer box and its range, is accepted, written to HBM4 and
acknowledged at once or sent as fill writes to its pool; any other is dropped, counted and answered with WIN_CLOSED and the window's
epoch, and writes nothing. WIN_ACK completes one put of the sender's descriptor, a tile of 18 slots or one slot; WIN_CLOSED halts its stream; WIN_OPEN gives the
descriptor the new epoch and sends every put not yet acknowledged again; a close message closes a window that has no put to write, or
leaves the close to wait for them. The model's own readings in it: entries 44, 57, 59, 121, 129. -/
def Obligations.WindowPuts : Prop :=
  ∀ (s : State) (n : Fin 24) (k : Nat) (x : LPkt) (b : List Byte) (f : Xfer) (o : OpRec),
    let p := x.dpart
    let w := x.target.toNat % 64
    let v := s.window p w
    let off := x.arg.toNat
    let fits := v.isOpen = true ∧ v.closing = false ∧ v.epoch = x.wepoch ∧ inBox v.box x.src = true ∧ off + b.length ≤ 256 * v.slots
    (s.Traffic n.val k 3 x → x.pay = .slots b →
      (fits → v.hbm = true →
        ∃ t, exec (.winPut n k) s = .next t ∧ s.TakesPkt t n.val k ∧ (t.stack v.place).mem = (s.stack v.place).mem.write (256 * v.first + off) b ∧
          (∀ i, i ≠ v.place → t.stack i = s.stack i) ∧ t.reeds = s.reeds ∧ t.tus = s.tus ∧ t.parts = s.parts ∧
          s.SendsPkt t (s.mkPkt p x.src x.spart 4 w off .none)) ∧
      (fits → v.hbm = false →
        ∃ t, exec (.winPut n k) s = .next t ∧ s.TakesPkt t n.val k ∧ s.SameMemory t ∧ t.reeds = s.reeds ∧ t.tus = s.tus ∧
          (t.window p w).puts = v.puts ++ [(v.nextPut, x.src, off, b.length / 256)] ∧
          ∀ j, j < b.length / 256 → ∃ e, e ∈ t.waiting ((v.first + off / 256 + j) % 2) (16 * (15 * (fenOf v.place % 2)) + v.place % 256 % 16) ∧
            e.dst = tusNode v.place ∧ e.pay = .fill { space := .pool v.place, slot := v.first + off / 256 + j, data := (b.drop (256 * j)).take 256,
                                                      ack := some (windowAck p, w + 64 * v.nextPut) } none 0) ∧
      (¬ fits →
        ∃ t, exec (.winPut n k) s = .next t ∧ s.TakesPkt t n.val k ∧ s.SameMemory t ∧ t.reeds = s.reeds ∧ t.tus = s.tus ∧ t.parts = s.parts ∧
          s.Counts t 0x3300 4 32 1 ∧ s.SendsPkt t (s.mkPkt p x.src x.spart 5 w v.epoch.toNat .none))) ∧
    (s.lodePkt n.val k = some x → x.ptype = 4 →
      (s.putsTo p x.src x.target.toNat).find? (fun f => decide (f.dstBase ≤ off / 256) && decide (off / 256 < f.dstBase + f.slots)
        && !f.got.contains (off / 256 - f.dstBase)) = some f →
      (s.reed f.reed).ops.find? (fun y => y.id == f.op) = some o →
      let put := f.putOf (off / 256 - f.dstBase)
      let got := (upto put.1 put.2).foldl addOnce f.got
      ∃ t, exec (.winAck n k) s = .next t ∧ s.TakesPkt t n.val k ∧ s.SameMemory t ∧ t.tus = s.tus ∧
        (t.reed f.reed).ops = (if o.acks ≤ put.2 then (s.reed f.reed).ops.filter (fun y => y.id != f.op)
          else (s.reed f.reed).ops.map (fun y => if y.id = f.op then { y with acks := o.acks - put.2 } else y)) ∧
        t.xfers = (if f.slots ≤ got.length then s.xfers.filter (fun y => y.id != f.id)
          else s.xfers.map (fun y => if y.id = f.id then
            { f with got := got, stage := (upto put.1 put.2).foldl Tbl.del f.stage, done := f.done + put.2 } else y))) ∧
    (s.lodePkt n.val k = some x → x.ptype = 5 →
      ∃ t, exec (.winClosed n k) s = .next t ∧ s.TakesPkt t n.val k ∧ s.SameMemory t ∧ t.tus = s.tus ∧ t.parts = s.parts ∧
        ∀ y z, y ∈ s.putsTo p x.src x.target.toNat → y.halted = false → z ∈ t.xfers → z.id = y.id →
          z.halted = true ∧ z.fault = .windowClosed ∧ z.waitId = off ∧ z.limitAt = s.timeBase.toNat + msCycles (s.get 0x3300 2)) ∧
    (s.lodePkt n.val k = some x → x.ptype = 6 →
      ∃ t, exec (.winOpen n k) s = .next t ∧ s.TakesPkt t n.val k ∧ s.SameMemory t ∧ t.tus = s.tus ∧
        (∀ r, { t.reed r with streamHalts := (s.reed r).streamHalts } = s.reed r) ∧
        (∀ d e, Tbl.lk? (s.part p).peers d = some (.unicast x.src x.target.toNat e) →
          Tbl.lk? (t.part p).peers d = some (.unicast x.src x.target.toNat (BitVec.ofNat 16 off))) ∧
        ∀ y, y ∈ s.putsTo p x.src x.target.toNat → y.halted = true → y.fault = .windowClosed →
          (∀ z, z ∈ t.xfers → z.id = y.id → z.halted = false) ∧
          ∀ c, c ∈ y.stage → let put := y.putOf c.1
            let bytes := (upto put.1 put.2).flatMap (fun j => Tbl.lk [] y.stage j)
            (∀ j, put.1 ≤ j → j < put.1 + put.2 → (Tbl.lk? y.stage j).isSome = true) →
            s.SendsPkt t { s.mkPkt p x.src p 3 x.target.toNat (256 * y.dstSlot put.1) (.slots bytes) (payFlits bytes.length) with
                           wepoch := BitVec.ofNat 16 off, epoch := s.epochOf y.reed }) ∧
    (s.lodePkt n.val k = some x → x.ptype = 7 → v.isOpen = true → inBox v.box x.src = true → v.epoch = BitVec.ofNat 16 off →
      (∀ d, d ∈ (s.part p).peers → ∀ e, d.2 ≠ .unicast x.src w e) →
      ∃ t, exec (.winClose n k) s = .next t ∧ s.TakesPkt t n.val k ∧ s.SameMemory t ∧ t.reeds = s.reeds ∧ t.xfers = s.xfers ∧
        t.window p w = (if v.puts = [] then { v with isOpen := false, closing := false } else { v with closing := true }) ∧
        (v.puts = [] → ∀ d, d ∈ boxDevs v.box → d ≠ s.self →
          s.SendsPkt t (s.mkPkt p d p 7 w (v.epoch.toNat + (v.slots % 65536) * 65536 + (v.first % 2 ^ 32) * 2 ^ 32) .none)))

/-- R284, R285, R397: the owner's WINDOW command opens a window of its partition, advances its 16-bit epoch and sends WIN_OPEN to every
device of its peer box; the close command closes it, at once where no put is accepted and not yet written. Both answer with status 0.
R232, R233: a granted translation that a privileged channel's descriptor awaits enters the port's cache, and the descriptor awaits it no
longer; an answer of Success to a page request takes the request away and the stream is not halted any more; an invalidation takes every
translation that meets its range out of the cache and waits, and completes once no transfer uses the range. The model's own readings in
it: entries 81, 106, 108, 121. -/
def Obligations.PagesAndWindows : Prop :=
  (∀ (s : State) (c : HCmd),
    let d := c.window
    let w := d.win
    let v := s.window c.part w
    s.TakesOwn c 0x07 → w < 64 →
    (bit (c.f 9 1) 0 = true → boxOk d.box = true → d.slots ≠ 0 →
        (if d.hbm then c.f 16 8 % 4608 = 0 ∧ d.slots % 18 = 0 ∧ c.f 12 2 < 8 else d.place < 256) → s.windowOk c.part d = true →
      ∃ t, exec (.windowOpen c) s = .next t ∧ t.window c.part w = { v with isOpen := true, epoch := v.epoch + 1, hbm := d.hbm, place := d.place, first := d.first,
                                                                           slots := d.slots, box := d.box, closing := false } ∧
        (∀ i, i ≠ w → t.window c.part i = s.window c.part i) ∧ s.SameMemory t ∧ t.reeds = s.reeds ∧ s.Answers t c 0 [] ∧
        ∀ e, e ∈ boxDevs d.box → e ≠ s.self → s.SendsPkt t (s.mkPkt c.part e c.part 6 w
          ((v.epoch + 1).toNat + (d.slots % 65536) * 65536 + (d.first % 2 ^ 32) * 2 ^ 32) .none)) ∧
    (bit (c.f 9 1) 0 = false → v.isOpen = true →
      ∃ t, exec (.windowClose c) s = .next t ∧ s.SameMemory t ∧ t.reeds = s.reeds ∧ s.Answers t c 0 [] ∧
        t.window c.part w = (if v.puts = [] then { v with isOpen := false, closing := false } else { v with closing := true }) ∧
        ∀ i, i ≠ w → t.window c.part i = s.window c.part i)) ∧
  (∀ (s : State) (q : Fin 2) (x : Xfer) (base size group tag : Nat) (write : Bool) (host : List HostData) (r : PageReq),
    (s.xfer? x.id = some x → x.trans = true → x.chan ≠ 0 → (if x.out then x.dst else x.src) = .host q.val → (x.out = true → write = true) →
      ∃ t, exec (.atsTranslationCompletion q x.id base size true write host) s = .next t ∧ t.reeds = s.reeds ∧ t.tus = s.tus ∧
        t.port q.val = (s.port q.val).addPage base size write ∧
        t.xfers = s.xfers.map (fun y => if y.id = x.id then { y with trans := false } else y)) ∧
    ((s.port q.val).reqs.find? (fun e => e.group == group && e.outstanding) = some r → s.xfer? r.xfer = some x → x.chan ≠ 0 →
      ∃ t, exec (.pageResponse q group .success) s = .next t ∧ s.SameMemory t ∧ (∀ y, y ∈ t.xfers → y.id = r.xfer → y.halted = false) ∧
        (∀ e, e ∈ (t.port q.val).reqs → e.xfer ≠ r.xfer) ∧ (t.port q.val).atc = (s.port q.val).atc) ∧
    (∃ t, exec (.atsInvalidation q tag base size) s = .next t ∧ { t with ports := s.ports } = s ∧
      t.port q.val = { s.port q.val with atc := (s.port q.val).atc.filter (fun e => !overlap e.1 e.2.1 base size),
                                         invals := (s.port q.val).invals ++ [(tag, base, size)] }) ∧
    ((s.port q.val).invals.find? (fun e => e.1 == tag) = some (tag, base, size) → s.xfers.any (fun y => y.uses q.val base size) = false →
      ∃ t, exec (.atsInvalidationComplete q tag) s = .next t ∧ t.out = s.out ++ [.invalDone q.val tag] ∧ s.Counts t 0x7400 7 32 1 ∧
        (t.port q.val).invals = (s.port q.val).invals.filter (fun e => e.1 != tag) ∧ t.reeds = s.reeds ∧ t.xfers = s.xfers))

/-! ### Lodes (R262 to R283, R355, R356) -/

/-- R71, R270, R271, R279: the tokens of a TOKEN packet of its tussock's epoch enter the mesh toward their queue, and the slots of a
BULK_PUT toward their memory as fill writes; one of the next epoch is held while 64 flits suffice, and else stays in its buffer; a stale
one is dropped. CTRL puts its
message on the rill. No memory changes. The model's own readings in it: entries 48, 56, 121, 129. -/
def Obligations.LodePackets : Prop :=
  ∀ (s : State) (n : Fin 24) (k : Nat) (x : LPkt) (ts : List Token) (b : List Byte) (m : RillMsg),
    let u := targetTus x
    let port := targetPort x
    let edge := 16 * (15 * (fenOf u % 2)) + u % 256 % 16
    let e := (s.tus1 u).epoch
    let slot := bits x.arg.toNat 31 16
    (s.Traffic n.val k 1 x → x.pay = .toks ts →
      (x.epoch = e → port < 24 →
        ∃ t ps, exec (.token n k) s = .next t ∧ s.TakesPkt t n.val k ∧ s.SameMemory t ∧ t.reeds = s.reeds ∧ t.tus = s.tus ∧
          t.waiting ((u / 16) % 2) edge = s.waiting ((u / 16) % 2) edge ++ ps ∧ (∀ q, q ∈ ps → q.dst = tusNode u) ∧
          ps.map (fun q => q.pay) = ts.map (fun tok => .token tok (.queue (24 * u + port) (bits x.target.toNat 2 0)))) ∧
      (x.epoch = e + 1 → sumOf ((s.lode n.val).held.map (fun y => y.flits)) + x.flits ≤ 64 →
        ∃ t, exec (.token n k) s = .next t ∧ s.TakesPkt t n.val k ∧ s.LodesOnly t ∧ (t.lode n.val).held = (s.lode n.val).held ++ [x]) ∧
      (x.epoch = e + 1 → 64 < sumOf ((s.lode n.val).held.map (fun y => y.flits)) + x.flits → exec (.token n k) s = .next s) ∧
      (x.epoch ≠ e → x.epoch ≠ e + 1 →
        ∃ t, exec (.token n k) s = .next t ∧ s.TakesPkt t n.val k ∧ s.SameMemory t ∧ t.reeds = s.reeds ∧ t.mesh = s.mesh)) ∧
    (s.Traffic n.val k 2 x → x.pay = .slots b → x.epoch = e →
      ∃ t, exec (.bulkPut n k) s = .next t ∧ s.TakesPkt t n.val k ∧ s.SameMemory t ∧ t.reeds = s.reeds ∧ t.tus = s.tus ∧
        ∀ i, i < b.length / 256 → ∃ q, q ∈ t.waiting ((slot + i) % 2) edge ∧ q.dst = tusNode u ∧
          q.pay = .fill { space := if port = 24 then .pool u else .spad (24 * u + port), slot := slot + i, data := (b.drop (256 * i)).take 256 } none 0) ∧
    (s.Traffic n.val k 17 x → x.pay = .rill m →
      ∃ t, exec (.ctrl n k) s = .next t ∧ s.TakesPkt t n.val k ∧ { t with lodes := s.lodes, rillq := s.rillq } = s ∧
        Tbl.lk [] t.rillq (240 * fenOf m.destT) = Tbl.lk [] s.rillq (240 * fenOf m.destT) ++
          [{ m with srcT := 240 * fenOf m.destT, dev := 0, inp := 0, age := s.stamp, served := [] }])

/-- R265 to R268, R272 to R277: on a lode that is UP, a frame whose tag does not verify releases nothing, asks for a resend and, a second
time at the same flit, takes the lode out of service; a good frame of one flit in sequence delivers the packet that ends with it, kept for
this device; a control block returns credits, drops the acknowledged flits and queues the rest on a NAK; an idle frame time sends 17 flits
and a control block, encrypted and on the lanes in turn, and no frame leaves that would carry FRAME_SEQ 2^47. The model's own readings in it: entries 33, 50, 121. -/
def Obligations.LodeFrames : Prop :=
  ∀ (s : State) (n : Fin 24) (fs : List Flit) (corrected : List Nat) (bad : Nat) (f : Flit) (x : LPkt) (cb : CtlBlock),
    let l := s.lode n.val
    s.lodeState n.val = 2 →
    (l.failed = none →
      ∃ t, exec (.lodeFrameReceive n fs false corrected bad) s = .next t ∧ (t.lode n.val).inbox = l.inbox ∧ (t.lode n.val).rxSeq = l.rxSeq ∧
        (t.lode n.val).nak = true ∧ (t.lode n.val).failed = some (l.rxSeq, true) ∧ t.lodeState n.val = 2 ∧ s.SameMemory t ∧ t.reeds = s.reeds ∧
        s.Counts t (0x3100 + n.val) 6 32 bad) ∧
    (∀ tag, l.failed = some (l.rxSeq, tag) →
      ((∃ g, g ∈ fs ∧ g.lseq = l.rxSeq) →
        ∃ t, exec (.lodeFrameReceive n fs false corrected bad) s = .next t ∧ t.lodeState n.val = 3 ∧ (t.lode n.val).inbox = l.inbox ∧
          t.isOut (lodeUnit n.val) = true ∧ (t.lode n.val).sent = []) ∧
      ((∀ g, g ∈ fs → g.lseq ≠ l.rxSeq) →
        ∃ t, exec (.lodeFrameReceive n fs false corrected bad) s = .next t ∧ t.lodeState n.val = 2 ∧ (t.lode n.val).inbox = l.inbox ∧
          (t.lode n.val).nak = true ∧ (t.lode n.val).failed = l.failed)) ∧
    (l.failed = none → f.lseq = l.rxSeq → f.good = true → f.rill = none → f.pkt = some x → s.lodeMisrouted x = false → x.dst = s.self →
      ∃ t, exec (.lodeFrameReceive n [f] true corrected bad) s = .next t ∧ (t.lode n.val).inbox = l.inbox ++ [x] ∧
        (t.lode n.val).rxSeq = l.rxSeq + 1 ∧ s.SameMemory t ∧ t.reeds = s.reeds ∧ t.parts = s.parts) ∧
    (∃ t, exec (.lodeControlBlock n cb) s = .next t ∧ s.LodesOnly t ∧ (∀ m, m ≠ n.val → t.lode m = s.lode m) ∧ (t.lode n.val).inbox = l.inbox ∧
      (t.lode n.val).egress = l.egress ∧ (t.lode n.val).sent = l.sent.filter (fun g => !seqLe g.lseq cb.ackLseq) ∧
      (t.lode n.val).again = (if cb.nak then l.sent.filter (fun g => !seqLe g.lseq cb.ackLseq) else l.again) ∧
      (t.lode n.val).throttle = cb.throttle ∧ (t.lode n.val).locked = cb.locked ∧
      ∀ vc c, cb.credits = [(vc, c)] → Tbl.lk (vcBuffer vc) (t.lode n.val).credits vc = Nat.min (vcBuffer vc) (Tbl.lk (vcBuffer vc) l.credits vc + c)) ∧
    (l.again = [] → l.rillOut = [] → l.cur = none → l.egress = [] → l.switchTx = none → l.txFrame < 2 ^ 47 →
      ∃ t gs c, exec (.lodeFrameTransmit n) s = .next t ∧ gs.length = 17 ∧ (∀ g, g ∈ gs → g.part = none ∧ g.rill = none) ∧
        t.out = s.out ++ [.frame n.val gs c (onLanes l.txBlock
          (frameBlocks (l.keyTx.getD 0) (frameNonce n.val (b2n (!s.initiates n.val)) l.txFrame) gs c))] ∧
        c.frameSeq = l.txFrame ∧ c.ackLseq = l.rxSeq - 1 ∧ c.nak = l.nak ∧ c.throttle = s.power.throttled ∧ c.srcDev = s.self ∧
        c.credits = l.back.filter (fun e => !(e.1 == 1 && l.holdFull)) ∧ (t.lode n.val).back = l.back.filter (fun e => e.1 == 1 && l.holdFull) ∧
        (t.lode n.val).txFrame = l.txFrame + 1 ∧ (t.lode n.val).txSeq = l.txSeq + 17 ∧ (t.lode n.val).txBlock = l.txBlock + 18 ∧
        s.SameMemory t ∧ t.reeds = s.reeds) ∧
    (l.switchTx ≠ some l.txFrame → 2 ^ 47 ≤ l.txFrame → exec (.lodeFrameTransmit n) s = .next s)

/-- R355, R356: a HELLO whose chain, generation, lifecycle and SVN pass leads the initiator to send its key, and the responder to await
it; a key whose signature verifies leads the responder to its ciphertext and DONE, and that ciphertext the initiator to its DONE; a DONE
whose tag verifies brings the lode UP with full credits, or in a rekey sets the switch. A check that fails fails the handshake, the second
time for good; the retry sends HELLO again; the rekey of an initiator begins when a frame number reaches 2^46. No memory changes. R264,
R273, R288: a lane that loses lock, or whose corrected symbols exceed 2^20 in a second, takes its lode out of service, and a rate within
that bound does not; training leaves a lode DOWN where it fails or where the peer is not the expected neighbour, and else begins its
handshake. The model's own readings in it: entries 34, 50, 121, 122. -/
def Obligations.LodeHandshake : Prop :=
  (∀ (s : State) (n : Fin 24) (m : PeerHello) (msg : List Byte) (q : Nat) (tag : BitVec 128) (k : BitVec 256),
    let l := s.lode n.val
    let i := s.draw.1
    let signed := fun (t b : List Byte) => b ++ s.fuses.sign (t ++ b)
    let key := padTo 1568 (Config.kemPk ((Config.random i).setWidth 512))
    let cipher := signed (l.transcript ++ msg) (padTo 1568 (Config.kemCipher (msg.take 1568) (Config.random i)))
    let due := doneTag k l.transcript (if l.rekey then some q else none)
    let ok := m.chainOk = true ∧ m.generation = s.get 0x0000 4 ∧ m.lifecycle = 0 ∧ s.get 0x1300 1 ≤ m.svn
    (l.hs = .hello → ok → s.initiates n.val = true →
      ∃ t, exec (.lodeHello n m) s = .next t ∧ (t.lode n.val).hs = .cipher ∧ (t.lode n.val).secret = Config.random i ∧ s.SameMemory t ∧
        let sent := signed (l.transcript ++ m.bytes) key
        t.out = s.out ++ [.lodeHs n.val .kemKey sent] ∧ (t.lode n.val).transcript = l.transcript ++ m.bytes ++ sent) ∧
    (l.hs = .hello → ok → s.initiates n.val = false →
      ∃ t, exec (.lodeHello n m) s = .next t ∧ (t.lode n.val).hs = .kemKey ∧ t.out = s.out ∧ (t.lode n.val).transcript = m.bytes ++ l.transcript) ∧
    (l.hs = .hello → ¬ ok → l.rekey = false →
      (l.hsFailed = false → ∃ t, exec (.lodeHello n m) s = .next t ∧ (t.lode n.val).hs = .failed ∧ (t.lode n.val).hsFailed = true ∧ s.LodesOnly t) ∧
      (l.hsFailed = true → ∃ t, exec (.lodeHello n m) s = .next t ∧ (t.lode n.val).hs = .dead ∧ t.lodeState n.val = 0 ∧ s.Counts t 0x1300 3 32 1)) ∧
    (l.hs = .kemKey → s.initiates n.val = false →
      let keys := ({ l with secret := Config.kemShared (msg.take 1568) (Config.random i), transcript := l.transcript ++ msg ++ cipher } : Lode).keys
      ∃ t, exec (.lodeKemKey n msg true) s = .next t ∧ (t.lode n.val).hs = .done ∧ (t.lode n.val).newTx = some keys.2 ∧
        (t.lode n.val).newRx = some keys.1 ∧ (t.lode n.val).transcript = l.transcript ++ msg ++ cipher ∧ s.SameMemory t ∧
        t.out = s.out ++ [.lodeHs n.val .cipher cipher,
                          .lodeHs n.val .done (leBytes 16 (doneTag keys.2 (l.transcript ++ msg ++ cipher) none).toNat)]) ∧
    (l.hs = .cipher → s.initiates n.val = true →
      let keys := ({ l with secret := Config.kemDecap (l.secret.setWidth 512) (msg.take 1568), transcript := l.transcript ++ msg } : Lode).keys
      let switch := if l.rekey then some (l.txFrame + 2 ^ 16) else none
      ∃ t b, exec (.lodeKemCiphertext n msg true) s = .next t ∧ (t.lode n.val).hs = .done ∧ (t.lode n.val).newTx = some keys.1 ∧
        (t.lode n.val).newRx = some keys.2 ∧ (t.lode n.val).transcript = l.transcript ++ msg ∧ (t.lode n.val).switchTx = switch ∧
        t.out = s.out ++ [.lodeHs n.val .done (b ++ leBytes 16 (doneTag keys.1 (l.transcript ++ msg) switch).toNat)] ∧
        b = (match switch with | some q => leBytes 6 q | none => []) ∧ s.SameMemory t) ∧
    (l.hs = .done → l.newRx = some k →
      (tag ≠ due → l.rekey = false → l.hsFailed = false →
        ∃ t, exec (.lodeDone n tag q) s = .next t ∧ (t.lode n.val).hs = .failed ∧ (t.lode n.val).hsFailed = true ∧ s.LodesOnly t) ∧
      (l.rekey = false →
        ∃ t, exec (.lodeDone n due q) s = .next t ∧ t.lodeState n.val = 2 ∧ (t.lode n.val).keyTx = l.newTx ∧ (t.lode n.val).keyRx = l.newRx ∧
          (t.lode n.val).credits = [] ∧ (t.lode n.val).txFrame = 0 ∧ (t.lode n.val).rxFrame = 0 ∧ s.Counts t 0x1300 2 32 1 ∧ s.SameMemory t) ∧
      (l.rekey = true →
        ∃ t, exec (.lodeDone n due q) s = .next t ∧ (t.lode n.val).switchRx = some q ∧ (t.lode n.val).rekey = false ∧ (t.lode n.val).keyRx = l.keyRx)) ∧
    (l.hs = .failed → s.mayHandshake = true →
      ∃ t, exec (.lodeHandshakeRetry n) s = .next t ∧ (t.lode n.val).hs = .hello ∧ (t.lode n.val).transcript = s.helloBytes i ∧
        t.out = s.out ++ [.lodeHs n.val .hello (s.helloBytes i)] ∧ s.SameMemory t) ∧
    (s.lodeState n.val = 2 → s.initiates n.val = true → l.rekey = false → (2 ^ 46 ≤ l.txFrame ∨ 2 ^ 46 ≤ l.rxFrame) →
      ∃ t, exec (.lodeRekey n) s = .next t ∧ (t.lode n.val).rekey = true ∧ (t.lode n.val).hs = .cipher ∧ (t.lode n.val).keyTx = l.keyTx ∧
        (t.lode n.val).keyRx = l.keyRx ∧ t.out = s.out ++ [.lodeHs n.val .kemKey (signed [] key)] ∧ s.SameMemory t)) ∧
  (∀ (s : State) (n : Fin 24) (lane : Fin 4) (tr : Trained) (d : Nat) (wrap : Bool),
    let st := s.lodeState n.val
    (st ≠ 3 → ∃ t, exec (.laneLockLoss n lane) s = .next t ∧ t.lodeState n.val = 3 ∧ t.isOut (lodeUnit n.val) = true) ∧
    (∃ t, exec (.lodeFecRateCheck n) s = .next t ∧ (t.lode n.val).fecMark = (s.lode n.val).fec ∧
      (st ≠ 3 → t.lodeState n.val = (if (List.range 4).any (fun i =>
        decide (Tbl.lk 0 (s.lode n.val).fecMark i + 2 ^ 20 < Tbl.lk 0 (s.lode n.val).fec i)) then 3 else st))) ∧
    (st ≠ 2 → st ≠ 3 → s.boot = .training ∨ s.boot = .ready →
      (tr.locked = false ∨ tr.rate ≠ s.get 0x3020 (n.val / 4 + 1) →
        ∃ t, exec (.lodeTraining n tr) s = .next t ∧ t.lodeState n.val = 0 ∧ t.lodes = s.lodes ∧ s.SameMemory t) ∧
      (tr.locked = true → tr.rate = s.get 0x3020 (n.val / 4 + 1) → s.mayHandshake = true → s.neighbour (n.val / 4) = some (d, wrap) →
        (d = tr.peer.toNat →
          ∃ t, exec (.lodeTraining n tr) s = .next t ∧ t.lodeState n.val = 1 ∧ t.get (0x3100 + n.val) 2 = d ∧ t.get (0x3100 + n.val) 3 = tr.delay.toNat ∧
            (t.lode n.val).hs = .hello ∧ t.out = s.out ++ [.lodeHs n.val .hello (s.helloBytes s.draw.1)] ∧ s.SameMemory t) ∧
        (d ≠ tr.peer.toNat →
          ∃ t, exec (.lodeTraining n tr) s = .next t ∧ t.lodeState n.val = 0 ∧ (t.lode n.val).hs = (s.lode n.val).hs ∧
            (∀ k, k ≠ n.val → t.lode k = s.lode k) ∧ s.SameMemory t))))

/-- R280, R281: a locked member notes the error of an accepted edge and slews it away, and ignores an edge more than 256 counts off,
counting it; a member that acquires is LOCKED after four edges in a row within 4 counts, and one further off begins again; SYNC_OUT rises
at a multiple of the sync period; eight expected edges without one drop the lock. The model's own readings in it: entries 1, 121. -/
def Obligations.SyncEdges : Prop :=
  ∀ (s : State),
    let e := s.syncError
    let note := (BitVec.ofInt 16 e.2).toNat
    (s.inMire = true → s.master ≠ s.self → s.get 0x3400 5 = 2 →
      (256 < e.2.natAbs → exec .syncInEdge s = .next (s.bump 0x3400 6)) ∧
      (e.2.natAbs ≤ 256 → ∃ t, exec .syncInEdge s = .next t ∧ t.mire.slew = -e.2 ∧ t.mire.missed = 0 ∧ t.get 0x3400 7 = note ∧ t.get 0x3400 5 = 2 ∧
        { t with mire := s.mire, dict := s.dict } = s)) ∧
    (s.inMire = true → s.master ≠ s.self → s.get 0x3400 5 = 1 →
      (e.2.natAbs ≤ 4 → ∃ t, exec .syncInEdge s = .next t ∧ t.timeBase = s.timeBase ∧ t.get 0x3400 7 = note ∧
        t.get 0x3400 5 = (if 4 ≤ s.mire.goodEdges + 1 then 2 else 1) ∧ t.mire.goodEdges = (if 4 ≤ s.mire.goodEdges + 1 then 0 else s.mire.goodEdges + 1)) ∧
      (4 < e.2.natAbs → s.syncSource = none → ∃ t, exec .syncInEdge s = .next t ∧ t.mire.goodEdges = 0 ∧ t.timeBase = s.timeBase ∧ t.get 0x3400 5 = 1)) ∧
    (∀ m, s.inMire = true → s.master ≠ s.self → s.get 0x3400 5 = 0 → s.syncSource = some m →
      ∃ t, exec .syncInEdge s = .next t ∧ t.get 0x3400 5 = 1 ∧ t.timeBase = BitVec.ofInt 64 (((m + 1) * 2 ^ s.get 0x3400 1 : Nat) + s.syncAdj)) ∧
    (s.timeBase.toNat % 2 ^ s.get 0x3400 1 = 0 → ∃ t, exec .syncOutPulse s = .next t ∧ t.mire.syncOut = true ∧ t.out = s.out ++ [.syncOut] ∧
      { t with mire := s.mire, out := s.out } = s) ∧
    (s.timeBase.toNat % 2 ^ s.get 0x3400 1 ≠ 0 → exec .syncOutPulse s = .next s) ∧
    (s.inMire = true → s.master ≠ s.self → s.get 0x3400 5 ≠ 0 → 8 ≤ s.mire.missed →
      ∃ t, exec .syncLost s = .next t ∧ t.get 0x3400 5 = 0 ∧ t.mire.missed = 0 ∧ t.mire.goodEdges = 0 ∧ t.mire.slew = 0 ∧ t.timeBase = s.timeBase ∧
        s.SameMemory t ∧ t.reeds = s.reeds)

/-! ### Power, throttle, droop and ageing (R25, R326 to R341) -/

/-- R25, R331 to R335, R340: an estimate adds to its window; a PMBus read sets its regulator's power and their sum, and one that fails is
noted and, a second time in a row, marks the fault; the window's end clears its sums, keeps the last 64 ratios and bounds their mean; a
droop stretches its tussock once and is counted, and supply recovery ends it; a settled change sets the operating point, which a throttled
device keeps; a trim adds 5 mV up to 60 mV, and beyond that raises OP_MAX at the next boundary. The model's own readings in it: entries
40, 61, 86, 121, 122. -/
def Obligations.PowerLoop : Prop :=
  ∀ (s : State) (mw amps v m : Nat) (reg : Fin 16) (islands fixed : List Nat) (u : Fin 256) (pt : Nat),
    let p := s.power
    (amps ≤ s.get 0x2000 5 → p.hold = false →
      ∃ t, exec (.powerEstimate mw amps) s = .next t ∧ { t with power := s.power } = s ∧ t.power.estSum = p.estSum + mw * p.coeff / 65536 ∧
        t.power.estCount = p.estCount + 1 ∧ t.power.amps = amps ∧ t.power.overCurrent = p.overCurrent ∧ t.power.throttled = p.throttled ∧
        (10 * amps < 9 * s.get 0x2000 5 → p.ocWarn = false → p.ocClear = none → t.power.ocClear = some s.timeBase)) ∧
    (∃ t, exec (.pmbusRead reg (some v)) s = .next t ∧ { t with power := s.power, dict := s.dict } = s ∧ t.power.watts = Tbl.up p.watts reg.val v ∧
      t.power.measured = t.power.total ∧ t.power.pmbusFault = false ∧ t.get 0x2010 4 = t.power.total % 65536) ∧
    (Tbl.lk false p.failed reg.val = false →
      exec (.pmbusRead reg none) s = .next { s with power := { p with failed := Tbl.up p.failed reg.val true } }) ∧
    (Tbl.lk false p.failed reg.val = true →
      ∃ t, exec (.pmbusRead reg none) s = .next t ∧ t.power.pmbusFault = true ∧ t.power.measured = p.measured ∧ s.SameMemory t ∧ t.reeds = s.reeds) ∧
    (∃ t, exec (.powerWindow islands fixed) s = .next t ∧ t.power.estSum = 0 ∧ t.power.estCount = 0 ∧ t.power.ratios.length ≤ 64 ∧
      32768 ≤ t.power.ratio ∧ t.power.ratio ≤ 131072 ∧ t.reeds = s.reeds ∧ s.SameMemory t ∧
      t.get 0x2010 3 = (if p.estCount = 0 then 0 else p.estSum / p.estCount / 1000) % 65536) ∧
    ((s.tus1 u.val).stretched = false →
      ∃ t, exec (.droopDetected u) s = .next t ∧ (t.tus1 u.val) = { s.tus1 u.val with stretched := true } ∧ (∀ w, w ≠ u.val → t.tus1 w = s.tus1 w) ∧
        t.reeds = s.reeds ∧ s.Counts t 0x2040 4 64 1) ∧
    ((s.tus1 u.val).stretched = true → exec (.droopDetected u) s = .next s) ∧
    (∃ t, exec (.supplyRecovery u) s = .next t ∧ { t with tus := s.tus } = s ∧ t.tus1 u.val = { s.tus1 u.val with stretched := false } ∧
      ∀ w, w ≠ u.val → t.tus1 w = s.tus1 w) ∧
    (p.settling = some pt →
      ∃ t, exec .opPointSettled s = .next t ∧ t.power = { p with settling := none } ∧ { t with power := s.power, dict := s.dict } = s ∧
        t.get 0x2000 3 = (if p.throttled then s.get 0x2000 3 else pt)) ∧
    (∃ t, exec (.voltageTrim m) s = .next t ∧ t.reeds = s.reeds ∧ s.SameMemory t ∧ t.get 0x2040 2 = m % 65536 ∧
      (s.get 0x2040 1 + 5 ≤ 60 → t.get 0x2040 1 = s.get 0x2040 1 + 5 ∧ t.power.trimPending = p.trimPending + 1 ∧ t.power.opMaxPending = p.opMaxPending ∧
        t.sedge.dirty = true) ∧
      (60 < s.get 0x2040 1 + 5 → t.get 0x2040 1 = s.get 0x2040 1 ∧ t.power.opMaxPending = p.opMaxPending + 1 ∧ t.power.trimPending = p.trimPending))

/-- R336 to R339, R341: over-current, over-temperature and BRAKE_N each throttle the device, which holds firing starts and announces it;
the hold of stage 1 ends at P7, 1 µs later; a cause clears after 1 ms below its clearing level; over-temperature that stays for 1 ms at P7
begins stage 2, in which holds alternate; BRAKE_N that stays for 1 s raises its event once; a thermal trip stops every clock. No memory
changes. The model's own readings in it: entries 60, 121. -/
def Obligations.EmergencyThrottle : Prop :=
  ∀ (s : State) (mw amps : Nat) (hot : BitVec 16) (hold : Bool) (at_ : W64),
    let p := s.power
    let lim : Int := 16 * (s.get 0x2020 2 : Int)
    (s.get 0x2000 5 < amps → p.throttled = false → s.timeBase.toNat + 1600 < 2 ^ 64 →
      ∃ t, exec (.powerEstimate mw amps) s = .next t ∧ t.power.overCurrent = true ∧ t.power.throttled = true ∧ t.power.hold = true ∧
        t.power.p7At = some (s.timeBase + 1600) ∧ t.power.ocClear = none ∧ t.reeds = s.reeds ∧ s.SameMemory t ∧ t.get 0x2000 3 = s.get 0x2000 3) ∧
    (∃ t, exec (.pmbAlertN true) s = .next t ∧ t.power.ocWarn = true ∧ t.power.overCurrent = true ∧ t.power.throttled = true ∧ t.reeds = s.reeds ∧
      s.SameMemory t ∧ (p.throttled = false → t.power.hold = true ∧ t.power.p7At = some (s.timeBase + 1600)) ∧
      (p.overCurrent = false → s.Counts t 0x2030 2 32 1)) ∧
    exec (.pmbAlertN false) s = .next { s with power := { p with ocWarn := false } } ∧
    (hot.toInt < lim →
      ∃ t, exec (.dipwellSample hot) s = .next t ∧ t.get 0x2020 1 = hot.toNat ∧ t.power.overTemp = p.overTemp ∧ t.power.throttled = p.throttled ∧
        { t with power := s.power, dict := s.dict } = s ∧ (lim - 80 < hot.toInt → t.power.otClear = none) ∧
        (hot.toInt ≤ lim - 80 → p.otClear = none → t.power.otClear = some s.timeBase)) ∧
    (lim ≤ hot.toInt →
      ∃ t, exec (.dipwellSample hot) s = .next t ∧ t.get 0x2020 1 = hot.toNat ∧ t.power.overTemp = true ∧ t.power.throttled = true ∧ t.power.otClear = none ∧
        t.reeds = s.reeds ∧ s.SameMemory t) ∧
    (p.overTemp = true → s.past p.otClear (msCycles 1) = true →
      ∃ t, exec (.emergencyClear true) s = .next t ∧ t.power.overTemp = false ∧ t.power.throttled = p.throttled ∧ { t with power := s.power } = s ∧
        (p.overCurrent = false → p.brake = false → p.stage2 = true → t.power.stage2 = false ∧ t.power.hold = false)) ∧
    (p.overCurrent = true → p.ocWarn = false → s.past p.ocClear (msCycles 1) = true →
      ∃ t, exec (.emergencyClear false) s = .next t ∧ t.power.overCurrent = false ∧ t.power.throttled = p.throttled ∧ { t with power := s.power } = s) ∧
    (p.throttled = true → p.overTemp = true → p.p7At = some at_ → at_.toNat + msCycles 1 ≤ s.timeBase.toNat →
      exec .stage2Throttle s = .next { s with power := { p with stage2 := true, hold := true } }) ∧
    (p.stage2 = true → exec (.stage2Hold hold) s = .next { s with power := { p with hold := hold } }) ∧
    (p.brake = false →
      ∃ t, exec .brakeNAssert s = .next t ∧ t.power.brake = true ∧ t.power.brakeAt = some s.timeBase ∧ t.power.throttled = true ∧ t.reeds = s.reeds ∧
        s.SameMemory t ∧ (p.throttled = false → t.power.hold = true ∧ t.power.p7At = some (s.timeBase + 1600))) ∧
    (p.brake = true → p.brakeHeld = false → p.brakeAt = some at_ → at_.toNat + msCycles 1000 ≤ s.timeBase.toNat →
      ∃ t, exec .brakeHeld s = .next t ∧ t.power = { p with brakeHeld := true } ∧ t.reeds = s.reeds ∧ s.SameMemory t ∧ s.Counts t 0x2030 1 32 1) ∧
    (∃ t, exec .brakeNDeassert s = .next t ∧ t.power.brake = false ∧ t.power.brakeAt = none ∧ t.power.throttled = p.throttled ∧
      { t with power := s.power } = s) ∧
    (∃ t, exec .thermalTrip s = .next t ∧ t.power = { p with tripped := true } ∧ { t with power := s.power } = s)

/-! ### Fens, the watchdog and the generator (R342, R416 to R419) -/

/-- R342, R416 to R419: heartbeats are counted until their core answers; a fen found hung awaits its recovery, and a running section with
tussocks in it faults with FEN_HUNG; its recovery resets its islands, which keeps their counters and advances their epochs, goes on after
a self-test that passes, and ends in READY; a step that fails is repeated once, and the second time the fen is out of service. A watchdog
or an uncorrectable error of the management memory keeps a crash record and resets the device with its cause; the generator reseeds after
2^20 requests. The model's own readings in it: entries 62, 93, 121, 122. -/
def Obligations.FensAndFatalFaults : Prop :=
  ∀ (s : State) (f : Fin 2) (p : Fin 8) (u : Run) (cr : CrashRead) (why : HungWhy) (r : FenRec) (ok : Bool),
    (s.reeveRuns = true →
      (∃ t, exec .ccHeartbeat s = .next t ∧ t.out = s.out ++ [.heartbeat 0, .heartbeat 1] ∧ (t.fen f.val).unanswered = (s.fen f.val).unanswered + 1 ∧
        { t with out := s.out, fens := s.fens } = s) ∧
      (∃ t, exec (.reeveWatchdog cr) s = .next t ∧ t.boot = .phaseA ∧ t.get 0x6010 1 = 3 ∧ (∃ b, t.crash = some b ∧ b.length = 256) ∧ t.fuses = s.fuses ∧
        t.slots = s.slots ∧ t.reeds = [] ∧ t.parts = [] ∧ t.tap = s.tap) ∧
      (∃ t, exec (.mgmtUncorrectable cr) s = .next t ∧ t.boot = .phaseA ∧ t.get 0x6010 1 = 4 ∧ (∃ b, t.crash = some b ∧ b.length = 256) ∧ t.fuses = s.fuses ∧
        t.slots = s.slots ∧ t.reeds = [] ∧ t.parts = [] ∧ t.tap = s.tap)) ∧
    (∃ t, exec (.ccHeartbeatAnswer f) s = .next t ∧ t.fen f.val = { s.fen f.val with unanswered := 0 } ∧ { t with fens := s.fens } = s) ∧
    ((s.fen f.val).recovering = none → s.fenState f.val ≠ 2 → why ≠ .heartbeat ∨ 2 ≤ (s.fen f.val).unanswered →
      ∃ t, exec (.fenHung f why) s = .next t ∧ (t.fen f.val).recovering = some { step := 0 } ∧
        ((s.part p.val).run = some u → u.sec.tussocks.any (fun w => fenOf w == f.val) = true →
          (t.part p.val).run = none ∧ (t.part p.val).faulted = true ∧ (t.part p.val).staged = none ∧ t.get (0x5100 + p.val) 6 = SCause.fenHung.code)) ∧
    ((s.fen f.val).recovering = some r →
      (r.step = 0 → f.val = 0 ∨ s.eastFree = true →
        ∃ t, exec (.fenRecoveryStart f true) s = .next t ∧ (t.fen f.val).recovering = some { step := 3 } ∧ t.fenState f.val = 1 ∧ t.hbmStacks = s.hbmStacks ∧
          t.parts = s.parts ∧ (∀ q, fenOf (tusOf q) = f.val →
            (t.reed q).idle = (s.reed q).idle ∧ (t.reed q).slack = (s.reed q).slack ∧ (t.reed q).spad = [] ∧ (t.reed q).status = .unassigned) ∧
          (∀ q, fenOf (tusOf q) ≠ f.val → t.reed q = s.reed q) ∧
          (∀ w, w < 256 → fenOf w = f.val → t.tus1 w = { epoch := (s.tus1 w).epoch + 1 }) ∧ ∀ w, fenOf w ≠ f.val → t.tus1 w = s.tus1 w) ∧
      (r.step = 0 → f.val = 1 → s.eastFree = false →
        ∃ t, exec (.fenRecoveryStart f true) s = .next t ∧ t.fens = s.fens ∧ t.causeway = s.causeway ∧ t.reeds = s.reeds ∧ s.SameMemory t) ∧
      (r.step = 3 → ∃ t, exec (.fenSelfTestComplete f true []) s = .next t ∧ t.fen f.val = { s.fen f.val with recovering := some { step := 4 } } ∧
        { t with fens := s.fens } = s) ∧
      (r.step = 4 → ∃ t, exec (.fenRecovered f true) s = .next t ∧ (t.fen f.val).recovering = none ∧ t.fenState f.val = 0 ∧ t.reeds = s.reeds ∧
        t.causeway = (s.causeway && f.val != 1)) ∧
      (r.failed = false → (r.step = 0 →
          ∃ t, exec (.fenRecoveryStart f false) s = .next t ∧ t.fen f.val = { s.fen f.val with recovering := some { r with failed := true } }) ∧
        (r.step = 3 → ∃ t, exec (.fenSelfTestComplete f false []) s = .next t ∧ (t.fen f.val).recovering = some { r with failed := true }) ∧
        (r.step = 4 → ∃ t, exec (.fenRecovered f false) s = .next t ∧ (t.fen f.val).recovering = some { r with failed := true })) ∧
      (r.failed = true → r.step = 4 → ok = false →
        ∃ t, exec (.fenRecovered f ok) s = .next t ∧ (t.fen f.val).recovering = none ∧ t.fenState f.val = 2)) ∧
    (2 ^ 20 ≤ s.sedge.draws → ∃ t, exec .rngReseed s = .next t ∧ t.sedge = { s.sedge with draws := 0 } ∧ { t with sedge := s.sedge } = s) ∧
    (s.sedge.draws < 2 ^ 20 → exec .rngReseed s = .next s)

/-! ### Start-up, resets and references (R344, R345, R405, R412 to R415, R428 to R431) -/

/-- R344, R345, R413 to R415: the phases of the reset sequence follow one another. The reeve starts from the slot that is chosen, with the
board record read and the causeway enabled, or the device is in RECOVERY; the control cores' firmware is loaded; the self-test and the
training take the units that failed out of service; DEVICE_READY is set, with the time it took, and the causeway disabled. R412, R428,
R430: a rail that comes into regulation in its turn, one that leaves it, RESET_N, and the loss of the system reference each hold the
device in reset with what R412 keeps; a rail out of its turn changes nothing; RESET_N is released with every rail in regulation, samples
the straps and gives a driving scan instruction way to IDCODE; a lost lode reference takes its group's lodes out of service. The model's
own readings in it: entries 9, 10, 90, 91, 121, 122. -/
def Obligations.ResetsAndBoot : Prop :=
  (∀ (s : State) (f : FlashRead) (k : Nat) (b : Board) (failed : List Nat) (boardOk : Bool) (us : W32),
    (s.boot = .phaseA → parseBoard f.record = some b → s.pickSlot 0 1 = some k →
      ∃ t, exec (.bootReeveStart f) s = .next t ∧ t.boot = .reeve ∧ t.bootSlot = k ∧ t.causeway = true ∧ t.boardOut = false ∧
        t.boardRec = { b with nodeId := s.boardRec.nodeId, straps := s.boardRec.straps } ∧ t.fuses = s.fuses ∧ t.slots = s.slots ∧ t.tap = s.tap) ∧
    (s.boot = .phaseA → parseBoard f.record = none → s.pickSlot 0 1 = some k →
      ∃ t, exec (.bootReeveStart f) s = .next t ∧ t.boot = .reeve ∧ t.boardRec.recordOk = false ∧ t.boardOut = true) ∧
    (s.boot = .phaseA → s.pickSlot 0 1 = none →
      ∃ t, exec (.bootReeveStart f) s = .next t ∧ t.boot = .recovery ∧ t.get 0x1100 1 = 2 ∧ t.fuses = s.fuses) ∧
    (s.boot = .reeve →
      ∃ t, exec .ccFirmwareLoaded s = .next t ∧ t.boot = .ccLoad ∧ t.ccSlot = (s.pickSlot 2 3).getD 4 ∧ s.SameMemory t) ∧
    (s.boot = .ccLoad →
      ∃ t, exec (.selfTestComplete failed) s = .next t ∧ t.boot = .selfTest ∧ t.retest = none ∧ (∀ u, u ∈ failed → t.isOut u = true) ∧
        (∀ u, s.isOut u = true → u / 2 ^ 28 ≠ 5 → u / 2 ^ 28 ≠ 6 → s.retest ≠ some u → t.isOut u = true)) ∧
    (s.boot = .selfTest →
      ∃ t, exec (.memoryTrainingComplete failed boardOk) s = .next t ∧ t.boot = .training ∧ t.boardOut = (s.boardOut || !boardOk) ∧
        (∀ u, u ∈ failed ∨ s.isOut u = true → t.isOut u = true)) ∧
    (s.boot = .training →
      ∃ t, exec (.deviceReady us) s = .next t ∧ t.boot = .ready ∧ t.causeway = false ∧ t.get 0x6010 2 = us.toNat ∧ s.SameMemory t)) ∧
  (∀ (s : State) (step : Fin 4) (node : Byte) (straps : Fin 8) (g : Fin 6),
    (s.rails = step.val → ∃ t, exec (.railApply step) s = .next t ∧ t.boot = .held ∧ t.rails = step.val + 1 ∧ s.Cleared t) ∧
    (s.rails ≠ step.val → exec (.railApply step) s = .next s) ∧
    (∃ t, exec (.railOutOfRegulation step) s = .next t ∧ t.boot = .held ∧ t.rails = Nat.min s.rails step.val ∧ s.Cleared t) ∧
    (∃ t, exec .resetNAssert s = .next t ∧ t.boot = .held ∧ t.rails = s.rails ∧ s.Cleared t) ∧
    (∃ t, exec .sysclkLoss s = .next t ∧ t.boot = .held ∧ t.rails = s.rails ∧ s.Cleared t) ∧
    (s.boot = .held → s.rails = 4 →
      ∃ t, exec (.resetNRelease node straps) s = .next t ∧ t.boot = .phaseA ∧ t.boardRec.nodeId = node ∧ t.boardRec.straps = straps.val ∧
        { t with boot := s.boot, tap := s.tap, boardRec := s.boardRec } = s ∧
        t.tap = if s.tap.ir.drives then { s.tap with ir := .idcode, driving := false, hiz := false } else s.tap) ∧
    (∃ t, exec (.lrefLoss g) s = .next t ∧ ∀ i, i < 4 → t.lodeState (4 * g.val + i) = 3))

/-! ### Host ports (R392 to R405) -/

/-- R392, R403, R430: a link that trains shows its rate, width and FLIT and ends the loss of the link; a host that PERST_N, its link, a
Function Level Reset, Bus Master Enable, its heartbeat or its reference loses is lost: its port has its reset values and the sections of
its partitions fault with HOST_LOST; a heartbeat begins its time anew; the host returns when the reason ends. The model's own readings in
it: entries 88, 89, 121, 122. -/
def Obligations.HostsComeAndGo : Prop :=
  ∀ (s : State) (q : Fin 2) (rate : Fin 7) (width : Fin 17) (flit : Bool) (v : W32) (k : ReturnKind),
    let p := s.port q.val
    (s.boot ≠ .held → p.loss.contains .perst = false → rate.val ≠ 0 →
      ∃ t, exec (.pcieLinkUp q rate width flit) s = .next t ∧ (t.port q.val).rate = rate.val ∧ (t.port q.val).width = width.val ∧
        (t.port q.val).flit = flit ∧ (t.port q.val).loss = without (without p.loss .linkDown) .refclk ∧ t.parts = s.parts ∧ t.reeds = s.reeds) ∧
    (p.loss = [] →
      (∃ t, exec (.perstNAssert q) s = .next t ∧ s.LosesHost t q.val .perst) ∧
      (∃ t, exec (.linkDownTimeout q) s = .next t ∧ s.LosesHost t q.val .linkDown) ∧
      (∃ t, exec (.functionLevelReset q) s = .next t ∧ s.LosesHost t q.val .flr) ∧
      (∃ t, exec (.busMasterDisable q) s = .next t ∧ s.LosesHost t q.val .busMaster) ∧
      (∃ t, exec (.prefLoss q) s = .next t ∧ s.LosesHost t q.val .refclk) ∧
      (p.hbLimit ≠ 0 → p.hbTime.toNat + msCycles p.hbLimit.toNat ≤ s.timeBase.toNat →
        ∃ t, exec (.heartbeatTimeout q) s = .next t ∧ s.LosesHost t q.val .heartbeat)) ∧
    (p.hbLimit = 0 ∨ s.timeBase.toNat < p.hbTime.toNat + msCycles p.hbLimit.toNat → exec (.heartbeatTimeout q) s = .next s) ∧
    (s.barOpen q.val = true →
      (∃ t, exec (.heartbeat q (.beat v)) s = .next t ∧ { t with ports := s.ports } = s ∧
        t.port q.val = { p with heartbeat := v, hbTime := s.timeBase, loss := without p.loss .heartbeat }) ∧
      (v = 0 ∨ (10 ≤ v.toNat ∧ v.toNat ≤ 60000) →
        ∃ t, exec (.heartbeat q (.limit v)) s = .next t ∧ { t with ports := s.ports } = s ∧ t.port q.val = { p with hbLimit := v, hbTime := s.timeBase })) ∧
    (∃ t, exec (.hostReturn q k) s = .next t ∧ { t with ports := s.ports } = s ∧
      t.port q.val = { p with loss := without p.loss (match k with | .perst => .perst | .flr => .flr | .busMaster => .busMaster) })

/-- R395, R396, R399, R400: RING_CTL with sizes and a vector in range enables a ring with its indices at 0 and its phase at 1, and
otherwise takes what was written and leaves it disabled; clearing ENABLE, by either command, discards what has not started and drains what has; a doorbell in range is taken, one out of
range halts the ring with ERROR 1; the coalescing time, an unmasked bit of INT_STATUS and an unmasked vector each send their message. The
model's own readings in it: entries 87, 88, 121. -/
def Obligations.RingsAndInterrupts : Prop :=
  ∀ (s : State) (q : Fin 2) (r : Fin 16) (ctl v : W32) (a b : W64) (vec : Fin 64) (e : BitVec 128) (part : Fin 8),
    let x := s.ring q.val r.val
    let p := s.port q.val
    let c := ctl.toNat
    let good := 4 ≤ bits c 30 27 ∧ bits c 30 27 ≤ 12 ∧ 4 ≤ bits c 26 23 ∧ bits c 26 23 ≤ 12 ∧ bits c 22 17 ≠ 0
    s.barOpen q.val = true →
    (x.enabled = false →
      (bit c 31 = true → good → ∃ t, exec (.ringEnable q r ctl a b) s = .next t ∧ { t with ports := s.ports } = s ∧ t.ring q.val r.val =
        { x with cmdBase := pageBase a, cplBase := pageBase b, ctl := BitVec.ofNat 32 (bits c 30 0 + 2 ^ 31), cmdHead := 0, cplTail := 0, cmdTail := 0,
                 cplHead := 0, phase := true, error := 0, unsignalled := 0 }) ∧
      (¬ (bit c 31 = true ∧ good) → ∃ t, exec (.ringEnable q r ctl a b) s = .next t ∧ { t with ports := s.ports } = s ∧ t.ring q.val r.val =
        { x with cmdBase := pageBase a, cplBase := pageBase b, ctl := BitVec.ofNat 32 (bits c 30 0) }) ∧
      exec (.ringDisable q r) s = .next s) ∧
    (x.enabled = true → bit c 31 = true →
      ∃ t, exec (.ringEnable q r ctl a b) s = .next t ∧ { t with ports := s.ports } = s ∧ t.ring q.val r.val = x) ∧
    (∀ i, x.enabled = true → i = .ringDisable q r ∨ (i = .ringEnable q r ctl a b ∧ bit c 31 = false) →
      ∃ t, exec i s = .next t ∧ { t with ports := s.ports } = s ∧ (t.ring q.val r.val).enabled = false ∧
        (t.ring q.val r.val).cmdTail = x.cmdHead ∧ (t.ring q.val r.val).held = [] ∧ (∀ i, i ∈ x.started → i ∈ (t.ring q.val r.val).discard) ∧
        (t.ring q.val r.val).draining = !(t.ring q.val r.val).discard.isEmpty) ∧
    (x.active = true →
      (v.toNat < x.cmdSize → ∃ t, exec (.cmdTail q r v .ok) s = .next t ∧ { t with ports := s.ports } = s ∧
        t.ring q.val r.val = { x with cmdTail := v.toNat }) ∧
      (x.cmdSize ≤ v.toNat → ∃ t, exec (.cmdTail q r v .ok) s = .next t ∧ (t.ring q.val r.val).error = 1 ∧ (t.ring q.val r.val).cmdTail = x.cmdTail) ∧
      (v.toNat < x.cplSize → ∃ t, exec (.cplHead q r v) s = .next t ∧ (t.ring q.val r.val).cplHead = v.toNat ∧ s.SameMemory t ∧ t.reeds = s.reeds ∧
        (p.notices = [] → (∀ i, i < 16 → (s.ring q.val i).held = []) → { t with ports := s.ports } = s)) ∧
      (x.cplSize ≤ v.toNat → ∃ t, exec (.cplHead q r v) s = .next t ∧ (t.ring q.val r.val).error = 1)) ∧
    (x.unsignalled ≠ 0 → x.firstUnsig.toNat + usCycles x.coalesceUs ≤ s.timeBase.toNat → bit (Tbl.lk 0 p.msix x.vector).toNat 96 = false →
      ∃ t, exec (.coalesceTimeout q r) s = .next t ∧ { t with ports := s.ports, out := s.out } = s ∧ t.out = s.out ++ [.msix q.val x.vector] ∧
        t.ring q.val r.val = { x with unsignalled := 0 }) ∧
    (∃ t, exec (.intMask q (.mask v)) s = .next t ∧ (t.port q.val).intMask = v ∧ t.readBar0 q.val 0x14 4 = v.toNat ∧ (t.port q.val).intStatus = p.intStatus ∧
      { t with ports := s.ports, out := s.out } = s ∧ (bit (Tbl.lk 0 p.msix 0).toNat 96 = false →
        t.out = s.out ++ (if p.intStatus &&& p.intMask &&& ~~~v ≠ 0 then [.msix q.val 0] else []))) ∧
    (∃ t, exec (.intMask q (.ack v)) s = .next t ∧ { t with ports := s.ports } = s ∧ t.port q.val = { p with intStatus := p.intStatus &&& ~~~v } ∧
      t.readBar0 q.val 0x10 4 = (p.intStatus &&& ~~~v).toNat) ∧
    (∃ t, exec (.intMask q (.notify part r)) s = .next t ∧ { t with ports := s.ports } = s ∧
      Tbl.lk 0 (t.port q.val).notify part.val = BitVec.ofNat 32 r.val ∧ (t.port q.val).rings = p.rings) ∧
    (∃ t, exec (.msixVectorUnmask q vec e) s = .next t ∧ { t with ports := s.ports, out := s.out } = s ∧ Tbl.lk 0 (t.port q.val).msix vec.val = e ∧
      (if bit e.toNat 96 = false ∧ p.pba.getLsbD vec.val = true then (t.port q.val).pba.getLsbD vec.val = false ∧ t.out = s.out ++ [.msix q.val vec.val]
       else (t.port q.val).pba = p.pba ∧ t.out = s.out))

/-- R225, R344, R346, R401, R405, R412: a read of a window that does not map answers zeros, one of a tile in its buffer is served from
that sealed copy, one of a tile in HBM4 from a fresh one; a write of an aperture register empties its buffers, and a unit gathers until
all 72 are present. Host 0's recovery command programs a slot that the device did not boot from and reports whether the image checks; the
other resets the device. The model's own readings in it: entries 12, 87, 90, 92, 116. -/
def Obligations.AperturesAndRecovery : Prop :=
  ∀ (s : State) (q : Fin 2) (w : Fin 4) (off : W32) (d : HostData) (x : W64) (k : Sealed) (piece : List Byte) (p first tn i a : Nat) (u : State) (addr : W64)
      (bytes : W32) (slot : Byte) (img : List Byte),
    let n := first + off.toNat / 4608
    (s.mapped q.val w.val = none → exec (.apertureRead q w off d) s = .next (s.emit (.aperture q.val w.val off.toNat none)) ∧
      exec (.apertureWrite q w (.unit off piece)) s = .next s) ∧
    (s.mapped q.val w.val = some (p, first, tn) →
      ((s.aperture q.val w.val).rd = some (n, k) → exec (.apertureRead q w off d) s = .next (s.emit (.aperture q.val w.val off.toNat (some k)))) ∧
      ((s.aperture q.val w.val).rd = none → s.tilePlace p tn n = some (.hbm i, a) → s.sealTile p ((s.stack i).mem.read a 4608) = some (u, k) →
        ∃ t, exec (.apertureRead q w off d) s = .next t ∧ (t.aperture q.val w.val).rd = some (n, k) ∧
          t.out = u.out ++ [.aperture q.val w.val off.toNat (some k)] ∧ s.SameMemory t) ∧
      ((s.aperture q.val w.val).wrTile = none →
        ∃ t, exec (.apertureWrite q w (.unit off piece)) s = .next t ∧ { t with ports := s.ports } = s ∧ (t.aperture q.val w.val).wrTile = some n ∧
          (t.aperture q.val w.val).wr = [(off.toNat % 4608 / 64, piece)])) ∧
    (s.barOpen q.val = true →
      ∃ t, exec (.apertureWrite q w (.reg x)) s = .next t ∧ { t with ports := s.ports } = s ∧
        t.aperture q.val w.val = { reg := BitVec.ofNat 64 (x.toNat / 32 * 32 + x.toNat % 2) }) ∧
    (s.rcvOpen q.val = true →
      (s.bootedSlot slot.toNat = false → slot.toNat < 4 → img.length = bytes.toNat →
        ∃ t, exec (.rcvWriteSlot q addr bytes slot (some img)) s = .next t ∧
          Tbl.lk {} t.slots slot.toNat = fwSlotOf s.fuses (if slot.toNat < 2 then 1 else 2) img ∧ (∀ j, j ≠ slot.toNat → Tbl.lk {} t.slots j = Tbl.lk {} s.slots j) ∧
          t.fuses = s.fuses ∧ s.SameMemory t ∧ (t.port 0).rcvAddr = addr ∧ (t.port 0).rcvStatus = if t.slotOk slot.toNat then 2 else 3) ∧
      (s.bootedSlot slot.toNat = true →
        ∃ t, exec (.rcvWriteSlot q addr bytes slot (some img)) s = .next t ∧ t.slots = s.slots ∧ (t.port 0).rcvStatus = 4) ∧
      (∃ t, exec (.rcvReset q) s = .next t ∧ t.boot = .phaseA ∧ t.get 0x6010 1 = 1 ∧ s.Cleared t ∧ t.rails = s.rails))

/-! ### Commands of the host rings (R173, R174, R215, R222 to R225, R231, R238, R290, R342, R349, R353, R376 to R379, R389, R390, R397) -/

/-- R222, R223, R231, R290, R397: the owner's MANIFEST of a quiet partition is kept; PLACE of a new tensor enters the placement that
resolves and answers with its address, and of one placed alike answers with the address it has; RELEASE of one that no section uses takes
it out; a host region in order is registered on the command's port, and taken away while no section holds it. Each answers with status 0
and changes no memory. The model's own readings in it: entries 106, 107. -/
def Obligations.PlacementCommands : Prop :=
  ∀ (s : State) (c : HCmd) (m : Manifest) (y : Placement) (z : List PoolRange) (r : Region),
    let p := c.part
    let q := s.part p
    let k := c.f 8 1
    let td : TensorDecl := { id := c.f 8 4, rows := c.f 12 4, cols := c.f 16 4, fmt := c.f 20 1, placement := BitVec.ofNat 64 (c.f 24 8) }
    let there := q.places.find? (fun x => x.tensor == td.id)
    (s.TakesOwn c 0x03 → c.f 16 4 = m.bytes.length → m.bytes.length ≤ mib → s.quiet p = true →
      ∃ t, exec (.manifest c m) s = .next t ∧ t.part p = { q with manifest := some m } ∧ (∀ i, i ≠ p → t.part i = s.part i) ∧ s.SameMemory t ∧
        t.reeds = s.reeds ∧ s.Answers t c 0 []) ∧
    (s.TakesOwn c 0x04 → td.rows ≠ 0 → td.cols ≠ 0 → placementOk td.placement false = true → fmtPlaces td.fmt = true →
      (there = none → q.places.length < 4096 → s.resolve p [] [] td 1 (fenOf (16 * (s.rect p).x)) = some (y, z) →
        ∃ t, exec (.place c) s = .next t ∧ t.part p = { q with places := q.places ++ [y] } ∧ s.SameMemory t ∧ t.reeds = s.reeds ∧
          s.Answers t c 0 [(16, 8, y.addr)]) ∧
      (there = some y → y.rows = td.rows → y.cols = td.cols → y.fmt = td.fmt → y.word = td.placement →
        ∃ t, exec (.place c) s = .next t ∧ t.parts = s.parts ∧ s.SameMemory t ∧ s.Answers t c 0 [(16, 8, y.addr)])) ∧
    (s.TakesOwn c 0x05 → there = some y → s.usedTensor p td.id = false →
      ∃ t, exec (.release c) s = .next t ∧ t.part p = { q with places := q.places.filter (fun x => !(x.tensor == td.id)) } ∧ s.SameMemory t ∧
        t.reeds = s.reeds ∧ s.Answers t c 0 []) ∧
    (∀ i, i = .hostRegionRegister c ∨ i = .hostRegionUnregister c → s.TakesOwn c 0x06 → k < 16 →
      (bit (c.f 9 1) 0 = true → c.f 16 8 % 4608 = 0 → c.f 16 8 + c.f 24 8 ≤ 2 ^ 64 → (∀ o, Tbl.lk? q.regions k = some o → s.regionUsed p o = false) →
        ∃ t, exec i s = .next t ∧ s.SameMemory t ∧ t.reeds = s.reeds ∧ s.Answers t c 0 [] ∧
          t.part p = { q with regions := Tbl.up q.regions k { port := c.port.val, base := c.f 16 8, size := c.f 24 8 } }) ∧
      (bit (c.f 9 1) 0 = false → Tbl.lk? q.regions k = some r → s.regionUsed p r = false →
        ∃ t, exec i s = .next t ∧ t.part p = { q with regions := Tbl.del q.regions k } ∧ s.SameMemory t ∧ t.reeds = s.reeds ∧ s.Answers t c 0 []))

/-- R342, R349, R353: a job key that unwraps becomes SEAL, whose key moves to OPEN, or becomes OPEN, at once where no section runs and
pending under one that does; ATTEST of a scope that host 0 may ask for, of a device that is not decommissioned, writes its report to host
memory. R225, R238, R239, R397, R404: a resupplied tile that opens and is the poisoned one is written to its HBM4 place and its entry
leaves the table, whose streams resume; a tile of HBM4 is copied to host memory sealed afresh, and a sealed tile that opens is copied from
host memory into its place. The model's own readings in it: entries 12, 50, 95, 106, 109, 110, 113. -/
def Obligations.KeysTilesAndReports : Prop :=
  (∀ (s : State) (c : HCmd) (blob : List Byte) (k : BitVec 256),
    let q := s.part c.part
    let sealer := BitVec.ofNat 16 (c.f 10 2)
    let key : TierKey := { key := k, sealer := sealer, job := true }
    (∀ i, i = .keyInstallSeal c blob ∨ i = .keyInstallOpen c blob → s.TakesOwn c 0x0A → blob.length = 1616 → q.staged = none →
        s.unwrapKey c.part sealer blob = some k →
      (c.f 8 1 = 0 → q.run = none →
        ∃ t, exec i s = .next t ∧ t.part c.part = { q with openKey := q.sealKey, sealKey := some key, pendingKey := none } ∧
          t.get (0x1200 + c.part) 2 = 2 ∧ s.SameMemory t ∧ t.reeds = s.reeds ∧ s.Answers t c 0 []) ∧
      (c.f 8 1 = 1 → q.run = none →
        ∃ t, exec i s = .next t ∧ t.part c.part = { q with openKey := some key, pendingKey := none } ∧ s.SameMemory t ∧ t.reeds = s.reeds ∧
          s.Answers t c 0 []) ∧
      (c.f 8 1 < 2 → q.run.isSome = true →
        ∃ t, exec i s = .next t ∧ t.part c.part = { q with pendingKey := some (c.f 8 1 == 1, key) } ∧ s.SameMemory t ∧ t.reeds = s.reeds ∧
          s.Answers t c 0 [])) ∧
    (s.Takes c 0x0B → c.dmaOk = true → c.port.val = 0 → c.f 8 1 = 0xFF ∨ c.f 8 1 < 8 → s.fuses.decommissioned = false →
      ∃ t, exec (.attest c) s = .next t ∧ Out.hostBytes 0 (c.f 16 8) (s.report (c.f 8 1) (BitVec.ofNat 256 (c.f 24 32))) ∈ t.out ∧
        { t with ports := s.ports, out := s.out } = s ∧ s.Answers t c 0 [])) ∧
  (∀ (s u v : State) (c : HCmd) (e : Resup) (k : Sealed) (i a : Nat) (b : List Byte),
    let p := c.part
    (s.TakesOwn c 0x08 → (s.part p).resup.find? (fun x => x.tag == c.f 8 4) = some e → c.f 16 8 % 256 = 0 →
        s.timeBase.toNat ≤ e.opened.toNat + msCycles e.limit → e.space = .hbm i → e.joined = [] →
        s.openTile p (some ((s.part p).logical e.tensor, e.row, e.col)) k = some (u, b) →
      ∃ t, exec (.resupply c (.tile k)) s = .next t ∧ (t.stack i).mem = (s.stack i).mem.write e.addr b ∧ (∀ j, j ≠ i → t.stack j = s.stack j) ∧
        t.reeds = s.reeds ∧ t.tus = s.tus ∧ (t.part p).resup = (s.part p).resup.filter (fun x => x.idx != e.idx) ∧ s.Counts t 0x7400 4 32 1 ∧
        s.Answers t c 0 []) ∧
    (∀ x, x = .tileCopyToHost c [.tile k] ∨ x = .tileCopyFromHost c [.tile k] → s.TakesOwn c 0x09 → s.tilePlace p (c.f 8 4) (c.f 12 4) = some (.hbm i, a) →
        c.f 16 4 = 1 → c.f 24 8 + 4608 ≤ 2 ^ 64 →
      (bit (c.f 20 1) 0 = true → s.sealTile p ((s.stack i).mem.read a 4608) = some (v, k) →
        ∃ t, exec x s = .next t ∧ s.SameMemory t ∧ t.reeds = s.reeds ∧ Out.hostTile c.port.val (c.f 24 8) k ∈ t.out ∧ s.Answers t c 0 []) ∧
      (bit (c.f 20 1) 0 = false → s.openTile p (s.expected p (.hbm i) a) k = some (u, b) → s.usedTensor p (c.f 8 4) = false →
        ∃ t, exec x s = .next t ∧ (t.stack i).mem = (s.stack i).mem.write a b ∧ (∀ j, j ≠ i → t.stack j = s.stack j) ∧ t.reeds = s.reeds ∧
          t.tus = s.tus ∧ s.Answers t c 0 [])))

/-- R376, R378, R379, R389: a DICT read of an entry that the host may read answers with its value and change count, and a write that
passes every check sets the entry and raises its count; a WRITE_SET one of whose entries the host may not write applies none of them and
answers with that entry's status; LOG_READ writes the entries that the log holds from a number on, which count as read. Each answers on
its ring. R375, R379: an accepted write of an entry without an action of its own sets it, raises its count and answers with SUCCESS; a
write that the caller's rights bar changes neither and answers with the status. The model's own readings in it: entries 96, 97, 105, 106.
-/
def Obligations.DictionaryCommands : Prop :=
  (∀ (s : State) (c : HCmd) (i sub : Nat) (x w : DictWrite) (e : EDef) (st : Nat),
    let a := s.hostActor c.port.val
    c.dmaOk = true →
    (s.Takes c 0x0C → c.f 8 1 = 1 → bit (c.f 9 1) 0 = false → s.barred a i sub false = none → i < 0xF000 →
      ∃ t, exec (.dict c [.read i sub]) s = .next t ∧ Out.dict (.host c.port) (c.f 24 8) [s.answer i sub 0] ∈ t.out ∧ s.SameMemory t ∧ t.reeds = s.reeds ∧
        t.changes = s.changes ∧ s.Answers t c 0 []) ∧
    (s.Takes c 0x0C → bit (c.f 9 1) 0 = true → entryAt w.idx w.sub = some e → e.acc.held = true → s.writeStatus a w = 0 →
        plainEntry w.idx w.sub = true →
      (c.f 8 1 = 1 → ∃ t, exec (.dictWriteSet c [w]) s = .next t ∧ t.get w.idx w.sub = storedBits w.idx w.sub w.value ∧
        t.changeCount w.idx = s.changeCount w.idx + 1 ∧ s.SameMemory t ∧ t.reeds = s.reeds ∧ s.Answers t c 0 [] ∧
        ∃ v, Out.dict (.host c.port) (c.f 24 8) [v] ∈ t.out ∧ v.status = 0) ∧
      (c.f 8 1 = 2 → s.barred a x.idx x.sub true = some st → x.idx < 0xF000 →
        ∃ t, exec (.dictWriteSet c [w, x]) s = .next t ∧ t.get w.idx w.sub = s.get w.idx w.sub ∧ t.changes = s.changes ∧ s.SameMemory t ∧
          t.reeds = s.reeds ∧ Out.dict (.host c.port) (c.f 24 8) [s.answer x.idx x.sub st] ∈ t.out ∧ s.Answers t c 0 [])) ∧
    (s.Takes c 0x0D → 1 ≤ c.f 12 1 → c.f 12 1 ≤ 16 →
      let l := (s.log.ring.filter (fun r => decide (c.f 8 4 ≤ r.seq))).take (c.f 12 1)
      ∃ t, exec (.logRead c) s = .next t ∧ Out.hostBytes c.port.val (c.f 16 8) (l.flatMap LogRec.bytes) ∈ t.out ∧
        t.log = s.log.markRead l ∧ s.SameMemory t ∧ t.reeds = s.reeds ∧ s.Answers t c 0 [])) ∧
  (∀ (s : State) (c : Caller) (a : Actor) (i sub len value st : Nat) (expect : W32) (e : EDef),
    (s.Writes c i sub expect len value → entryAt i sub = some e → e.acc.held = true → plainEntry i sub = true →
      ∃ t, exec (.dictWrite c i sub expect len value) s = .next t ∧ t.get i sub = storedBits i sub value ∧ s.Wrote t c i ∧
        (∀ j k, (j, k) ≠ (i, sub) → j < 65536 → k < 256 → i < 65536 → sub < 256 → t.get j k = s.get j k) ∧
        { t with dict := s.dict, changes := s.changes, sedge := s.sedge, out := s.out } = s) ∧
    (s.reeveRuns = true → s.actor c = some a → i < 0xF000 → s.barred a i sub true = some st →
      ∃ t, exec (.dictWrite c i sub expect len value) s = .next t ∧ t.changes = s.changes ∧ t.out = s.out ++ [.dict c 0 [s.answer i sub st]] ∧
        { t with dict := s.dict, out := s.out } = s ∧ (st = 2 → s.Counts t 0x1020 6 32 1)))

/-- R52, R53, R80, R82, R120, R173, R174, R215, R234, R390: a snapshot command in scope begins its snapshot, whose counters are latched 64
mesh cycles later; the probes write a reed register, the head of a queue and a stream context to host memory; CORE_SAMPLE writes
CORE_SAMPLE_CTL of a reed, where no CSW of the same reed cycle stands, and completes with the cycle; the choice report and NUMERICS_READ write their records, and NUMERICS_RESTORE into a quiet partition takes
records from the buffer. No memory changes. The model's own readings in it: entries 94, 106, 114, 115. -/
def Obligations.ObservationCommands : Prop :=
  ∀ (s : State) (c : HCmd) (buf : List Byte),
    let p := c.part
    let v := c.f 8 4
    let r := c.f 10 2
    let addr := c.f 16 8
    (∀ i, i = .snapshot c ∨ i = .snapshotAndClear c → s.Takes c 0x0E → s.snap = none → v % 2 ^ 26 = 0 → bits v 30 29 < 2 →
        c.port.val = 0 ∨ (bits v 30 29 = 1 ∧ s.owner (bits v 28 26) = 1) →
      ∃ t, exec i s = .next t ∧ t.reeds = s.reeds ∧ s.SameMemory t ∧ t.out = s.out ∧
        t.snap = some { value := BitVec.ofNat 32 v, issued := s.timeBase, apply := s.timeBase + 64, cmd := some (c.port.val, c.ring.val, p, c.id) }) ∧
    (∀ i, i = .probeReedRegister c ∨ i = .probeQueueHead c ∨ i = .probeStreamContext c → s.TakesOwn c 0x0F → r < 6144 → (s.rect p).has (tusOf r) = true →
      (c.f 8 1 = 0 →
        ∃ t, exec i s = .next t ∧ Out.hostBytes c.port.val addr (leBytes 8 (s.reedReg r (c.f 14 2))) ∈ t.out ∧
          t.reed r = { s.reed r with dropped := if c.f 14 2 = 0x028 then 0 else (s.reed r).dropped } ∧ (∀ q, q ≠ r → t.reed q = s.reed q) ∧ s.Answers t c 0 []) ∧
      (c.f 8 1 = 1 → c.f 12 1 < 8 →
        ∃ t, exec i s = .next t ∧ t.reeds = s.reeds ∧ s.Answers t c 0 [] ∧ Out.hostBytes c.port.val addr (match (s.inq r (c.f 12 1)).toks with
          | k :: _ => leBytes 64 k.data.toNat ++ leBytes 4 k.tag.toNat | [] => rep 68 0) ∈ t.out) ∧
      (c.f 8 1 = 2 → c.f 12 1 < 4 →
        ∃ t, exec i s = .next t ∧ t.reeds = s.reeds ∧ s.Answers t c 0 [] ∧ Out.hostBytes c.port.val addr (s.streamContext r (c.f 12 1)) ∈ t.out)) ∧
    (s.TakesOwn c 0x10 → r < 6144 → (s.rect p).has (tusOf r) = true →
      ∃ t, exec (.coreSample c) s = .next t ∧ (∀ q, q ≠ r → t.reed q = s.reed q) ∧ s.SameMemory t ∧
        (t.reed r).csWait = (s.reed r).csWait ++ [(c.port.val, c.ring.val, p, c.id)] ∧
        { t.reed r with csWait := (s.reed r).csWait } =
          (if (s.reed r).cswNow then s.reed r else (s.reed r).putCsCtl (BitVec.ofNat 32 (c.f 12 4))) ∧
        ((s.reed r).cswNow = false → (t.reed r).csCtl = BitVec.ofNat 32 (c.f 12 4) &&& 0xFC3FFFFF#32)) ∧
    (s.TakesOwn c 0x11 →
      ∃ t, exec (.choiceReport c) s = .next t ∧ t.reeds = s.reeds ∧ s.Answers t c 0 [] ∧
        Out.hostBytes c.port.val addr (((byOpId (s.part p).choices).take (c.f 24 2)).flatMap Choice.bytes) ∈ t.out) ∧
    (s.TakesOwn c 0x12 →
      ∃ t, exec (.numericsRead c) s = .next t ∧ t.reeds = s.reeds ∧ s.Answers t c 0 [] ∧
        Out.hostBytes c.port.val addr ((((s.part p).numer.drop (c.f 24 4)).take (c.f 28 4)).flatMap NumRec.bytes) ∈ t.out) ∧
    (s.TakesOwn c 0x13 → 128 * (c.f 24 4 + c.f 28 4) ≤ buf.length → s.quiet p = true →
      ∃ t, exec (.numericsRestore c buf) s = .next t ∧ t.reeds = s.reeds ∧ s.Answers t c 0 [] ∧
        { t.part p with numer := (s.part p).numer } = s.part p ∧ (t.part p).numer =
          ((List.range (c.f 28 4)).map (fun i => numRecOf ((buf.drop (128 * (c.f 24 4 + i))).take 128))).foldl putRec (s.part p).numer)

/-! ### The object dictionary (R76, R328, R346, R352, R357, R358, R369, R375 to R383, R388 to R391, R402, R412, R415, R419) -/

/-- R52, R253, R328, R346, R390, R412, R415, R419: an accepted CAP_REQUEST is pending with its cap and step; SNAPSHOT_CMD begins a
snapshot of its scope, with CLEAR or without; SVN_COMMIT raises the fuse counter of its class to the running image's SVN; DEVICE_RESET
resets the device with cause 2; FEN_RECOVER leaves a fen that is in service waiting for its recovery; RETEST_REQUEST names the unit of the
next reset's test. R76, R352, R357, R369, R388, R402: a PART_RECT write that defines a partition draws its key; a delete clears its
tussocks' pools and leaves nothing of it; a new owner takes the partition without its host regions, and both ports show the change; a
changed principal loses its sessions and its pending handshake. The model's own readings in it: entries 94, 97, 101, 103, 105. -/
def Obligations.EntryWrites : Prop :=
  (∀ (s : State) (c : Caller) (x value : W32) (cap : W64) (b : Byte),
    let snap := fun (v : Nat) => ({ value := BitVec.ofNat 32 (v / 2 ^ 26 * 2 ^ 26), issued := s.timeBase, apply := s.timeBase + 64 } : Snap)
    let kr := s.slot s.bootSlot
    let kc := s.slot s.ccSlot
    (s.Writes c 0x2000 1 x 8 cap.toNat →
      ∃ t, exec (.capRequest c x cap) s = .next t ∧ t.get 0x2000 1 = cap.toNat % 2 ^ 48 ∧ t.power = { s.power with capPending := true } ∧ s.Wrote t c 0x2000 ∧
        t.get 0x2000 2 = s.get 0x2000 2 ∧ s.SameMemory t ∧ t.reeds = s.reeds) ∧
    (s.snap = none → bits value.toNat 30 29 ≠ 2 →
      (s.Writes c 0x7000 1 x 4 (bits value.toNat 30 0) →
        ∃ t, exec (.snapshotCmd c x value) s = .next t ∧ t.snap = some (snap (bits value.toNat 30 0)) ∧ s.Wrote t c 0x7000 ∧ s.SameMemory t ∧ t.reeds = s.reeds) ∧
      (s.Writes c 0x7000 1 x 4 (bits value.toNat 30 0 + 2 ^ 31) →
        ∃ t, exec (.snapshotCmdClear c x value) s = .next t ∧ t.snap = some (snap (bits value.toNat 30 0 + 2 ^ 31)) ∧ s.Wrote t c 0x7000 ∧ s.SameMemory t ∧
          t.reeds = s.reeds)) ∧
    (s.Writes c 0x1100 6 x 1 b.toNat →
      ∃ t, exec (.svnCommit c x b) s = .next t ∧ s.Wrote t c 0x1100 ∧ s.SameMemory t ∧ t.reeds = s.reeds ∧
        (b = 1 → t.fuses = { s.fuses with svnReeve := raiseCode s.fuses.svnReeve kr.svn, key0Revoked := s.fuses.key0Revoked || kr.revoke }) ∧
        (b ≠ 1 → t.fuses = { s.fuses with svnCc := raiseCode s.fuses.svnCc kc.svn, key0Revoked := s.fuses.key0Revoked || kc.revoke })) ∧
    (s.Writes c 0x6010 3 x 1 b.toNat →
      ∃ t v, exec (.deviceReset c x b) s = .next t ∧ t.boot = .phaseA ∧ t.get 0x6010 1 = 2 ∧ s.Cleared t ∧ t.out = s.out ++ [.dict c 0 [v]] ∧ v.status = 0) ∧
    (s.Writes c 0x6020 3 x 1 b.toNat → s.fenState (b.toNat - 1) ≠ 2 →
      ∃ t, exec (.fenRecover c x b) s = .next t ∧ (t.fen (b.toNat - 1)).recovering = some { step := 0 } ∧ s.Wrote t c 0x6020) ∧
    (s.Writes c 0x6050 3 x 4 value.toNat →
      ∃ t, exec (.retestRequest c x value) s = .next t ∧ t.retest = some value.toNat ∧ s.Wrote t c 0x6050 ∧ s.SameMemory t ∧ t.reeds = s.reeds ∧ t.oos = s.oos)) ∧
  (∀ (s : State) (c : Caller) (p : Fin 8) (x value : W32) (b : Byte) (n : Fin 16) (v : BitVec 320),
    let i := 0x5100 + p.val
    (s.Writes c i 1 x 4 value.toNat → (Rect.ofWord (s.get i 1)).w = 0 → (Rect.ofWord value.toNat).w ≠ 0 →
      ∃ t k, exec (.partRect c p x value) s = .next t ∧ s.Wrote t c i ∧ t.get i 1 = value.toNat / 2 ^ 14 * 2 ^ 14 ∧ (t.part p.val).sealKey = some k ∧
        k.ctr = 0 ∧ k.sealer = 0 ∧ k.job = false ∧ (t.part p.val).openKey = none ∧ t.get (0x1200 + p.val) 2 = 1 ∧ (t.part p.val).places = [] ∧
        (∀ q, q ≠ p.val → t.part q = s.part q) ∧ s.SameMemory t) ∧
    (s.Writes c i 1 x 4 0 →
      ∃ t, exec (.partitionDelete c p x) s = .next t ∧ s.Wrote t c i ∧ t.get i 1 = 0 ∧ t.part p.val = {} ∧ t.get (0x1200 + p.val) 2 = 0 ∧
        (∀ q, q ≠ p.val → t.part q = s.part q) ∧ (∀ w, w ∈ (s.rect p.val).tussocks → (t.tus1 w).pool = []) ∧
        (∀ w, w ∉ (s.rect p.val).tussocks → t.tus1 w = s.tus1 w) ∧ ∀ q, tusOf q ∈ (s.rect p.val).tussocks → (t.reed q).spad = [] ∧ (t.reed q).acc = []) ∧
    (s.Writes c i 2 x 1 b.toNat → s.owner p.val ≠ b.toNat →
      ∃ t, exec (.ownerHost c p x b) s = .next t ∧ s.Wrote t c i ∧ t.owner p.val = b.toNat ∧ t.part p.val = { s.part p.val with regions := [] } ∧
        (∀ q, q < 2 → (t.port q).intStatus.getLsbD 5 = true) ∧ s.SameMemory t ∧ t.reeds = s.reeds) ∧
    (s.Writes c 0x1010 (n.val + 1) x 40 v.toNat →
      ∃ t, exec (.principal c n x v) s = .next t ∧ s.Wrote t c 0x1010 ∧ t.get 0x1010 (n.val + 1) = v.toNat % 2 ^ 272 ∧ s.SameMemory t ∧ t.reeds = s.reeds ∧
        (s.get 0x1010 (n.val + 1) ≠ v.toNat % 2 ^ 272 → t.sedge.sessions = s.sedge.sessions.filter (fun y => y.principal != n.val) ∧
          ∀ y, y ∈ t.sedge.pending → y.principal ≠ n.val)))

/-- R358, R379, R381 to R383, R391: the vendor test role reads a fresh challenge, which expires 10 s later; TEST_UNLOCK with a signature
that verifies enters VENDOR_TEST with every section faulted and every tier key erased, and one that does not is out of range, its
challenge spent either way; to any other role in PRODUCTION both answer LIFECYCLE. A store of the persistent entries writes the copy that
does not hold the newest SEQ, signed and with the next SEQ, and at most once per second; a store that reads back wrong leaves that copy
invalid and is tried once more, and then is counted; the out-of-service record has copies of its own. The model's own readings in it: entries 91, 98, 99, 105. -/
def Obligations.TestAndStore : Prop :=
  ∀ (s : State) (c : Caller) (a : Actor) (x : W32) (sig : BitVec 10240) (ch : BitVec 256) (at_ : W64),
    let y := s.sedge
    let copy := s.fuses.copy magicVgpd (newestSeq y.copyA y.copyB + 1) (records s.persistent)
    let toB := intoB y.copyA y.copyB
    let due := s.reeveRuns = true ∧ y.dirty = true ∧ s.oosFlash = s.oos ∧ y.syncWait = [] ∧
      (y.storedAt = none ∨ y.storeFailed = true ∨ s.past y.storedAt (msCycles 1000) = true)
    let left := fun (t : State) (b : Option (List Byte)) =>
      t.sedge.copyA = (if toB then y.copyA else b) ∧ t.sedge.copyB = (if toB then b else y.copyB)
    (s.reeveRuns = true → s.actor c = some a →
      (a.role = 5 → ∃ t v, exec (.testChallenge c) s = .next t ∧ t.sedge.challenge = some (Config.random s.freeCtr, s.timeBase) ∧ t.out = s.out ++ [.dict c 0 [v]] ∧
        v.status = 0 ∧ v.value = (Config.random s.freeCtr).toNat ∧ { t with sedge := s.sedge, freeCtr := s.freeCtr, out := s.out } = s) ∧
      (a.role ≠ 5 → s.lifecycle = 0 →
        exec (.testChallenge c) s = .next (s.emit (.dict c 0 [{ status := 7, idx := 0xF000, sub := 1 }])) ∧
        exec (.testUnlock c x sig) s = .next (s.emit (.dict c 0 [{ status := 7, idx := 0xF000, sub := 2 }])))) ∧
    (s.Writes c 0xF000 2 x 1280 sig.toNat →
      ∃ t, exec (.testUnlock c x sig) s = .next t ∧ t.sedge.challenge = none ∧
        if s.unlocks (s.callerKey c) sig.toNat then
          t.get 0x1100 1 = 1 ∧
            ∀ p, p < 8 → (t.part p).run = none ∧ (t.part p).sealKey = none ∧ (t.part p).openKey = none ∧ (t.part p).pendingKey = none
        else (∃ v, t.out = s.out ++ [.dict c 0 [v]] ∧ v.status = 3) ∧ { t with sedge := s.sedge, out := s.out } = s) ∧
    (s.sedge.challenge = some (ch, at_) → at_.toNat + msCycles 10000 ≤ s.timeBase.toNat →
      ∃ t, exec .testChallengeExpire s = .next t ∧ t.sedge = { s.sedge with challenge := none } ∧ { t with sedge := s.sedge } = s) ∧
    (due →
      (∃ t, exec (.persistStore true) s = .next t ∧ t.out = s.out ++ [.flash (if toB then 0x01840000 else 0x01800000) copy] ∧ left t (some copy) ∧
        t.sedge.dirty = false ∧ t.sedge.storeFailed = false ∧ t.sedge.storedAt = some s.timeBase ∧ { t with sedge := s.sedge, out := s.out } = s) ∧
      (∃ t, exec (.persistStore false) s = .next t ∧ left t none ∧ s.SameMemory t ∧ t.reeds = s.reeds ∧ t.oosFlash = s.oosFlash ∧
        if y.storeFailed then t.sedge.dirty = false ∧ t.sedge.storedAt = some s.timeBase ∧ s.Counts t 0x1020 9 32 1
        else t.sedge.dirty = true ∧ t.sedge.storeFailed = true ∧ t.sedge.storedAt = y.storedAt)) ∧
    (s.reeveRuns = true → y.dirty = false → s.oosFlash ≠ s.oos → y.syncWait = [] → y.storedAt = none →
      ∃ t, exec (.persistStore true) s = .next t ∧ t.oosFlash = s.oos ∧ t.oos = s.oos ∧ t.sedge.copyA = y.copyA ∧ t.sedge.copyB = y.copyB ∧
        (if intoB y.oosA y.oosB then t.sedge.oosB else t.sedge.oosA) =
          some (s.fuses.copy magicVgos (newestSeq y.oosA y.oosB + 1) (s.oos.flatMap (leBytes 4)))) ∧
    (y.storeFailed = false → y.storedAt = some at_ → s.timeBase.toNat < at_.toNat + msCycles 1000 → exec (.persistStore true) s = .next s)

/-! ### Sedge (R342, R349, R361 to R380, R389) -/

/-- R349, R367, R368, R373, R378 to R380, R389: DISCOVER and READ of the open entries are answered without a session while the buckets
last, and counted where they do not; a new request of a session is answered once with the status and the payload that the rule gives:
READ, WRITE and WRITE_SET of an entry without an action, LOG_READ, ATTEST, DIR, SUBSCRIBE. No memory of the array changes. The model's own
readings in it: entries 96, 105, 117, 119, 120. -/
def Obligations.SedgeRequests : Prop :=
  ∀ (s u : State) (h : SHdr) (x : Session) (n : Nat) (mask first : W32) (i lo hi : W16) (sub cnt scope : Byte) (payload : List Byte) (w : DictWrite)
      (e : EDef) (nonce : BitVec 256),
    let r := (s.answer i.toNat sub.toNat 0).bytes
    let l := (s.log.ring.filter (fun y => decide (first.toNat ≤ y.seq))).take n
    let answers := fun (t v : State) (type : Nat) (b : List Byte) => t.out = s.out ++ [v.sedgeOut x.source 0 (x.msg type 1 0 h.req) b]
    (s.segmentUp = true →
      (s.addressed h 2 = false → exec (.read h i sub) s = .next s) ∧
      (s.addressed h 2 = true → listedType h.type.toNat = false → exec (.read h i sub) s = .next (s.bump 0x1020 4))) ∧
    (s.Hits h 1 → h.session = 0 →
      (s.passAnon h.source false = some u →
        ∃ t, exec (.discover h) s = .next t ∧ { t with sedge := s.sedge, out := s.out } = s ∧
          t.out = s.out ++ [s.sedgeOut h.source (s.boardRec.nodeId.toNat % 64) { type := 1, req := h.req.toNat } s.discovery]) ∧
      (s.passAnon h.source false = none → exec (.discover h) s = .next (s.bump 0x1020 5))) ∧
    (s.Hits h 2 → h.session = 0 → i.toNat < 0x1000 → s.passAnon h.source false = some u → s.barred { role := 1 } i.toNat sub.toNat false = none →
      ∃ t, exec (.read h i sub) s = .next t ∧ t.out = s.out ++ [s.sedgeOut h.source 0 { type := 2, req := h.req.toNat } r] ∧
        { t with sedge := s.sedge, out := s.out } = s) ∧
    (s.Asks h 2 (beBytes 2 i.toNat ++ [sub, 0]) x → s.barred x.actor i.toNat sub.toNat false = none → i.toNat < 0xF000 → x.canSend r →
      ∃ t, exec (.read h i sub) s = .next t ∧ answers t s 2 r ∧ { t with sedge := s.sedge, out := s.out, dict := s.dict } = s) ∧
    (h.frag = 0 → h.more = false → h.sync = false → entryAt w.idx w.sub = some e → e.acc.held = true → plainEntry w.idx w.sub = true →
      s.writeStatus x.actor w = 0 →
      (s.Asks h 3 payload x → parseWrite payload = some (w, []) →
        ∃ t, exec (.write h payload) s = .next t ∧ t.get w.idx w.sub = storedBits w.idx w.sub w.value ∧ t.changeCount w.idx = s.changeCount w.idx + 1 ∧
          (x.canSend (t.answer w.idx w.sub 0).bytes → answers t t 3 (t.answer w.idx w.sub 0).bytes) ∧ s.SameMemory t ∧ t.reeds = s.reeds) ∧
      (s.Asks h 4 payload x → parseSet 16 payload = some [w] →
        ∃ t, exec (.writeSet h payload) s = .next t ∧ t.get w.idx w.sub = storedBits w.idx w.sub w.value ∧ t.changeCount w.idx = s.changeCount w.idx + 1 ∧
          (x.canSend (t.answer w.idx w.sub 0).bytes → answers t t 4 (t.answer w.idx w.sub 0).bytes) ∧ s.SameMemory t ∧ t.reeds = s.reeds)) ∧
    (s.Asks h 5 (beBytes 4 first.toNat ++ [cnt]) x → n = cnt.toNat → 1 ≤ n → n ≤ 16 → x.canSend (l.flatMap LogRec.bytes) →
      ∃ t, exec (.sedgeLogRead h first cnt) s = .next t ∧ answers t s 5 (l.flatMap LogRec.bytes) ∧ t.log = s.log.markRead l ∧ t.reeds = s.reeds) ∧
    (s.Asks h 6 (scope :: leBytes 32 nonce.toNat) x → scope = 0xFF ∨ scope.toNat < 8 → x.attests scope.toNat = true → s.fuses.decommissioned = false →
      x.canSend (s.report scope.toNat nonce) →
      ∃ t, exec (.sedgeAttest h scope nonce) s = .next t ∧ answers t s 6 (s.report scope.toNat nonce) ∧ { t with sedge := s.sedge, out := s.out } = s) ∧
    (s.Asks h 7 (beBytes 2 lo.toNat ++ beBytes 2 hi.toNat) x → x.canSend (s.dirBytes x.actor lo.toNat hi.toNat) →
      ∃ t, exec (.dir h lo hi) s = .next t ∧ answers t s 7 (s.dirBytes x.actor lo.toNat hi.toNat) ∧ { t with sedge := s.sedge, out := s.out } = s) ∧
    (s.Asks h 8 (beBytes 4 mask.toNat) x → x.canSend [] →
      ∃ t, exec (.subscribe h mask) s = .next t ∧ answers t s 8 [] ∧ (∀ y, y ∈ t.sedge.sessions → y.id = x.id → y.mask = mask) ∧
        { t with sedge := s.sedge, out := s.out } = s)

/-- R361 to R364: while the reeve runs a frame with a bad check sequence is counted; the PLCA status is followed, each episode counted; a
collision in the device's own opportunity is counted and logged at most once a minute; a duplicate address keeps the device silent, and
none makes it usable. R366, R368 to R374, R380: a HELLO of an enrolled key, complete with its last fragment, is answered with ACCEPT and held;
a CONFIRM, complete likewise, that verifies opens its session with ESTABLISHED; CLOSE of either end closes one; an acknowledged event goes, and one that is not is sent again; a handshake,
an idle session and an incomplete message expire. The model's own readings in it: entries 50, 117, 118, 120, 121. -/
def Obligations.SegmentAndSessions : Prop :=
  ∀ (s g u : State) (h : SHdr) (x : Session) (payload : List Byte) (f : Tbl (List Byte)) (n m : Nat) (k : Handshake) (id req : W32) (e : SEvent) (pr : Fin 17) (src : Nat),
    let b := whole f
    let o := s.opened k (spoken f)
    (s.Hits h 0x10 → h.session = 0 → s.gather h payload = (g, some f) → g.passAnon h.source true = some u →
      s.enrolled (Config.shake ((b.drop 36).take 1793)) (fld b 0 1) = some (n, m) → b.length = 3404 → s.fuses.decommissioned = false →
      ∃ t y a, exec (.hello h payload) s = .next t ∧ t.out = s.out ++ [s.sedgeOut h.source 0 { type := 0x11, req := h.req.toNat } a] ∧
        a.take 32 = leBytes 32 (Config.random s.freeCtr).toNat ∧ (a.drop 32).take 4 = beBytes 4 y.session.toNat ∧
        t.sedge.pending = s.sedge.pending.filter (fun y => y.principal != n) ++ [y] ∧ y.principal = n ∧ y.role = fld b 0 1 ∧ y.source = h.source ∧
        y.pk = (b.drop 36).take 1793 ∧ y.at_ = s.timeBase ∧ t.sedge.sessions = s.sedge.sessions ∧ t.reeds = s.reeds) ∧
    (s.Hits h 0x12 → h.session = 0 → s.gather h payload = (g, some f) → g.passAnon h.source false = some u →
      s.sedge.pending.reverse.find? (fun y => y.source == h.source && !s.past (some y.at_) (msCycles 2000)) = some k →
      b.length = 1280 → s.sedge.sessions.length < 8 → (∀ y, y ∈ s.sedge.sessions → y.id ≠ k.session) →
      ∃ t, exec (.confirm h payload) s = .next t ∧ t.sedge.pending = s.sedge.pending.filter (fun z => z != k) ∧ t.reeds = s.reeds ∧
        if verifies k.pk k.transcript b then
          t.out = s.out ++ [s.sedgeOut k.source 0 (o.msg 0x13 1 0 h.req) []] ∧ t.sedge.sessions = s.sedge.sessions ++ [{ o with txCount := o.txCount + 1 }] ∧
            o.id = k.session ∧ o.principal = k.principal ∧ o.role = k.role ∧ o.lastUse = s.timeBase
        else t.out = s.out ∧ t.sedge.sessions = s.sedge.sessions ∧ s.Counts t 0x1020 6 32 1) ∧
    (s.Hears h 0x14 [] x →
      ∃ t, exec (.close (.client h)) s = .next t ∧ t.sedge.sessions = s.sedge.sessions.filter (fun y => y.id != x.id) ∧ { t with sedge := s.sedge } = s) ∧
    (s.Hears h 9 [] x →
      ∃ t, exec (.eventAck h) s = .next t ∧ { t with sedge := s.sedge } = s ∧
        ∀ y, y ∈ t.sedge.sessions → y.id = x.id → y.events = x.events.filter (fun g => g.req != h.req)) ∧
    (s.segmentUp = true → s.session? id = some x →
      (x.canSend [] → ∃ t, exec (.close (.device id)) s = .next t ∧ t.out = s.out ++ [s.sedgeOut x.source 0 (x.msg 0x14 0 0 0) []] ∧
        t.sedge.sessions = s.sedge.sessions.filter (fun y => y.id != id)) ∧
      (x.events.find? (fun g => g.req == req) = some e → e.at_.toNat + msCycles 100 ≤ s.timeBase.toNat →
        (e.sends < 8 → x.canSend e.entry.bytes →
          ∃ t, exec (.eventResend id req) s = .next t ∧ t.out = s.out ++ [s.sedgeOut x.source 0 (x.msg 9 0 0 req) e.entry.bytes] ∧
            { t with sedge := s.sedge, out := s.out } = s) ∧
        (8 ≤ e.sends → ∃ t, exec (.eventResend id req) s = .next t ∧ t.out = s.out ∧ { t with sedge := s.sedge } = s ∧
          ∀ y, y ∈ t.sedge.sessions → y.id = id → ∀ g, g ∈ y.events → g.req ≠ req))) ∧
    (∃ t, exec (.handshakeExpire pr) s = .next t ∧ { t with sedge := s.sedge } = s ∧ t.sedge.pending =
      s.sedge.pending.filter (fun y => !(y.principal == pr.val && decide (y.at_.toNat + msCycles 2000 ≤ s.timeBase.toNat)))) ∧
    (s.session? id = some x → x.lastUse.toNat + msCycles (1000 * s.get 0x1000 4) ≤ s.timeBase.toNat →
      ∃ t, exec (.sessionIdleExpire id) s = .next t ∧ { t with sedge := s.sedge } = s ∧ t.sedge.sessions = s.sedge.sessions.filter (fun y => y.id != id)) ∧
    (∃ t, exec (.fragmentExpire src req) s = .next t ∧ { t with sedge := s.sedge } = s ∧ t.sedge.frags =
      s.sedge.frags.filter (fun f => !(f.source == src && f.req == req && decide (f.at_.toNat + msCycles 500 ≤ s.timeBase.toNat)))) ∧
    (∀ (ok : Bool) (at_ : W64), s.reeveRuns = true →
      exec .frameFcsError s = .next (s.bump 0x1020 1) ∧
      (s.sedge.plcaOk ≠ ok → ∃ t, exec (.plcaStatusChange ok) s = .next t ∧ t.sedge.plcaOk = ok ∧
        t.get 0x1020 3 = (if ok then s.get 0x1020 3 else (s.get 0x1020 3 + 1) % 2 ^ 32) ∧ { t with sedge := s.sedge, dict := s.dict } = s) ∧
      (s.boardRec.nodeId ≠ 255 →
        (s.sedge.plcaLogged = some at_ → s.timeBase.toNat < at_.toNat + msCycles 60000 → exec .plcaIdConflict s = .next (s.bump 0x1020 2)) ∧
        (s.sedge.plcaLogged = none → ∃ t, exec .plcaIdConflict s = .next t ∧ s.Counts t 0x1020 2 32 1 ∧ t.sedge.plcaLogged = some s.timeBase ∧
          ∃ r, r ∈ t.log.ring ∧ r.cls = 10 ∧ r.cause = 0x0190)) ∧
      (s.boardRec.nodeId = 255 → exec .plcaIdConflict s = .next s) ∧
      (s.sedge.dad = .running →
        (∃ t, exec .addressConflict s = .next t ∧ t.sedge.dad = .duplicate ∧ t.segmentUp = false ∧ t.reeds = s.reeds) ∧
        (∃ t, exec .dadComplete s = .next t ∧ t.sedge = { s.sedge with dad := .usable } ∧ t.segmentUp = true ∧ { t with sedge := s.sedge } = s)))

/-! ### Boundary scan (R428, R435 to R437) -/

/-- R436: an instruction that drives or floats lands takes effect only while RESET_N is asserted and is BYPASS otherwise; RESET_N released
while one is current loads IDCODE and returns the lands, as phase A begins; IDCODE, SAMPLE/PRELOAD and BYPASS work at any time with the
rails of steps 1 and 2 in regulation, and SAMPLE/PRELOAD captures the lands, disturbing none. Test-logic reset loads IDCODE. An
instruction changes nothing else of the device. R358: outside VENDOR_TEST a private opcode acts as BYPASS; what one does inside it the
manual does not say, and the model refuses it by name. -/
def Obligations.BoundaryScan : Prop :=
  ∀ (s : State) (lands shifted : BitVec 2030) (node op : Byte) (straps : Fin 8),
    let loads := fun (c : Instr) (i : TapInstr) => exec c s = .next { s with tap := { s.tap with ir := i, driving := false, hiz := false } }
    let drives := fun (c : Instr) (i : TapInstr) (d z : Bool) =>
      (s.boot = .held → exec c s = .next { s with tap := { s.tap with ir := i, driving := d, hiz := z } }) ∧ (s.boot ≠ .held → loads c .bypass)
    loads .tapReset .idcode ∧
    (2 ≤ s.rails →
      loads .idcode .idcode ∧ (privateOp op = false ∨ s.get 0x1100 1 ≠ 1 → loads (.bypass op) .bypass) ∧
      (privateOp op = true → s.get 0x1100 1 = 1 → exec (.bypass op) s = .refused .privateOpcode) ∧ drives .extest .extest true false ∧ drives .clamp .clamp true false ∧
      drives .highz .highz false true ∧ drives .extestPulse .extestPulse true false ∧ drives .extestTrain .extestTrain true false ∧
      ∃ t, exec (.samplePreload lands shifted) s = .next t ∧ t.tap.ir = .samplePreload ∧ t.tap.captured = lands ∧ t.tap.driving = false ∧
        t.tap.hiz = false ∧ { t with tap := s.tap } = s) ∧
    (s.boot = .held → s.rails = 4 → s.tap.ir.drives = true →
      ∃ t, exec (.resetNRelease node straps) s = .next t ∧ t.boot = .phaseA ∧ t.tap = { s.tap with ir := .idcode, driving := false, hiz := false })

/-! ### The step, reset and invariants (R12, R23, R54, R342, R346, R412, R428, R436) -/

/-- A step with a command at the front of the queue is that command's effect on the state with the queue's rest. The model's own readings
in it: entry 1. -/
def Obligations.StepTakesTheFront : Prop :=
  ∀ (s : State) (c : Instr) (rest : List Instr), s.pending = c :: rest → step s = exec c { s with pending := rest }

/-- The model's own choice (entry 1): a step on an empty queue is one mesh cycle; while the clocks run the time base counts one, but for
the slew of R280, and while they stand nothing changes. The model's own readings in it: entry 1. -/
def Obligations.EmptyQueueTicks : Prop :=
  ∀ (s : State), s.pending = [] →
    (s.boot = .held ∨ s.power.tripped = true → step s = .next s) ∧
    (s.boot ≠ .held → s.power.tripped = false → s.mire.slew = 0 →
      ∃ t, step s = .next t ∧ t.timeBase = s.timeBase + 1 ∧ t.pending = [] ∧ t.boot = s.boot ∧ s.SameMemory t)

/-- R54, R118, R225, R395, R403, R412, R413, R420: what the manual gives reset: the time base is 0, no reed runs, no partition has a
section, a load or a manifest, no host is lost, the interrupt masks are set, no ring is enabled, the log holds no entry and every counter
of the dictionary stands at its default; the queue of commands is empty. R436: at reset no land is driven or floated by boundary scan.
R412, R428: at reset every rail is in regulation. The model's own readings in it: entry 10. -/
def Obligations.ResetValues : Prop :=
  (State.reset.pending = [] ∧ State.reset.timeBase = 0 ∧ (∀ r, (State.reset.reed r).status = .unassigned ∧ (State.reset.reed r).ops = []) ∧
    (∀ p, (State.reset.part p).run = none ∧ (State.reset.part p).staged = none ∧ (State.reset.part p).manifest = none ∧ (State.reset.part p).places = []) ∧
    (∀ q, (State.reset.port q).loss = [] ∧ (State.reset.port q).intMask = 0xFFFFFFFF ∧ (State.reset.port q).intStatus = 0 ∧
      ∀ r, (State.reset.ring q r).enabled = false ∧ (State.reset.ring q r).phase = true) ∧
    State.reset.log.ring = [] ∧ State.reset.dict = [] ∧ State.reset.fuses.svnReeve = 0 ∧ State.reset.fuses.svnCc = 0 ∧ State.reset.xfers = [] ∧
    State.reset.power.throttled = false ∧ State.reset.causeway = false ∧ State.reset.out = []) ∧
  (State.reset.scanSafe) ∧
  (State.reset.railsSafe)

/-- R436: every step, from any state in which a boundary-scan instruction drives or floats lands only while RESET_N is asserted, leaves
such a state: no command takes a land from the running device. The model's own readings in it: entry 70. -/
def Obligations.ScanNeverTakesALand : Prop := ∀ (s t : State), s.scanSafe → step s = .next t → t.scanSafe

/-- R412, R428: every step, from any state in which the device is out of RESET_N only with all four rail steps in regulation, leaves such
a state. The model's own readings in it: entry 10. -/
def Obligations.RunsOnlyWithRails : Prop := ∀ (s t : State), s.railsSafe → step s = .next t → t.railsSafe

/-- R342, R346: no step clears a fuse: from any state, the secrets, the keys' digests and the serial stay, the revocation and the
decommissioning stay once set, and the SVN counters only gain bits. The model's own readings in it: entry 9. -/
def Obligations.FusesOnlyGrow : Prop := ∀ (s t : State), step s = .next t → s.fuses.Grows t.fuses
end

