-- ==== Sys2Proof/Laws/Ops.lean ====
section
/-! SUPPORT. Laws of the shared operations: sparse tables, memory, the units of the state, tags, and the issue of an instruction. -/
namespace Sys2Proof

/-! ### Sparse tables -/

/-- An entry just set reads back. -/
@[simp] theorem Tbl.lk_up_same {α : Type} (d : α) (t : Tbl α) (n : Nat) (v : α) : Tbl.lk d (Tbl.up t n v) n = v := by
  induction t with
  | nil => simp [Tbl.up, Tbl.lk]
  | cons e t ih =>
    obtain ⟨k, w⟩ := e
    simp only [Tbl.up]
    split
    · simp [Tbl.lk]
    · split
      · simp [Tbl.lk]
      · simp only [Tbl.lk]
        rw [if_neg (by omega), ih]

/-- Setting an entry leaves the others. -/
theorem Tbl.lk_up_ne {α : Type} (d : α) (t : Tbl α) (n m : Nat) (v : α) (h : m ≠ n) : Tbl.lk d (Tbl.up t n v) m = Tbl.lk d t m := by
  induction t with
  | nil => simp [Tbl.up, Tbl.lk, Ne.symm h]
  | cons e t ih =>
    obtain ⟨k, w⟩ := e
    simp only [Tbl.up]
    split
    · simp [Tbl.lk, Ne.symm h]
    · split
      · rename_i hk; subst hk; simp [Tbl.lk, Ne.symm h]
      · simp only [Tbl.lk]
        split
        · rfl
        · exact ih

/-- Reading after setting an entry. -/
theorem Tbl.lk_up {α : Type} (d : α) (t : Tbl α) (n m : Nat) (v : α) : Tbl.lk d (Tbl.up t n v) m = if m = n then v else Tbl.lk d t m := by
  split
  · rename_i h; subst h; simp
  · rename_i h; exact Tbl.lk_up_ne d t n m v h

/-- The same for a read that may find nothing. -/
theorem Tbl.lk?_up {α : Type} (t : Tbl α) (n m : Nat) (v : α) : Tbl.lk? (Tbl.up t n v) m = if m = n then some v else Tbl.lk? t m := by
  induction t with
  | nil => simp only [Tbl.up, Tbl.lk?]; by_cases h : n = m <;> simp [h, eq_comm]
  | cons e t ih =>
    obtain ⟨k, w⟩ := e
    simp only [Tbl.up]
    split
    · simp only [Tbl.lk?]; by_cases h : n = m <;> simp [h, eq_comm]
    · split
      · rename_i hk; subst hk; simp only [Tbl.lk?]; by_cases h : n = m <;> simp [h, eq_comm]
      · simp only [Tbl.lk?]
        by_cases h : k = m
        · rw [if_pos h, if_pos h]; rw [if_neg (by omega)]
        · rw [if_neg h, if_neg h, ih]

namespace Machine

/-! ### Memory -/

/-- A byte just written reads back. -/
@[simp] theorem Mem.get_put_same (m : Mem) (a : Nat) (b : Byte) (h : Mem.wf m = true) : (m.put a b).get a = b := by
  have key : ∀ (m : Mem) (lo : Nat), Mem.above lo m = true → (m.put a b).get a = b := by
    intro m
    induction m with
    | nil => intro lo _; simp only [Mem.put]; split <;> simp_all [Mem.get]
    | cons e m ih =>
      obtain ⟨k, c⟩ := e
      intro lo h
      simp only [Mem.above, Bool.and_eq_true, decide_eq_true_eq] at h
      obtain ⟨⟨h1, h2⟩, h3⟩ := h
      have out : ∀ (m : Mem) (l : Nat), Mem.above l m = true → a < l → m.get a = 0 := by
        intro m
        induction m with
        | nil => intros; rfl
        | cons e m ih2 =>
          obtain ⟨k2, c2⟩ := e
          intro l hl hal
          simp only [Mem.above, Bool.and_eq_true, decide_eq_true_eq] at hl
          simp only [Mem.get]
          rw [if_neg (by omega)]
          exact ih2 _ hl.2 (by omega)
      simp only [Mem.put]
      split
      · split
        · rename_i hb; subst hb
          simp only [Mem.get]
          rw [if_neg (by omega)]
          exact out m _ h3 (by omega)
        · simp [Mem.get]
      · split
        · rename_i hk
          split
          · rename_i hb; subst hb; subst hk; exact out m _ h3 (by omega)
          · simp [Mem.get]
        · simp only [Mem.get]
          rw [if_neg (by omega)]
          exact ih _ h3
  exact key m 0 h

/-- A write leaves every other byte. -/
theorem Mem.get_put_ne (m : Mem) (a x : Nat) (b : Byte) (h : x ≠ a) : (m.put a b).get x = m.get x := by
  induction m with
  | nil => simp only [Mem.put]; split <;> simp [Mem.get, Ne.symm h]
  | cons e m ih =>
    obtain ⟨k, c⟩ := e
    simp only [Mem.put]
    split
    · split
      · rfl
      · simp [Mem.get, Ne.symm h]
    · split
      · rename_i hk; subst hk
        split
        · simp [Mem.get, Ne.symm h]
        · simp [Mem.get, Ne.symm h]
      · simp only [Mem.get]
        split
        · rfl
        · exact ih

/-- A lower bound on the keys may be lowered. -/
theorem Mem.above_mono (m : Mem) (p q : Nat) (hp : Mem.above p m = true) (hq : q ≤ p) : Mem.above q m = true := by
  cases m with
  | nil => rfl
  | cons e m =>
    obtain ⟨k, c⟩ := e
    simp only [Mem.above, Bool.and_eq_true, decide_eq_true_eq] at hp ⊢
    exact ⟨⟨by omega, hp.1.2⟩, hp.2⟩

/-- Writing a byte keeps the canonical form. -/
theorem Mem.above_put (m : Mem) : ∀ (lo a : Nat) (b : Byte), Mem.above lo m = true → lo ≤ a → Mem.above lo (m.put a b) = true := by
  induction m with
  | nil =>
    intro lo a b _ hl
    simp only [Mem.put]
    split
    · rfl
    · rename_i hb
      simp only [Mem.above, Bool.and_eq_true, decide_eq_true_eq]
      exact ⟨⟨hl, hb⟩, trivial⟩
  | cons e m ih =>
    obtain ⟨k, c⟩ := e
    intro lo a b h hl
    have h' := h
    simp only [Mem.above, Bool.and_eq_true, decide_eq_true_eq] at h
    obtain ⟨⟨h1, h2⟩, h3⟩ := h
    simp only [Mem.put]
    split
    · split
      · exact h'
      · rename_i hk hb
        simp only [Mem.above, Bool.and_eq_true, decide_eq_true_eq]
        exact ⟨⟨hl, hb⟩, ⟨by omega, h2⟩, h3⟩
    · split
      · rename_i hk; subst hk
        split
        · exact Mem.above_mono _ _ _ h3 (by omega)
        · rename_i hb
          simp only [Mem.above, Bool.and_eq_true, decide_eq_true_eq]
          exact ⟨⟨hl, hb⟩, h3⟩
      · simp only [Mem.above, Bool.and_eq_true, decide_eq_true_eq]
        exact ⟨⟨h1, h2⟩, ih _ _ _ h3 (by omega)⟩

/-- A write of a byte keeps a memory in its canonical form. -/
theorem Mem.wf_put (m : Mem) (a : Nat) (b : Byte) (h : Mem.wf m = true) : Mem.wf (m.put a b) = true :=
  Mem.above_put m 0 a b h (Nat.zero_le _)

/-- A write of bytes keeps a memory in its canonical form. -/
theorem Mem.wf_write (bs : List Byte) : ∀ (m : Mem) (a : Nat), Mem.wf m = true → Mem.wf (m.write a bs) = true := by
  induction bs with
  | nil => intro m a h; exact h
  | cons b bs ih => intro m a h; exact ih _ _ (Mem.wf_put m a b h)

/-- A write of bytes leaves every byte outside them. -/
theorem Mem.get_write_out (bs : List Byte) : ∀ (m : Mem) (a x : Nat), (x < a ∨ a + bs.length ≤ x) → (m.write a bs).get x = m.get x := by
  induction bs with
  | nil => intro m a x _; rfl
  | cons b bs ih =>
    intro m a x h
    simp only [List.length_cons] at h
    simp only [Mem.write]
    rw [ih _ _ _ (by omega), Mem.get_put_ne _ _ _ _ (by omega)]

/-! ### Units of the state -/

/-- A reed just replaced. -/
@[simp] theorem State.reed_setReed_same (s : State) (r : Nat) (x : Reed) : (s.setReed r x).reed r = x := by simp [State.setReed, State.reed]
/-- Replacing a reed leaves the others. -/
theorem State.reed_setReed_ne (s : State) (r q : Nat) (x : Reed) (h : q ≠ r) : (s.setReed r x).reed q = s.reed q := by
  simp [State.setReed, State.reed, Tbl.lk_up_ne _ _ _ _ _ h]
/-- A reed just changed. -/
@[simp] theorem State.reed_modReed_same (s : State) (r : Nat) (f : Reed → Reed) : (s.modReed r f).reed r = f (s.reed r) := by
  simp [State.modReed]
/-- Changing a reed leaves the others. -/
theorem State.reed_modReed_ne (s : State) (r q : Nat) (f : Reed → Reed) (h : q ≠ r) : (s.modReed r f).reed q = s.reed q := by
  simp [State.modReed, State.reed_setReed_ne _ _ _ _ h]
/-- A tussock just changed. -/
@[simp] theorem State.tus1_modTus_same (s : State) (t : Nat) (f : Tussock → Tussock) : (s.modTus t f).tus1 t = f (s.tus1 t) := by
  simp [State.modTus, State.setTus, State.tus1]
/-- Changing a tussock leaves the others. -/
theorem State.tus1_modTus_ne (s : State) (t q : Nat) (f : Tussock → Tussock) (h : q ≠ t) : (s.modTus t f).tus1 q = s.tus1 q := by
  simp [State.modTus, State.setTus, State.tus1, Tbl.lk_up_ne _ _ _ _ _ h]
/-- A stack just changed. -/
@[simp] theorem State.stack_modStack_same (s : State) (i : Nat) (f : Stack → Stack) : (s.modStack i f).stack i = f (s.stack i) := by
  simp [State.modStack, State.stack]
/-- A context just replaced. -/
@[simp] theorem Reed.context_setCtx_same (x : Reed) (k : Nat) (c : Ctx) : (x.setCtx k c).context k = c := by simp [Reed.setCtx, Reed.context]
/-- Replacing a context leaves the others. -/
theorem Reed.context_setCtx_ne (x : Reed) (k j : Nat) (c : Ctx) (h : j ≠ k) : (x.setCtx k c).context j = x.context j := by
  simp [Reed.setCtx, Reed.context, Tbl.lk_up_ne _ _ _ _ _ h]
/-- A context just changed. -/
@[simp] theorem Reed.context_modCtx_same (x : Reed) (k : Nat) (f : Ctx → Ctx) : (x.modCtx k f).context k = f (x.context k) := by
  simp [Reed.modCtx]
/-- An S register just written. -/
theorem Ctx.getS_setS (c : Ctx) (i j : Nat) (w : W32) : (c.setS i w).getS j = if j = i then w else c.getS j := by
  simp [Ctx.setS, Ctx.getS, Tbl.lk_up]
/-- An A register just written. -/
theorem Ctx.getA_setA (c : Ctx) (i j : Nat) (w : W32) : (c.setA i w).getA j = if j = i then w else c.getA j := by
  simp [Ctx.setA, Ctx.getA, Tbl.lk_up]
/-- A V register just written. -/
theorem Reed.getV_setV (x : Reed) (k i : Nat) (w : VReg) : (x.setV k i w).getV k i = w := by
  simp only [Reed.setV, Reed.getV]
  exact Tbl.lk_up_same _ _ _ _
/-- A partition just changed. -/
@[simp] theorem State.part_modPart_same (s : State) (p : Nat) (f : Part → Part) : (s.modPart p f).part p = f (s.part p) := by
  simp [State.modPart, State.part]
/-- A port just changed. -/
@[simp] theorem State.port_modPort_same (s : State) (q : Nat) (f : Port → Port) : (s.modPort q f).port q = f (s.port q) := by
  simp [State.modPort, State.port]
/-- A lode just changed. -/
@[simp] theorem State.lode_modLode_same (s : State) (n : Nat) (f : Lode → Lode) : (s.modLode n f).lode n = f (s.lode n) := by
  simp [State.modLode, State.lode]
/-- A fen's control core just changed. -/
@[simp] theorem State.fen_modFen_same (s : State) (f : Nat) (g : FenCtl → FenCtl) : (s.modFen f g).fen f = g (s.fen f) := by
  simp [State.modFen, State.fen]

/-! ### The dictionary -/

/-- Distinct entries have distinct keys while a subindex is below 256. -/
theorem dk_inj (i j a b : Nat) (ha : a < 256) (hb : b < 256) : dk i a = dk j b ↔ i = j ∧ a = b := by
  simp only [dk]; omega

/-- An entry just set reads back. -/
@[simp] theorem State.get_set_same (s : State) (i sub v : Nat) : (s.set i sub v).get i sub = v := by
  simp [State.set, State.get, Tbl.lk?_up]

/-- Setting an entry leaves the others. -/
theorem State.get_set_ne (s : State) (i sub v j b : Nat) (h : dk j b ≠ dk i sub) : (s.set i sub v).get j b = s.get j b := by
  simp only [State.get, State.set, Tbl.lk?_up, if_neg h]
  simp [entryDefault]

end Machine
end Sys2Proof
end

