-- ==== Sys2Proof/Laws/Issue.lean ====
section
/-! SUPPORT. Laws of the issue of an instruction: what the advance of the program counter leaves alone, and what an issue gives. -/
namespace Sys2Proof.Machine

/-- The end of a body changes only where the sequencer stands, and of the first context its program counter. -/
theorem Reed.bodyDone_rest (x : Reed) : ∃ p f n b e l, x.bodyDone =
    { x.setCtx 0 { x.context 0 with pc := p } with inBody := false, firing := f, nextJ := n, block := b, blockOps := e, lastEnd := l } := by
  unfold Reed.bodyDone
  simp only [Reed.modCtx, Reed.setCtx]
  repeat' split
  all_goals exact ⟨_, _, _, _, _, _, rfl⟩

/-- The end of a body leaves the other contexts alone, and of the first one all but its program counter. -/
theorem Reed.bodyDone_context (x : Reed) (j : Nat) : ∃ p, x.bodyDone.context j = { x.context j with pc := p } ∧ (j ≠ 0 → x.bodyDone.context j = x.context j) := by
  obtain ⟨p, f, n, b, e, l, h⟩ := Reed.bodyDone_rest x
  rw [h]
  by_cases hj : j = 0
  · subst hj; exact ⟨p, by simp [Reed.setCtx, Reed.context], fun h => absurd rfl h⟩
  · exact ⟨(x.context j).pc, by simp [Reed.setCtx, Reed.context, Tbl.lk_up_ne _ _ _ _ _ hj], fun _ => by
      simp [Reed.setCtx, Reed.context, Tbl.lk_up_ne _ _ _ _ _ hj]⟩

/-- What a move of a context can do: it replaces the context by one with the same S and A registers, VL, fence and end, marks the issue,
and then may end the body of a reed that is not threaded, or count the firings of one that is. -/
theorem Reed.goTo_cases (x : Reed) (k pc : Nat) : ∃ c : Ctx,
    (c.s = (x.context k).s ∧ c.a = (x.context k).a ∧ c.vl = (x.context k).vl ∧ c.fence = (x.context k).fence ∧ c.ended = (x.context k).ended) ∧
    ∃ f e, let y : Reed := { x.setCtx k c with issued := true, gated := false, lastCtx := k }
      (x.threads = 0 ∧ x.goTo k pc = y.bodyDone) ∨ x.goTo k pc = y ∨ x.goTo k pc = { y with firing := f, lastEnd := e } := by
  unfold Reed.goTo
  simp only
  generalize unwind x.takes (x.context k).loops pc (x.context k).c = u
  generalize (if (decide (x.threads = 0) && u.2.1.isEmpty) = true then _ else _) = p
  generalize (if u.2.2.2 = 0 then (x.context k).first else none) = w
  refine ⟨{ x.context k with pc := BitVec.ofNat 11 p, loops := u.2.1, c := u.2.2.1, wait := none, first := w }, ⟨rfl, rfl, rfl, rfl, rfl⟩,
    x.firing + BitVec.ofNat 32 u.2.2.2, if u.2.2.2 = 0 then x.lastEnd else x.cycle, ?_⟩
  by_cases h : x.threads = 0
  · rw [if_pos (by simpa [Reed.setCtx] using h)]
    split
    · exact .inl ⟨h, rfl⟩
    · exact .inr (.inl rfl)
  · rw [if_neg (by simpa [Reed.setCtx] using h)]
    exact .inr (.inr rfl)

/-- The move of a context changes the contexts, and where the sequencer stands. -/
theorem Reed.goTo_rest (x : Reed) (k pc : Nat) : ∃ t b f n w e o, x.goTo k pc =
    { x with ctx := t, issued := true, gated := false, lastCtx := k, inBody := b, firing := f, nextJ := n, block := w, blockOps := e, lastEnd := o } := by
  obtain ⟨c, -, f, e, ⟨-, h⟩ | h | h⟩ := Reed.goTo_cases x k pc
  · obtain ⟨p, f, n, b, e, l, h'⟩ := Reed.bodyDone_rest { x.setCtx k c with issued := true, gated := false, lastCtx := k }
    rw [h, h']
    exact ⟨_, _, _, _, _, _, _, rfl⟩
  · rw [h]; exact ⟨_, _, _, _, _, _, _, rfl⟩
  · rw [h]; exact ⟨_, _, _, _, _, _, _, rfl⟩

/-- It leaves a reed's store alone. -/
theorem Reed.goTo_store (x : Reed) (k pc : Nat) : Reed.SameStore x (x.goTo k pc) := by
  obtain ⟨t, b, f, n, w, e, o, h⟩ := Reed.goTo_rest x k pc
  rw [h]; simp [Reed.SameStore]

/-- It leaves the special registers alone. -/
theorem Reed.goTo_special (x : Reed) (k pc : Nat) : Reed.SameSpecial x (x.goTo k pc) := by
  obtain ⟨t, b, f, n, w, e, o, h⟩ := Reed.goTo_rest x k pc
  rw [h]; simp [Reed.SameSpecial]

/-- It leaves the V registers alone. -/
@[simp] theorem Reed.goTo_v (x : Reed) (k pc : Nat) : (x.goTo k pc).v = x.v := by
  obtain ⟨t, b, f, n, w, e, o, h⟩ := Reed.goTo_rest x k pc
  rw [h]

/-- The number of contexts stays. -/
@[simp] theorem Reed.goTo_threads (x : Reed) (k pc : Nat) : (x.goTo k pc).threads = x.threads := (Reed.goTo_special x k pc).2.2.2.1

/-- The marks stay. -/
@[simp] theorem Reed.goTo_marks (x : Reed) (k pc : Nat) : (x.goTo k pc).marks = x.marks := by
  obtain ⟨t, b, f, n, w, e, o, h⟩ := Reed.goTo_rest x k pc
  rw [h]

/-- The contexts after a move: the context itself keeps its S and A registers, VL, fence and end; the others stay, where a reed that is not
threaded moves its one context. -/
theorem Reed.goTo_context (x : Reed) (k pc j : Nat) (hk : x.threads = 0 → k = 0) :
    ((x.goTo k pc).context j).s = (x.context j).s ∧ ((x.goTo k pc).context j).a = (x.context j).a ∧
    ((x.goTo k pc).context j).vl = (x.context j).vl ∧ ((x.goTo k pc).context j).fence = (x.context j).fence ∧
    ((x.goTo k pc).context j).ended = (x.context j).ended ∧ (j ≠ k → (x.goTo k pc).context j = x.context j) := by
  obtain ⟨c, ⟨h1, h2, h3, h4, h5⟩, f, e, ⟨h0, h⟩ | h | h⟩ := Reed.goTo_cases x k pc
  · have hk0 := hk h0
    subst hk0
    obtain ⟨p, g, g0⟩ := Reed.bodyDone_context { x.setCtx 0 c with issued := true, gated := false, lastCtx := 0 } j
    rw [h]
    by_cases hj : j = 0
    · subst hj; rw [g]; simp [Reed.setCtx, Reed.context, *]
    · rw [g0 hj]; simp [Reed.setCtx, Reed.context, Tbl.lk_up_ne _ _ _ _ _ hj]
  all_goals
    rw [h]
    by_cases hj : j = k
    · subst hj; simp [Reed.setCtx, Reed.context, *]
    · simp [Reed.setCtx, Reed.context, Tbl.lk_up_ne _ _ _ _ _ hj]

/-- Noting progress leaves the reeds. -/
@[simp] theorem State.progress_reed (s : State) (r q : Nat) : (s.progress r).reed q = s.reed q := by
  unfold State.progress; split <;> rfl

/-- Noting progress changes at most the run of a partition. -/
theorem State.progress_rest (s : State) (r : Nat) : { s.progress r with reeds := s.reeds, parts := s.parts } = s := by
  unfold State.progress; split <;> rfl

/-- Noting progress changes no partition but its run. -/
theorem State.progress_part (s : State) (r p : Nat) : { (s.progress r).part p with run := (s.part p).run } = s.part p := by
  unfold State.progress
  split
  · rfl
  · rename_i q _
    by_cases h : p = q
    · subst h; simp
    · simp [State.modPart, State.part, Tbl.lk_up_ne _ _ _ _ _ h]

/-- Opening an iteration of a threaded reed changes at most what its context notes of it. -/
theorem State.openIter_reed (s : State) (r : RR) :
    ∃ w, (s.openIter r).reed r.reed.val = (s.reed r.reed.val).modCtx r.ctx.val (fun c => { c with first := w }) := by
  by_cases h : ((s.reed r.reed.val).threads = 0 || ((s.reed r.reed.val).context r.ctx.val).loops.isEmpty ||
      ((s.reed r.reed.val).context r.ctx.val).first.isSome) = true
  · exact ⟨((s.reed r.reed.val).context r.ctx.val).first, by simp only [State.openIter, State.reed_modReed_same, Reed.modCtx, if_pos h]⟩
  · exact ⟨some (s.timeBase, (s.reed r.reed.val).prior, (s.reed r.reed.val).waitCycles, (s.reed r.reed.val).csCtl), by
      simp only [State.openIter, State.reed_modReed_same, Reed.modCtx, if_neg h]⟩

/-- Closing an iteration queues at most a core-sample record. -/
theorem State.closeIter_eq (s t : State) (r : RR) :
    s.closeIter t r = t ∨ ∃ l, s.closeIter t r = t.modReed r.reed.val (fun y => { y with samples := y.samples ++ l }) := by
  unfold State.closeIter
  simp only
  split
  · split
    · exact .inr ⟨_, rfl⟩
    · exact .inl rfl
  · exact .inl rfl

/-- The reed after an advance. -/
theorem State.advance_reed (s : State) (r : RR) : ∃ w l,
    (s.advance r).reed r.reed.val =
      { ((s.reed r.reed.val).modCtx r.ctx.val (fun c => { c with first := w })).goTo r.ctx.val
          (((s.reed r.reed.val).context r.ctx.val).pc.toNat + 1) with samples := l } := by
  obtain ⟨w, hw⟩ := State.openIter_reed s r
  have hpc : (((s.openIter r).reed r.reed.val).context r.ctx.val).pc = ((s.reed r.reed.val).context r.ctx.val).pc := by rw [hw]; simp
  have key : ∃ l, ((s.openIter r).closeIter ((s.openIter r).modReed r.reed.val
      (fun x => x.goTo r.ctx.val ((x.context r.ctx.val).pc.toNat + 1))) r).reed r.reed.val =
      { ((s.reed r.reed.val).modCtx r.ctx.val (fun c => { c with first := w })).goTo r.ctx.val
          (((s.reed r.reed.val).context r.ctx.val).pc.toNat + 1) with samples := l } := by
    rcases State.closeIter_eq (s.openIter r) ((s.openIter r).modReed r.reed.val
      (fun x => x.goTo r.ctx.val ((x.context r.ctx.val).pc.toNat + 1))) r with h | ⟨l, h⟩ <;> rw [h]
    · simp only [State.reed_modReed_same]
      rw [hpc, hw]
      exact ⟨_, rfl⟩
    · simp only [State.reed_modReed_same]
      rw [hpc, hw]
      exact ⟨_, rfl⟩
  obtain ⟨l, hl⟩ := key
  refine ⟨w, l, ?_⟩
  unfold State.advance
  simp only
  split
  · rw [State.progress_reed, hl]
  · exact hl

/-- Changing one reed changes only that reed. -/
theorem State.modReed_only (s : State) (q : Nat) (f : Reed → Reed) : State.OnlyReed s (s.modReed q f) q :=
  ⟨rfl, fun _ hp => State.reed_modReed_ne _ _ _ _ hp, fun _ => rfl⟩

/-- Noting progress changes no reed. -/
theorem State.progress_only (s : State) (q : Nat) : State.OnlyReed s (s.progress q) q :=
  ⟨State.progress_rest s q, fun _ _ => State.progress_reed _ _ _, fun p => State.progress_part _ _ p⟩

/-- Changes of one reed in a row. -/
theorem State.OnlyReed.trans {s t u : State} {q : Nat} (h : s.OnlyReed t q) (k : t.OnlyReed u q) : s.OnlyReed u q := by
  obtain ⟨h1, h2, h3⟩ := h
  obtain ⟨k1, k2, k3⟩ := k
  refine ⟨?_, fun p hp => (k2 p hp).trans (h2 p hp), fun p => ?_⟩
  · rw [← h1]
    have := congrArg (fun x : State => { x with reeds := s.reeds, parts := s.parts }) k1
    simpa using this
  · rw [← h3 p, ← k3 p]

/-- An advance changes one reed, and of the partitions at most their runs. -/
theorem State.advance_only (s : State) (r : RR) : State.OnlyReed s (s.advance r) r.reed.val := by
  have h1 : s.OnlyReed ((s.openIter r).modReed r.reed.val (fun x => x.goTo r.ctx.val ((x.context r.ctx.val).pc.toNat + 1))) r.reed.val :=
    State.OnlyReed.trans (State.modReed_only _ _ _) (State.modReed_only _ _ _)
  unfold State.advance
  simp only
  rcases State.closeIter_eq (s.openIter r) ((s.openIter r).modReed r.reed.val
      (fun x => x.goTo r.ctx.val ((x.context r.ctx.val).pc.toNat + 1))) r with h | ⟨l, h⟩ <;> rw [h]
  · split
    · exact h1.trans (State.progress_only _ _)
    · exact h1
  · have h2 := h1.trans (State.modReed_only _ r.reed.val (fun y => { y with samples := y.samples ++ l }))
    split
    · exact h2.trans (State.progress_only _ _)
    · exact h2

/-- An instruction that issues and does its effect: the state advanced from the effect's. -/
theorem State.issue_go (s : State) (r : RR) (i : Instr) (srcs : List Nat) (body : State → Issue) (t : State) (h : s.Issues r srcs)
    (hi : s.At r .exec i)
    (hb : body (s.unfenced r) = .go t) :
    s.issue r i srcs body = t.advance r := by
  unfold State.issue
  obtain ⟨h1, h2⟩ := h
  unfold State.At at hi
  simp [h1, h2, hi, hb]

/-- Where the engine may not issue, nothing happens. -/
theorem State.issue_idle (s : State) (r : RR) (i : Instr) (srcs : List Nat) (body : State → Issue)
    (h : (s.reed r.reed.val).canIssue r.ctx.val = false) : s.issue r i srcs body = s := by
  unfold State.issue; simp [h]

/-- Where the instruction is not the one at the program counter, nothing happens (R89, R92). -/
theorem State.issue_other (s : State) (r : RR) (i : Instr) (srcs : List Nat) (body : State → Issue) (h : ¬ s.At r .exec i) :
    s.issue r i srcs body = s := by
  unfold State.issue
  unfold State.At at h
  simp [h]

/-- A reed that is not threaded issues for its one context. -/
theorem State.Issues.one {s : State} {r : RR} {srcs : List Nat} (h : s.Issues r srcs) : (s.reed r.reed.val).threads = 0 → r.ctx.val = 0 := by
  intro h0
  have h1 := h.1
  unfold Reed.canIssue at h1
  simp only [h0, if_true, Bool.and_eq_true, beq_iff_eq] at h1
  exact h1.2.1

/-- What an instruction gives whose effect is on the registers of its context. -/
theorem State.issue_ctx (s : State) (r : RR) (i : Instr) (srcs : List Nat) (body : State → Issue) (f : Ctx → Ctx) (h : s.Issues r srcs)
    (hi : s.At r .exec i)
    (hb : ∀ u : State, u = s.unfenced r → body u = .go (u.modCtxOf r f)) :
    s.OnlyContext (s.issue r i srcs body) r ∧
      ((s.issue r i srcs body).ctxOf r).s = (f { s.ctxOf r with fence := false }).s ∧
      ((s.issue r i srcs body).ctxOf r).a = (f { s.ctxOf r with fence := false }).a ∧
      ((s.issue r i srcs body).ctxOf r).vl = (f { s.ctxOf r with fence := false }).vl ∧
      ((s.issue r i srcs body).ctxOf r).fence = (f { s.ctxOf r with fence := false }).fence ∧
      ((s.issue r i srcs body).reed r.reed.val).marks = (s.reed r.reed.val).marks := by
  rw [State.issue_go s r i srcs body _ h hi (hb _ rfl)]
  generalize hu : (s.unfenced r).modCtxOf r f = u
  have hr : u.reed r.reed.val = ((s.reed r.reed.val).modCtx r.ctx.val (fun y => { y with fence := false })).modCtx r.ctx.val f := by
    rw [← hu]; simp [State.modCtxOf, State.unfenced]
  have ho : s.OnlyReed u r.reed.val := by
    rw [← hu]; exact (State.modReed_only _ _ _).trans (State.modReed_only _ _ _)
  obtain ⟨w, l, ha⟩ := State.advance_reed u r
  generalize hy : (u.reed r.reed.val).modCtx r.ctx.val (fun c => { c with first := w }) = y at ha
  have hk : y.threads = 0 → r.ctx.val = 0 := by
    intro h0
    apply h.one
    rw [← hy, hr] at h0
    simpa [Reed.modCtx, Reed.setCtx] using h0
  generalize hn : ((u.reed r.reed.val).context r.ctx.val).pc.toNat + 1 = n at ha
  have hg := fun j => Reed.goTo_context y r.ctx.val n j hk
  have st := Reed.goTo_store y r.ctx.val n
  have sp := Reed.goTo_special y r.ctx.val n
  have hc : y.context r.ctx.val = { f { s.ctxOf r with fence := false } with first := w } := by
    rw [← hy, hr]; simp [State.ctxOf]
  have hc' : ∀ j, j ≠ r.ctx.val → y.context j = (s.reed r.reed.val).context j := by
    intro j hj
    rw [← hy, hr]; simp [Reed.modCtx, Reed.context_setCtx_ne _ _ _ _ hj]
  have hs : Reed.SameStore (s.reed r.reed.val) y := by rw [← hy, hr]; simp [Reed.SameStore, Reed.modCtx, Reed.setCtx]
  have hp : Reed.SameSpecial (s.reed r.reed.val) y := by rw [← hy, hr]; simp [Reed.SameSpecial, Reed.modCtx, Reed.setCtx]
  have hv : y.v = (s.reed r.reed.val).v := by rw [← hy, hr]; simp [Reed.modCtx, Reed.setCtx]
  have hm : y.marks = (s.reed r.reed.val).marks := by rw [← hy, hr]; simp [Reed.modCtx, Reed.setCtx]
  have hx : ∀ (z : Reed) (l : List (BitVec 128)) j, ({ z with samples := l } : Reed).context j = z.context j := fun _ _ _ => rfl
  simp only [State.OnlyContext, State.ctxOf, ha, hx]
  refine ⟨⟨ho.trans (State.advance_only u r), ?_, ?_, ?_, ?_⟩, ?_, ?_, ?_, ?_, ?_⟩
  · simp only [Reed.SameStore] at st hs ⊢; simp_all
  · simp only [Reed.SameSpecial] at sp hp ⊢; simp_all
  · rw [Reed.goTo_v, hv]
  · intro j hj
    rw [(hg j).2.2.2.2.2 hj, hc' j hj]
  · rw [(hg _).1, hc]; rfl
  · rw [(hg _).2.1, hc]; rfl
  · rw [(hg _).2.2.1, hc]; rfl
  · rw [(hg _).2.2.2.1, hc]; rfl
  · rw [Reed.goTo_marks, hm]

end Sys2Proof.Machine
end

