-- ==== Sys2Proof/Laws/State.lean ====
section
/-! SUPPORT. What each update of the state leaves alone: one lemma for each field of the state and each of its units, true by unfolding. -/
namespace Sys2Proof.Machine

/-! State.setReed changes a reed. -/

@[simp] theorem State.setReed_pending (s : State) (r : Nat) (x : Reed) : (s.setReed r x).pending = s.pending := rfl
@[simp] theorem State.setReed_tus (s : State) (r : Nat) (x : Reed) : (s.setReed r x).tus = s.tus := rfl
@[simp] theorem State.setReed_stacks (s : State) (r : Nat) (x : Reed) : (s.setReed r x).hbmStacks = s.hbmStacks := rfl
@[simp] theorem State.setReed_halves (s : State) (r : Nat) (x : Reed) : (s.setReed r x).halves = s.halves := rfl
@[simp] theorem State.setReed_sump (s : State) (r : Nat) (x : Reed) : (s.setReed r x).sump = s.sump := rfl
@[simp] theorem State.setReed_groups (s : State) (r : Nat) (x : Reed) : (s.setReed r x).groups = s.groups := rfl
@[simp] theorem State.setReed_mesh (s : State) (r : Nat) (x : Reed) : (s.setReed r x).mesh = s.mesh := rfl
@[simp] theorem State.setReed_arbs (s : State) (r : Nat) (x : Reed) : (s.setReed r x).arbs = s.arbs := rfl
@[simp] theorem State.setReed_rillq (s : State) (r : Nat) (x : Reed) : (s.setReed r x).rillq = s.rillq := rfl
@[simp] theorem State.setReed_xfers (s : State) (r : Nat) (x : Reed) : (s.setReed r x).xfers = s.xfers := rfl
@[simp] theorem State.setReed_nextXfer (s : State) (r : Nat) (x : Reed) : (s.setReed r x).nextXfer = s.nextXfer := rfl
@[simp] theorem State.setReed_board (s : State) (r : Nat) (x : Reed) : (s.setReed r x).board = s.board := rfl
@[simp] theorem State.setReed_retries (s : State) (r : Nat) (x : Reed) : (s.setReed r x).retries = s.retries := rfl
@[simp] theorem State.setReed_parts (s : State) (r : Nat) (x : Reed) : (s.setReed r x).parts = s.parts := rfl
@[simp] theorem State.setReed_ports (s : State) (r : Nat) (x : Reed) : (s.setReed r x).ports = s.ports := rfl
@[simp] theorem State.setReed_lodes (s : State) (r : Nat) (x : Reed) : (s.setReed r x).lodes = s.lodes := rfl
@[simp] theorem State.setReed_mcasts (s : State) (r : Nat) (x : Reed) : (s.setReed r x).mcasts = s.mcasts := rfl
@[simp] theorem State.setReed_nextMcast (s : State) (r : Nat) (x : Reed) : (s.setReed r x).nextMcast = s.nextMcast := rfl
@[simp] theorem State.setReed_mire (s : State) (r : Nat) (x : Reed) : (s.setReed r x).mire = s.mire := rfl
@[simp] theorem State.setReed_power (s : State) (r : Nat) (x : Reed) : (s.setReed r x).power = s.power := rfl
@[simp] theorem State.setReed_log (s : State) (r : Nat) (x : Reed) : (s.setReed r x).log = s.log := rfl
@[simp] theorem State.setReed_dict (s : State) (r : Nat) (x : Reed) : (s.setReed r x).dict = s.dict := rfl
@[simp] theorem State.setReed_changes (s : State) (r : Nat) (x : Reed) : (s.setReed r x).changes = s.changes := rfl
@[simp] theorem State.setReed_sedge (s : State) (r : Nat) (x : Reed) : (s.setReed r x).sedge = s.sedge := rfl
@[simp] theorem State.setReed_tap (s : State) (r : Nat) (x : Reed) : (s.setReed r x).tap = s.tap := rfl
@[simp] theorem State.setReed_fens (s : State) (r : Nat) (x : Reed) : (s.setReed r x).fens = s.fens := rfl
@[simp] theorem State.setReed_slots (s : State) (r : Nat) (x : Reed) : (s.setReed r x).slots = s.slots := rfl
@[simp] theorem State.setReed_bootSlot (s : State) (r : Nat) (x : Reed) : (s.setReed r x).bootSlot = s.bootSlot := rfl
@[simp] theorem State.setReed_ccSlot (s : State) (r : Nat) (x : Reed) : (s.setReed r x).ccSlot = s.ccSlot := rfl
@[simp] theorem State.setReed_fuses (s : State) (r : Nat) (x : Reed) : (s.setReed r x).fuses = s.fuses := rfl
@[simp] theorem State.setReed_boardRec (s : State) (r : Nat) (x : Reed) : (s.setReed r x).boardRec = s.boardRec := rfl
@[simp] theorem State.setReed_boot (s : State) (r : Nat) (x : Reed) : (s.setReed r x).boot = s.boot := rfl
@[simp] theorem State.setReed_boardOut (s : State) (r : Nat) (x : Reed) : (s.setReed r x).boardOut = s.boardOut := rfl
@[simp] theorem State.setReed_oos (s : State) (r : Nat) (x : Reed) : (s.setReed r x).oos = s.oos := rfl
@[simp] theorem State.setReed_retest (s : State) (r : Nat) (x : Reed) : (s.setReed r x).retest = s.retest := rfl
@[simp] theorem State.setReed_oosFlash (s : State) (r : Nat) (x : Reed) : (s.setReed r x).oosFlash = s.oosFlash := rfl
@[simp] theorem State.setReed_crash (s : State) (r : Nat) (x : Reed) : (s.setReed r x).crash = s.crash := rfl
@[simp] theorem State.setReed_throttled (s : State) (r : Nat) (x : Reed) : (s.setReed r x).throttled = s.throttled := rfl
@[simp] theorem State.setReed_timeBase (s : State) (r : Nat) (x : Reed) : (s.setReed r x).timeBase = s.timeBase := rfl
@[simp] theorem State.setReed_causeway (s : State) (r : Nat) (x : Reed) : (s.setReed r x).causeway = s.causeway := rfl
@[simp] theorem State.setReed_snap (s : State) (r : Nat) (x : Reed) : (s.setReed r x).snap = s.snap := rfl
@[simp] theorem State.setReed_snapWait (s : State) (r : Nat) (x : Reed) : (s.setReed r x).snapWait = s.snapWait := rfl
@[simp] theorem State.setReed_rails (s : State) (r : Nat) (x : Reed) : (s.setReed r x).rails = s.rails := rfl
@[simp] theorem State.setReed_freeCtr (s : State) (r : Nat) (x : Reed) : (s.setReed r x).freeCtr = s.freeCtr := rfl
@[simp] theorem State.setReed_out (s : State) (r : Nat) (x : Reed) : (s.setReed r x).out = s.out := rfl
@[simp] theorem State.setReed_tus1_unit (s : State) (r : Nat) (x : Reed) (k : Nat) : (s.setReed r x).tus1 k = s.tus1 k := rfl
@[simp] theorem State.setReed_stack_unit (s : State) (r : Nat) (x : Reed) (k : Nat) : (s.setReed r x).stack k = s.stack k := rfl
@[simp] theorem State.setReed_part_unit (s : State) (r : Nat) (x : Reed) (k : Nat) : (s.setReed r x).part k = s.part k := rfl
@[simp] theorem State.setReed_port_unit (s : State) (r : Nat) (x : Reed) (k : Nat) : (s.setReed r x).port k = s.port k := rfl
@[simp] theorem State.setReed_lode_unit (s : State) (r : Nat) (x : Reed) (k : Nat) : (s.setReed r x).lode k = s.lode k := rfl
@[simp] theorem State.setReed_fen_unit (s : State) (r : Nat) (x : Reed) (k : Nat) : (s.setReed r x).fen k = s.fen k := rfl
@[simp] theorem State.setReed_get (s : State) (r : Nat) (x : Reed) (j b : Nat) : (s.setReed r x).get j b = s.get j b := rfl

/-! State.modReed changes a reed. -/

@[simp] theorem State.modReed_pending (s : State) (r : Nat) (f : Reed → Reed) : (s.modReed r f).pending = s.pending := rfl
@[simp] theorem State.modReed_tus (s : State) (r : Nat) (f : Reed → Reed) : (s.modReed r f).tus = s.tus := rfl
@[simp] theorem State.modReed_stacks (s : State) (r : Nat) (f : Reed → Reed) : (s.modReed r f).hbmStacks = s.hbmStacks := rfl
@[simp] theorem State.modReed_halves (s : State) (r : Nat) (f : Reed → Reed) : (s.modReed r f).halves = s.halves := rfl
@[simp] theorem State.modReed_sump (s : State) (r : Nat) (f : Reed → Reed) : (s.modReed r f).sump = s.sump := rfl
@[simp] theorem State.modReed_groups (s : State) (r : Nat) (f : Reed → Reed) : (s.modReed r f).groups = s.groups := rfl
@[simp] theorem State.modReed_mesh (s : State) (r : Nat) (f : Reed → Reed) : (s.modReed r f).mesh = s.mesh := rfl
@[simp] theorem State.modReed_arbs (s : State) (r : Nat) (f : Reed → Reed) : (s.modReed r f).arbs = s.arbs := rfl
@[simp] theorem State.modReed_rillq (s : State) (r : Nat) (f : Reed → Reed) : (s.modReed r f).rillq = s.rillq := rfl
@[simp] theorem State.modReed_xfers (s : State) (r : Nat) (f : Reed → Reed) : (s.modReed r f).xfers = s.xfers := rfl
@[simp] theorem State.modReed_nextXfer (s : State) (r : Nat) (f : Reed → Reed) : (s.modReed r f).nextXfer = s.nextXfer := rfl
@[simp] theorem State.modReed_board (s : State) (r : Nat) (f : Reed → Reed) : (s.modReed r f).board = s.board := rfl
@[simp] theorem State.modReed_retries (s : State) (r : Nat) (f : Reed → Reed) : (s.modReed r f).retries = s.retries := rfl
@[simp] theorem State.modReed_parts (s : State) (r : Nat) (f : Reed → Reed) : (s.modReed r f).parts = s.parts := rfl
@[simp] theorem State.modReed_ports (s : State) (r : Nat) (f : Reed → Reed) : (s.modReed r f).ports = s.ports := rfl
@[simp] theorem State.modReed_lodes (s : State) (r : Nat) (f : Reed → Reed) : (s.modReed r f).lodes = s.lodes := rfl
@[simp] theorem State.modReed_mcasts (s : State) (r : Nat) (f : Reed → Reed) : (s.modReed r f).mcasts = s.mcasts := rfl
@[simp] theorem State.modReed_nextMcast (s : State) (r : Nat) (f : Reed → Reed) : (s.modReed r f).nextMcast = s.nextMcast := rfl
@[simp] theorem State.modReed_mire (s : State) (r : Nat) (f : Reed → Reed) : (s.modReed r f).mire = s.mire := rfl
@[simp] theorem State.modReed_power (s : State) (r : Nat) (f : Reed → Reed) : (s.modReed r f).power = s.power := rfl
@[simp] theorem State.modReed_log (s : State) (r : Nat) (f : Reed → Reed) : (s.modReed r f).log = s.log := rfl
@[simp] theorem State.modReed_dict (s : State) (r : Nat) (f : Reed → Reed) : (s.modReed r f).dict = s.dict := rfl
@[simp] theorem State.modReed_changes (s : State) (r : Nat) (f : Reed → Reed) : (s.modReed r f).changes = s.changes := rfl
@[simp] theorem State.modReed_sedge (s : State) (r : Nat) (f : Reed → Reed) : (s.modReed r f).sedge = s.sedge := rfl
@[simp] theorem State.modReed_tap (s : State) (r : Nat) (f : Reed → Reed) : (s.modReed r f).tap = s.tap := rfl
@[simp] theorem State.modReed_fens (s : State) (r : Nat) (f : Reed → Reed) : (s.modReed r f).fens = s.fens := rfl
@[simp] theorem State.modReed_slots (s : State) (r : Nat) (f : Reed → Reed) : (s.modReed r f).slots = s.slots := rfl
@[simp] theorem State.modReed_bootSlot (s : State) (r : Nat) (f : Reed → Reed) : (s.modReed r f).bootSlot = s.bootSlot := rfl
@[simp] theorem State.modReed_ccSlot (s : State) (r : Nat) (f : Reed → Reed) : (s.modReed r f).ccSlot = s.ccSlot := rfl
@[simp] theorem State.modReed_fuses (s : State) (r : Nat) (f : Reed → Reed) : (s.modReed r f).fuses = s.fuses := rfl
@[simp] theorem State.modReed_boardRec (s : State) (r : Nat) (f : Reed → Reed) : (s.modReed r f).boardRec = s.boardRec := rfl
@[simp] theorem State.modReed_boot (s : State) (r : Nat) (f : Reed → Reed) : (s.modReed r f).boot = s.boot := rfl
@[simp] theorem State.modReed_boardOut (s : State) (r : Nat) (f : Reed → Reed) : (s.modReed r f).boardOut = s.boardOut := rfl
@[simp] theorem State.modReed_oos (s : State) (r : Nat) (f : Reed → Reed) : (s.modReed r f).oos = s.oos := rfl
@[simp] theorem State.modReed_retest (s : State) (r : Nat) (f : Reed → Reed) : (s.modReed r f).retest = s.retest := rfl
@[simp] theorem State.modReed_oosFlash (s : State) (r : Nat) (f : Reed → Reed) : (s.modReed r f).oosFlash = s.oosFlash := rfl
@[simp] theorem State.modReed_crash (s : State) (r : Nat) (f : Reed → Reed) : (s.modReed r f).crash = s.crash := rfl
@[simp] theorem State.modReed_throttled (s : State) (r : Nat) (f : Reed → Reed) : (s.modReed r f).throttled = s.throttled := rfl
@[simp] theorem State.modReed_timeBase (s : State) (r : Nat) (f : Reed → Reed) : (s.modReed r f).timeBase = s.timeBase := rfl
@[simp] theorem State.modReed_causeway (s : State) (r : Nat) (f : Reed → Reed) : (s.modReed r f).causeway = s.causeway := rfl
@[simp] theorem State.modReed_snap (s : State) (r : Nat) (f : Reed → Reed) : (s.modReed r f).snap = s.snap := rfl
@[simp] theorem State.modReed_snapWait (s : State) (r : Nat) (f : Reed → Reed) : (s.modReed r f).snapWait = s.snapWait := rfl
@[simp] theorem State.modReed_rails (s : State) (r : Nat) (f : Reed → Reed) : (s.modReed r f).rails = s.rails := rfl
@[simp] theorem State.modReed_freeCtr (s : State) (r : Nat) (f : Reed → Reed) : (s.modReed r f).freeCtr = s.freeCtr := rfl
@[simp] theorem State.modReed_out (s : State) (r : Nat) (f : Reed → Reed) : (s.modReed r f).out = s.out := rfl
@[simp] theorem State.modReed_tus1_unit (s : State) (r : Nat) (f : Reed → Reed) (k : Nat) : (s.modReed r f).tus1 k = s.tus1 k := rfl
@[simp] theorem State.modReed_stack_unit (s : State) (r : Nat) (f : Reed → Reed) (k : Nat) : (s.modReed r f).stack k = s.stack k := rfl
@[simp] theorem State.modReed_part_unit (s : State) (r : Nat) (f : Reed → Reed) (k : Nat) : (s.modReed r f).part k = s.part k := rfl
@[simp] theorem State.modReed_port_unit (s : State) (r : Nat) (f : Reed → Reed) (k : Nat) : (s.modReed r f).port k = s.port k := rfl
@[simp] theorem State.modReed_lode_unit (s : State) (r : Nat) (f : Reed → Reed) (k : Nat) : (s.modReed r f).lode k = s.lode k := rfl
@[simp] theorem State.modReed_fen_unit (s : State) (r : Nat) (f : Reed → Reed) (k : Nat) : (s.modReed r f).fen k = s.fen k := rfl
@[simp] theorem State.modReed_get (s : State) (r : Nat) (f : Reed → Reed) (j b : Nat) : (s.modReed r f).get j b = s.get j b := rfl

/-! State.setTus changes a tussock. -/

@[simp] theorem State.setTus_pending (s : State) (t : Nat) (x : Tussock) : (s.setTus t x).pending = s.pending := rfl
@[simp] theorem State.setTus_reeds (s : State) (t : Nat) (x : Tussock) : (s.setTus t x).reeds = s.reeds := rfl
@[simp] theorem State.setTus_stacks (s : State) (t : Nat) (x : Tussock) : (s.setTus t x).hbmStacks = s.hbmStacks := rfl
@[simp] theorem State.setTus_halves (s : State) (t : Nat) (x : Tussock) : (s.setTus t x).halves = s.halves := rfl
@[simp] theorem State.setTus_sump (s : State) (t : Nat) (x : Tussock) : (s.setTus t x).sump = s.sump := rfl
@[simp] theorem State.setTus_groups (s : State) (t : Nat) (x : Tussock) : (s.setTus t x).groups = s.groups := rfl
@[simp] theorem State.setTus_mesh (s : State) (t : Nat) (x : Tussock) : (s.setTus t x).mesh = s.mesh := rfl
@[simp] theorem State.setTus_arbs (s : State) (t : Nat) (x : Tussock) : (s.setTus t x).arbs = s.arbs := rfl
@[simp] theorem State.setTus_rillq (s : State) (t : Nat) (x : Tussock) : (s.setTus t x).rillq = s.rillq := rfl
@[simp] theorem State.setTus_xfers (s : State) (t : Nat) (x : Tussock) : (s.setTus t x).xfers = s.xfers := rfl
@[simp] theorem State.setTus_nextXfer (s : State) (t : Nat) (x : Tussock) : (s.setTus t x).nextXfer = s.nextXfer := rfl
@[simp] theorem State.setTus_board (s : State) (t : Nat) (x : Tussock) : (s.setTus t x).board = s.board := rfl
@[simp] theorem State.setTus_retries (s : State) (t : Nat) (x : Tussock) : (s.setTus t x).retries = s.retries := rfl
@[simp] theorem State.setTus_parts (s : State) (t : Nat) (x : Tussock) : (s.setTus t x).parts = s.parts := rfl
@[simp] theorem State.setTus_ports (s : State) (t : Nat) (x : Tussock) : (s.setTus t x).ports = s.ports := rfl
@[simp] theorem State.setTus_lodes (s : State) (t : Nat) (x : Tussock) : (s.setTus t x).lodes = s.lodes := rfl
@[simp] theorem State.setTus_mcasts (s : State) (t : Nat) (x : Tussock) : (s.setTus t x).mcasts = s.mcasts := rfl
@[simp] theorem State.setTus_nextMcast (s : State) (t : Nat) (x : Tussock) : (s.setTus t x).nextMcast = s.nextMcast := rfl
@[simp] theorem State.setTus_mire (s : State) (t : Nat) (x : Tussock) : (s.setTus t x).mire = s.mire := rfl
@[simp] theorem State.setTus_power (s : State) (t : Nat) (x : Tussock) : (s.setTus t x).power = s.power := rfl
@[simp] theorem State.setTus_log (s : State) (t : Nat) (x : Tussock) : (s.setTus t x).log = s.log := rfl
@[simp] theorem State.setTus_dict (s : State) (t : Nat) (x : Tussock) : (s.setTus t x).dict = s.dict := rfl
@[simp] theorem State.setTus_changes (s : State) (t : Nat) (x : Tussock) : (s.setTus t x).changes = s.changes := rfl
@[simp] theorem State.setTus_sedge (s : State) (t : Nat) (x : Tussock) : (s.setTus t x).sedge = s.sedge := rfl
@[simp] theorem State.setTus_tap (s : State) (t : Nat) (x : Tussock) : (s.setTus t x).tap = s.tap := rfl
@[simp] theorem State.setTus_fens (s : State) (t : Nat) (x : Tussock) : (s.setTus t x).fens = s.fens := rfl
@[simp] theorem State.setTus_slots (s : State) (t : Nat) (x : Tussock) : (s.setTus t x).slots = s.slots := rfl
@[simp] theorem State.setTus_bootSlot (s : State) (t : Nat) (x : Tussock) : (s.setTus t x).bootSlot = s.bootSlot := rfl
@[simp] theorem State.setTus_ccSlot (s : State) (t : Nat) (x : Tussock) : (s.setTus t x).ccSlot = s.ccSlot := rfl
@[simp] theorem State.setTus_fuses (s : State) (t : Nat) (x : Tussock) : (s.setTus t x).fuses = s.fuses := rfl
@[simp] theorem State.setTus_boardRec (s : State) (t : Nat) (x : Tussock) : (s.setTus t x).boardRec = s.boardRec := rfl
@[simp] theorem State.setTus_boot (s : State) (t : Nat) (x : Tussock) : (s.setTus t x).boot = s.boot := rfl
@[simp] theorem State.setTus_boardOut (s : State) (t : Nat) (x : Tussock) : (s.setTus t x).boardOut = s.boardOut := rfl
@[simp] theorem State.setTus_oos (s : State) (t : Nat) (x : Tussock) : (s.setTus t x).oos = s.oos := rfl
@[simp] theorem State.setTus_retest (s : State) (t : Nat) (x : Tussock) : (s.setTus t x).retest = s.retest := rfl
@[simp] theorem State.setTus_oosFlash (s : State) (t : Nat) (x : Tussock) : (s.setTus t x).oosFlash = s.oosFlash := rfl
@[simp] theorem State.setTus_crash (s : State) (t : Nat) (x : Tussock) : (s.setTus t x).crash = s.crash := rfl
@[simp] theorem State.setTus_throttled (s : State) (t : Nat) (x : Tussock) : (s.setTus t x).throttled = s.throttled := rfl
@[simp] theorem State.setTus_timeBase (s : State) (t : Nat) (x : Tussock) : (s.setTus t x).timeBase = s.timeBase := rfl
@[simp] theorem State.setTus_causeway (s : State) (t : Nat) (x : Tussock) : (s.setTus t x).causeway = s.causeway := rfl
@[simp] theorem State.setTus_snap (s : State) (t : Nat) (x : Tussock) : (s.setTus t x).snap = s.snap := rfl
@[simp] theorem State.setTus_snapWait (s : State) (t : Nat) (x : Tussock) : (s.setTus t x).snapWait = s.snapWait := rfl
@[simp] theorem State.setTus_rails (s : State) (t : Nat) (x : Tussock) : (s.setTus t x).rails = s.rails := rfl
@[simp] theorem State.setTus_freeCtr (s : State) (t : Nat) (x : Tussock) : (s.setTus t x).freeCtr = s.freeCtr := rfl
@[simp] theorem State.setTus_out (s : State) (t : Nat) (x : Tussock) : (s.setTus t x).out = s.out := rfl
@[simp] theorem State.setTus_reed_unit (s : State) (t : Nat) (x : Tussock) (k : Nat) : (s.setTus t x).reed k = s.reed k := rfl
@[simp] theorem State.setTus_stack_unit (s : State) (t : Nat) (x : Tussock) (k : Nat) : (s.setTus t x).stack k = s.stack k := rfl
@[simp] theorem State.setTus_part_unit (s : State) (t : Nat) (x : Tussock) (k : Nat) : (s.setTus t x).part k = s.part k := rfl
@[simp] theorem State.setTus_port_unit (s : State) (t : Nat) (x : Tussock) (k : Nat) : (s.setTus t x).port k = s.port k := rfl
@[simp] theorem State.setTus_lode_unit (s : State) (t : Nat) (x : Tussock) (k : Nat) : (s.setTus t x).lode k = s.lode k := rfl
@[simp] theorem State.setTus_fen_unit (s : State) (t : Nat) (x : Tussock) (k : Nat) : (s.setTus t x).fen k = s.fen k := rfl
@[simp] theorem State.setTus_get (s : State) (t : Nat) (x : Tussock) (j b : Nat) : (s.setTus t x).get j b = s.get j b := rfl

/-! State.modTus changes a tussock. -/

@[simp] theorem State.modTus_pending (s : State) (t : Nat) (f : Tussock → Tussock) : (s.modTus t f).pending = s.pending := rfl
@[simp] theorem State.modTus_reeds (s : State) (t : Nat) (f : Tussock → Tussock) : (s.modTus t f).reeds = s.reeds := rfl
@[simp] theorem State.modTus_stacks (s : State) (t : Nat) (f : Tussock → Tussock) : (s.modTus t f).hbmStacks = s.hbmStacks := rfl
@[simp] theorem State.modTus_halves (s : State) (t : Nat) (f : Tussock → Tussock) : (s.modTus t f).halves = s.halves := rfl
@[simp] theorem State.modTus_sump (s : State) (t : Nat) (f : Tussock → Tussock) : (s.modTus t f).sump = s.sump := rfl
@[simp] theorem State.modTus_groups (s : State) (t : Nat) (f : Tussock → Tussock) : (s.modTus t f).groups = s.groups := rfl
@[simp] theorem State.modTus_mesh (s : State) (t : Nat) (f : Tussock → Tussock) : (s.modTus t f).mesh = s.mesh := rfl
@[simp] theorem State.modTus_arbs (s : State) (t : Nat) (f : Tussock → Tussock) : (s.modTus t f).arbs = s.arbs := rfl
@[simp] theorem State.modTus_rillq (s : State) (t : Nat) (f : Tussock → Tussock) : (s.modTus t f).rillq = s.rillq := rfl
@[simp] theorem State.modTus_xfers (s : State) (t : Nat) (f : Tussock → Tussock) : (s.modTus t f).xfers = s.xfers := rfl
@[simp] theorem State.modTus_nextXfer (s : State) (t : Nat) (f : Tussock → Tussock) : (s.modTus t f).nextXfer = s.nextXfer := rfl
@[simp] theorem State.modTus_board (s : State) (t : Nat) (f : Tussock → Tussock) : (s.modTus t f).board = s.board := rfl
@[simp] theorem State.modTus_retries (s : State) (t : Nat) (f : Tussock → Tussock) : (s.modTus t f).retries = s.retries := rfl
@[simp] theorem State.modTus_parts (s : State) (t : Nat) (f : Tussock → Tussock) : (s.modTus t f).parts = s.parts := rfl
@[simp] theorem State.modTus_ports (s : State) (t : Nat) (f : Tussock → Tussock) : (s.modTus t f).ports = s.ports := rfl
@[simp] theorem State.modTus_lodes (s : State) (t : Nat) (f : Tussock → Tussock) : (s.modTus t f).lodes = s.lodes := rfl
@[simp] theorem State.modTus_mcasts (s : State) (t : Nat) (f : Tussock → Tussock) : (s.modTus t f).mcasts = s.mcasts := rfl
@[simp] theorem State.modTus_nextMcast (s : State) (t : Nat) (f : Tussock → Tussock) : (s.modTus t f).nextMcast = s.nextMcast := rfl
@[simp] theorem State.modTus_mire (s : State) (t : Nat) (f : Tussock → Tussock) : (s.modTus t f).mire = s.mire := rfl
@[simp] theorem State.modTus_power (s : State) (t : Nat) (f : Tussock → Tussock) : (s.modTus t f).power = s.power := rfl
@[simp] theorem State.modTus_log (s : State) (t : Nat) (f : Tussock → Tussock) : (s.modTus t f).log = s.log := rfl
@[simp] theorem State.modTus_dict (s : State) (t : Nat) (f : Tussock → Tussock) : (s.modTus t f).dict = s.dict := rfl
@[simp] theorem State.modTus_changes (s : State) (t : Nat) (f : Tussock → Tussock) : (s.modTus t f).changes = s.changes := rfl
@[simp] theorem State.modTus_sedge (s : State) (t : Nat) (f : Tussock → Tussock) : (s.modTus t f).sedge = s.sedge := rfl
@[simp] theorem State.modTus_tap (s : State) (t : Nat) (f : Tussock → Tussock) : (s.modTus t f).tap = s.tap := rfl
@[simp] theorem State.modTus_fens (s : State) (t : Nat) (f : Tussock → Tussock) : (s.modTus t f).fens = s.fens := rfl
@[simp] theorem State.modTus_slots (s : State) (t : Nat) (f : Tussock → Tussock) : (s.modTus t f).slots = s.slots := rfl
@[simp] theorem State.modTus_bootSlot (s : State) (t : Nat) (f : Tussock → Tussock) : (s.modTus t f).bootSlot = s.bootSlot := rfl
@[simp] theorem State.modTus_ccSlot (s : State) (t : Nat) (f : Tussock → Tussock) : (s.modTus t f).ccSlot = s.ccSlot := rfl
@[simp] theorem State.modTus_fuses (s : State) (t : Nat) (f : Tussock → Tussock) : (s.modTus t f).fuses = s.fuses := rfl
@[simp] theorem State.modTus_boardRec (s : State) (t : Nat) (f : Tussock → Tussock) : (s.modTus t f).boardRec = s.boardRec := rfl
@[simp] theorem State.modTus_boot (s : State) (t : Nat) (f : Tussock → Tussock) : (s.modTus t f).boot = s.boot := rfl
@[simp] theorem State.modTus_boardOut (s : State) (t : Nat) (f : Tussock → Tussock) : (s.modTus t f).boardOut = s.boardOut := rfl
@[simp] theorem State.modTus_oos (s : State) (t : Nat) (f : Tussock → Tussock) : (s.modTus t f).oos = s.oos := rfl
@[simp] theorem State.modTus_retest (s : State) (t : Nat) (f : Tussock → Tussock) : (s.modTus t f).retest = s.retest := rfl
@[simp] theorem State.modTus_oosFlash (s : State) (t : Nat) (f : Tussock → Tussock) : (s.modTus t f).oosFlash = s.oosFlash := rfl
@[simp] theorem State.modTus_crash (s : State) (t : Nat) (f : Tussock → Tussock) : (s.modTus t f).crash = s.crash := rfl
@[simp] theorem State.modTus_throttled (s : State) (t : Nat) (f : Tussock → Tussock) : (s.modTus t f).throttled = s.throttled := rfl
@[simp] theorem State.modTus_timeBase (s : State) (t : Nat) (f : Tussock → Tussock) : (s.modTus t f).timeBase = s.timeBase := rfl
@[simp] theorem State.modTus_causeway (s : State) (t : Nat) (f : Tussock → Tussock) : (s.modTus t f).causeway = s.causeway := rfl
@[simp] theorem State.modTus_snap (s : State) (t : Nat) (f : Tussock → Tussock) : (s.modTus t f).snap = s.snap := rfl
@[simp] theorem State.modTus_snapWait (s : State) (t : Nat) (f : Tussock → Tussock) : (s.modTus t f).snapWait = s.snapWait := rfl
@[simp] theorem State.modTus_rails (s : State) (t : Nat) (f : Tussock → Tussock) : (s.modTus t f).rails = s.rails := rfl
@[simp] theorem State.modTus_freeCtr (s : State) (t : Nat) (f : Tussock → Tussock) : (s.modTus t f).freeCtr = s.freeCtr := rfl
@[simp] theorem State.modTus_out (s : State) (t : Nat) (f : Tussock → Tussock) : (s.modTus t f).out = s.out := rfl
@[simp] theorem State.modTus_reed_unit (s : State) (t : Nat) (f : Tussock → Tussock) (k : Nat) : (s.modTus t f).reed k = s.reed k := rfl
@[simp] theorem State.modTus_stack_unit (s : State) (t : Nat) (f : Tussock → Tussock) (k : Nat) : (s.modTus t f).stack k = s.stack k := rfl
@[simp] theorem State.modTus_part_unit (s : State) (t : Nat) (f : Tussock → Tussock) (k : Nat) : (s.modTus t f).part k = s.part k := rfl
@[simp] theorem State.modTus_port_unit (s : State) (t : Nat) (f : Tussock → Tussock) (k : Nat) : (s.modTus t f).port k = s.port k := rfl
@[simp] theorem State.modTus_lode_unit (s : State) (t : Nat) (f : Tussock → Tussock) (k : Nat) : (s.modTus t f).lode k = s.lode k := rfl
@[simp] theorem State.modTus_fen_unit (s : State) (t : Nat) (f : Tussock → Tussock) (k : Nat) : (s.modTus t f).fen k = s.fen k := rfl
@[simp] theorem State.modTus_get (s : State) (t : Nat) (f : Tussock → Tussock) (j b : Nat) : (s.modTus t f).get j b = s.get j b := rfl

/-! State.modStack changes a stack. -/

@[simp] theorem State.modStack_pending (s : State) (i : Nat) (f : Stack → Stack) : (s.modStack i f).pending = s.pending := rfl
@[simp] theorem State.modStack_reeds (s : State) (i : Nat) (f : Stack → Stack) : (s.modStack i f).reeds = s.reeds := rfl
@[simp] theorem State.modStack_tus (s : State) (i : Nat) (f : Stack → Stack) : (s.modStack i f).tus = s.tus := rfl
@[simp] theorem State.modStack_halves (s : State) (i : Nat) (f : Stack → Stack) : (s.modStack i f).halves = s.halves := rfl
@[simp] theorem State.modStack_sump (s : State) (i : Nat) (f : Stack → Stack) : (s.modStack i f).sump = s.sump := rfl
@[simp] theorem State.modStack_groups (s : State) (i : Nat) (f : Stack → Stack) : (s.modStack i f).groups = s.groups := rfl
@[simp] theorem State.modStack_mesh (s : State) (i : Nat) (f : Stack → Stack) : (s.modStack i f).mesh = s.mesh := rfl
@[simp] theorem State.modStack_arbs (s : State) (i : Nat) (f : Stack → Stack) : (s.modStack i f).arbs = s.arbs := rfl
@[simp] theorem State.modStack_rillq (s : State) (i : Nat) (f : Stack → Stack) : (s.modStack i f).rillq = s.rillq := rfl
@[simp] theorem State.modStack_xfers (s : State) (i : Nat) (f : Stack → Stack) : (s.modStack i f).xfers = s.xfers := rfl
@[simp] theorem State.modStack_nextXfer (s : State) (i : Nat) (f : Stack → Stack) : (s.modStack i f).nextXfer = s.nextXfer := rfl
@[simp] theorem State.modStack_board (s : State) (i : Nat) (f : Stack → Stack) : (s.modStack i f).board = s.board := rfl
@[simp] theorem State.modStack_retries (s : State) (i : Nat) (f : Stack → Stack) : (s.modStack i f).retries = s.retries := rfl
@[simp] theorem State.modStack_parts (s : State) (i : Nat) (f : Stack → Stack) : (s.modStack i f).parts = s.parts := rfl
@[simp] theorem State.modStack_ports (s : State) (i : Nat) (f : Stack → Stack) : (s.modStack i f).ports = s.ports := rfl
@[simp] theorem State.modStack_lodes (s : State) (i : Nat) (f : Stack → Stack) : (s.modStack i f).lodes = s.lodes := rfl
@[simp] theorem State.modStack_mcasts (s : State) (i : Nat) (f : Stack → Stack) : (s.modStack i f).mcasts = s.mcasts := rfl
@[simp] theorem State.modStack_nextMcast (s : State) (i : Nat) (f : Stack → Stack) : (s.modStack i f).nextMcast = s.nextMcast := rfl
@[simp] theorem State.modStack_mire (s : State) (i : Nat) (f : Stack → Stack) : (s.modStack i f).mire = s.mire := rfl
@[simp] theorem State.modStack_power (s : State) (i : Nat) (f : Stack → Stack) : (s.modStack i f).power = s.power := rfl
@[simp] theorem State.modStack_log (s : State) (i : Nat) (f : Stack → Stack) : (s.modStack i f).log = s.log := rfl
@[simp] theorem State.modStack_dict (s : State) (i : Nat) (f : Stack → Stack) : (s.modStack i f).dict = s.dict := rfl
@[simp] theorem State.modStack_changes (s : State) (i : Nat) (f : Stack → Stack) : (s.modStack i f).changes = s.changes := rfl
@[simp] theorem State.modStack_sedge (s : State) (i : Nat) (f : Stack → Stack) : (s.modStack i f).sedge = s.sedge := rfl
@[simp] theorem State.modStack_tap (s : State) (i : Nat) (f : Stack → Stack) : (s.modStack i f).tap = s.tap := rfl
@[simp] theorem State.modStack_fens (s : State) (i : Nat) (f : Stack → Stack) : (s.modStack i f).fens = s.fens := rfl
@[simp] theorem State.modStack_slots (s : State) (i : Nat) (f : Stack → Stack) : (s.modStack i f).slots = s.slots := rfl
@[simp] theorem State.modStack_bootSlot (s : State) (i : Nat) (f : Stack → Stack) : (s.modStack i f).bootSlot = s.bootSlot := rfl
@[simp] theorem State.modStack_ccSlot (s : State) (i : Nat) (f : Stack → Stack) : (s.modStack i f).ccSlot = s.ccSlot := rfl
@[simp] theorem State.modStack_fuses (s : State) (i : Nat) (f : Stack → Stack) : (s.modStack i f).fuses = s.fuses := rfl
@[simp] theorem State.modStack_boardRec (s : State) (i : Nat) (f : Stack → Stack) : (s.modStack i f).boardRec = s.boardRec := rfl
@[simp] theorem State.modStack_boot (s : State) (i : Nat) (f : Stack → Stack) : (s.modStack i f).boot = s.boot := rfl
@[simp] theorem State.modStack_boardOut (s : State) (i : Nat) (f : Stack → Stack) : (s.modStack i f).boardOut = s.boardOut := rfl
@[simp] theorem State.modStack_oos (s : State) (i : Nat) (f : Stack → Stack) : (s.modStack i f).oos = s.oos := rfl
@[simp] theorem State.modStack_retest (s : State) (i : Nat) (f : Stack → Stack) : (s.modStack i f).retest = s.retest := rfl
@[simp] theorem State.modStack_oosFlash (s : State) (i : Nat) (f : Stack → Stack) : (s.modStack i f).oosFlash = s.oosFlash := rfl
@[simp] theorem State.modStack_crash (s : State) (i : Nat) (f : Stack → Stack) : (s.modStack i f).crash = s.crash := rfl
@[simp] theorem State.modStack_throttled (s : State) (i : Nat) (f : Stack → Stack) : (s.modStack i f).throttled = s.throttled := rfl
@[simp] theorem State.modStack_timeBase (s : State) (i : Nat) (f : Stack → Stack) : (s.modStack i f).timeBase = s.timeBase := rfl
@[simp] theorem State.modStack_causeway (s : State) (i : Nat) (f : Stack → Stack) : (s.modStack i f).causeway = s.causeway := rfl
@[simp] theorem State.modStack_snap (s : State) (i : Nat) (f : Stack → Stack) : (s.modStack i f).snap = s.snap := rfl
@[simp] theorem State.modStack_snapWait (s : State) (i : Nat) (f : Stack → Stack) : (s.modStack i f).snapWait = s.snapWait := rfl
@[simp] theorem State.modStack_rails (s : State) (i : Nat) (f : Stack → Stack) : (s.modStack i f).rails = s.rails := rfl
@[simp] theorem State.modStack_freeCtr (s : State) (i : Nat) (f : Stack → Stack) : (s.modStack i f).freeCtr = s.freeCtr := rfl
@[simp] theorem State.modStack_out (s : State) (i : Nat) (f : Stack → Stack) : (s.modStack i f).out = s.out := rfl
@[simp] theorem State.modStack_reed_unit (s : State) (i : Nat) (f : Stack → Stack) (k : Nat) : (s.modStack i f).reed k = s.reed k := rfl
@[simp] theorem State.modStack_tus1_unit (s : State) (i : Nat) (f : Stack → Stack) (k : Nat) : (s.modStack i f).tus1 k = s.tus1 k := rfl
@[simp] theorem State.modStack_part_unit (s : State) (i : Nat) (f : Stack → Stack) (k : Nat) : (s.modStack i f).part k = s.part k := rfl
@[simp] theorem State.modStack_port_unit (s : State) (i : Nat) (f : Stack → Stack) (k : Nat) : (s.modStack i f).port k = s.port k := rfl
@[simp] theorem State.modStack_lode_unit (s : State) (i : Nat) (f : Stack → Stack) (k : Nat) : (s.modStack i f).lode k = s.lode k := rfl
@[simp] theorem State.modStack_fen_unit (s : State) (i : Nat) (f : Stack → Stack) (k : Nat) : (s.modStack i f).fen k = s.fen k := rfl
@[simp] theorem State.modStack_get (s : State) (i : Nat) (f : Stack → Stack) (j b : Nat) : (s.modStack i f).get j b = s.get j b := rfl

/-! State.modPart changes a partition. -/

@[simp] theorem State.modPart_pending (s : State) (p : Nat) (f : Part → Part) : (s.modPart p f).pending = s.pending := rfl
@[simp] theorem State.modPart_reeds (s : State) (p : Nat) (f : Part → Part) : (s.modPart p f).reeds = s.reeds := rfl
@[simp] theorem State.modPart_tus (s : State) (p : Nat) (f : Part → Part) : (s.modPart p f).tus = s.tus := rfl
@[simp] theorem State.modPart_stacks (s : State) (p : Nat) (f : Part → Part) : (s.modPart p f).hbmStacks = s.hbmStacks := rfl
@[simp] theorem State.modPart_halves (s : State) (p : Nat) (f : Part → Part) : (s.modPart p f).halves = s.halves := rfl
@[simp] theorem State.modPart_sump (s : State) (p : Nat) (f : Part → Part) : (s.modPart p f).sump = s.sump := rfl
@[simp] theorem State.modPart_groups (s : State) (p : Nat) (f : Part → Part) : (s.modPart p f).groups = s.groups := rfl
@[simp] theorem State.modPart_mesh (s : State) (p : Nat) (f : Part → Part) : (s.modPart p f).mesh = s.mesh := rfl
@[simp] theorem State.modPart_arbs (s : State) (p : Nat) (f : Part → Part) : (s.modPart p f).arbs = s.arbs := rfl
@[simp] theorem State.modPart_rillq (s : State) (p : Nat) (f : Part → Part) : (s.modPart p f).rillq = s.rillq := rfl
@[simp] theorem State.modPart_xfers (s : State) (p : Nat) (f : Part → Part) : (s.modPart p f).xfers = s.xfers := rfl
@[simp] theorem State.modPart_nextXfer (s : State) (p : Nat) (f : Part → Part) : (s.modPart p f).nextXfer = s.nextXfer := rfl
@[simp] theorem State.modPart_board (s : State) (p : Nat) (f : Part → Part) : (s.modPart p f).board = s.board := rfl
@[simp] theorem State.modPart_retries (s : State) (p : Nat) (f : Part → Part) : (s.modPart p f).retries = s.retries := rfl
@[simp] theorem State.modPart_ports (s : State) (p : Nat) (f : Part → Part) : (s.modPart p f).ports = s.ports := rfl
@[simp] theorem State.modPart_lodes (s : State) (p : Nat) (f : Part → Part) : (s.modPart p f).lodes = s.lodes := rfl
@[simp] theorem State.modPart_mcasts (s : State) (p : Nat) (f : Part → Part) : (s.modPart p f).mcasts = s.mcasts := rfl
@[simp] theorem State.modPart_nextMcast (s : State) (p : Nat) (f : Part → Part) : (s.modPart p f).nextMcast = s.nextMcast := rfl
@[simp] theorem State.modPart_mire (s : State) (p : Nat) (f : Part → Part) : (s.modPart p f).mire = s.mire := rfl
@[simp] theorem State.modPart_power (s : State) (p : Nat) (f : Part → Part) : (s.modPart p f).power = s.power := rfl
@[simp] theorem State.modPart_log (s : State) (p : Nat) (f : Part → Part) : (s.modPart p f).log = s.log := rfl
@[simp] theorem State.modPart_dict (s : State) (p : Nat) (f : Part → Part) : (s.modPart p f).dict = s.dict := rfl
@[simp] theorem State.modPart_changes (s : State) (p : Nat) (f : Part → Part) : (s.modPart p f).changes = s.changes := rfl
@[simp] theorem State.modPart_sedge (s : State) (p : Nat) (f : Part → Part) : (s.modPart p f).sedge = s.sedge := rfl
@[simp] theorem State.modPart_tap (s : State) (p : Nat) (f : Part → Part) : (s.modPart p f).tap = s.tap := rfl
@[simp] theorem State.modPart_fens (s : State) (p : Nat) (f : Part → Part) : (s.modPart p f).fens = s.fens := rfl
@[simp] theorem State.modPart_slots (s : State) (p : Nat) (f : Part → Part) : (s.modPart p f).slots = s.slots := rfl
@[simp] theorem State.modPart_bootSlot (s : State) (p : Nat) (f : Part → Part) : (s.modPart p f).bootSlot = s.bootSlot := rfl
@[simp] theorem State.modPart_ccSlot (s : State) (p : Nat) (f : Part → Part) : (s.modPart p f).ccSlot = s.ccSlot := rfl
@[simp] theorem State.modPart_fuses (s : State) (p : Nat) (f : Part → Part) : (s.modPart p f).fuses = s.fuses := rfl
@[simp] theorem State.modPart_boardRec (s : State) (p : Nat) (f : Part → Part) : (s.modPart p f).boardRec = s.boardRec := rfl
@[simp] theorem State.modPart_boot (s : State) (p : Nat) (f : Part → Part) : (s.modPart p f).boot = s.boot := rfl
@[simp] theorem State.modPart_boardOut (s : State) (p : Nat) (f : Part → Part) : (s.modPart p f).boardOut = s.boardOut := rfl
@[simp] theorem State.modPart_oos (s : State) (p : Nat) (f : Part → Part) : (s.modPart p f).oos = s.oos := rfl
@[simp] theorem State.modPart_retest (s : State) (p : Nat) (f : Part → Part) : (s.modPart p f).retest = s.retest := rfl
@[simp] theorem State.modPart_oosFlash (s : State) (p : Nat) (f : Part → Part) : (s.modPart p f).oosFlash = s.oosFlash := rfl
@[simp] theorem State.modPart_crash (s : State) (p : Nat) (f : Part → Part) : (s.modPart p f).crash = s.crash := rfl
@[simp] theorem State.modPart_throttled (s : State) (p : Nat) (f : Part → Part) : (s.modPart p f).throttled = s.throttled := rfl
@[simp] theorem State.modPart_timeBase (s : State) (p : Nat) (f : Part → Part) : (s.modPart p f).timeBase = s.timeBase := rfl
@[simp] theorem State.modPart_causeway (s : State) (p : Nat) (f : Part → Part) : (s.modPart p f).causeway = s.causeway := rfl
@[simp] theorem State.modPart_snap (s : State) (p : Nat) (f : Part → Part) : (s.modPart p f).snap = s.snap := rfl
@[simp] theorem State.modPart_snapWait (s : State) (p : Nat) (f : Part → Part) : (s.modPart p f).snapWait = s.snapWait := rfl
@[simp] theorem State.modPart_rails (s : State) (p : Nat) (f : Part → Part) : (s.modPart p f).rails = s.rails := rfl
@[simp] theorem State.modPart_freeCtr (s : State) (p : Nat) (f : Part → Part) : (s.modPart p f).freeCtr = s.freeCtr := rfl
@[simp] theorem State.modPart_out (s : State) (p : Nat) (f : Part → Part) : (s.modPart p f).out = s.out := rfl
@[simp] theorem State.modPart_reed_unit (s : State) (p : Nat) (f : Part → Part) (k : Nat) : (s.modPart p f).reed k = s.reed k := rfl
@[simp] theorem State.modPart_tus1_unit (s : State) (p : Nat) (f : Part → Part) (k : Nat) : (s.modPart p f).tus1 k = s.tus1 k := rfl
@[simp] theorem State.modPart_stack_unit (s : State) (p : Nat) (f : Part → Part) (k : Nat) : (s.modPart p f).stack k = s.stack k := rfl
@[simp] theorem State.modPart_port_unit (s : State) (p : Nat) (f : Part → Part) (k : Nat) : (s.modPart p f).port k = s.port k := rfl
@[simp] theorem State.modPart_lode_unit (s : State) (p : Nat) (f : Part → Part) (k : Nat) : (s.modPart p f).lode k = s.lode k := rfl
@[simp] theorem State.modPart_fen_unit (s : State) (p : Nat) (f : Part → Part) (k : Nat) : (s.modPart p f).fen k = s.fen k := rfl
@[simp] theorem State.modPart_get (s : State) (p : Nat) (f : Part → Part) (j b : Nat) : (s.modPart p f).get j b = s.get j b := rfl

/-! State.modPort changes a port. -/

@[simp] theorem State.modPort_pending (s : State) (q : Nat) (f : Port → Port) : (s.modPort q f).pending = s.pending := rfl
@[simp] theorem State.modPort_reeds (s : State) (q : Nat) (f : Port → Port) : (s.modPort q f).reeds = s.reeds := rfl
@[simp] theorem State.modPort_tus (s : State) (q : Nat) (f : Port → Port) : (s.modPort q f).tus = s.tus := rfl
@[simp] theorem State.modPort_stacks (s : State) (q : Nat) (f : Port → Port) : (s.modPort q f).hbmStacks = s.hbmStacks := rfl
@[simp] theorem State.modPort_halves (s : State) (q : Nat) (f : Port → Port) : (s.modPort q f).halves = s.halves := rfl
@[simp] theorem State.modPort_sump (s : State) (q : Nat) (f : Port → Port) : (s.modPort q f).sump = s.sump := rfl
@[simp] theorem State.modPort_groups (s : State) (q : Nat) (f : Port → Port) : (s.modPort q f).groups = s.groups := rfl
@[simp] theorem State.modPort_mesh (s : State) (q : Nat) (f : Port → Port) : (s.modPort q f).mesh = s.mesh := rfl
@[simp] theorem State.modPort_arbs (s : State) (q : Nat) (f : Port → Port) : (s.modPort q f).arbs = s.arbs := rfl
@[simp] theorem State.modPort_rillq (s : State) (q : Nat) (f : Port → Port) : (s.modPort q f).rillq = s.rillq := rfl
@[simp] theorem State.modPort_xfers (s : State) (q : Nat) (f : Port → Port) : (s.modPort q f).xfers = s.xfers := rfl
@[simp] theorem State.modPort_nextXfer (s : State) (q : Nat) (f : Port → Port) : (s.modPort q f).nextXfer = s.nextXfer := rfl
@[simp] theorem State.modPort_board (s : State) (q : Nat) (f : Port → Port) : (s.modPort q f).board = s.board := rfl
@[simp] theorem State.modPort_retries (s : State) (q : Nat) (f : Port → Port) : (s.modPort q f).retries = s.retries := rfl
@[simp] theorem State.modPort_parts (s : State) (q : Nat) (f : Port → Port) : (s.modPort q f).parts = s.parts := rfl
@[simp] theorem State.modPort_lodes (s : State) (q : Nat) (f : Port → Port) : (s.modPort q f).lodes = s.lodes := rfl
@[simp] theorem State.modPort_mcasts (s : State) (q : Nat) (f : Port → Port) : (s.modPort q f).mcasts = s.mcasts := rfl
@[simp] theorem State.modPort_nextMcast (s : State) (q : Nat) (f : Port → Port) : (s.modPort q f).nextMcast = s.nextMcast := rfl
@[simp] theorem State.modPort_mire (s : State) (q : Nat) (f : Port → Port) : (s.modPort q f).mire = s.mire := rfl
@[simp] theorem State.modPort_power (s : State) (q : Nat) (f : Port → Port) : (s.modPort q f).power = s.power := rfl
@[simp] theorem State.modPort_log (s : State) (q : Nat) (f : Port → Port) : (s.modPort q f).log = s.log := rfl
@[simp] theorem State.modPort_dict (s : State) (q : Nat) (f : Port → Port) : (s.modPort q f).dict = s.dict := rfl
@[simp] theorem State.modPort_changes (s : State) (q : Nat) (f : Port → Port) : (s.modPort q f).changes = s.changes := rfl
@[simp] theorem State.modPort_sedge (s : State) (q : Nat) (f : Port → Port) : (s.modPort q f).sedge = s.sedge := rfl
@[simp] theorem State.modPort_tap (s : State) (q : Nat) (f : Port → Port) : (s.modPort q f).tap = s.tap := rfl
@[simp] theorem State.modPort_fens (s : State) (q : Nat) (f : Port → Port) : (s.modPort q f).fens = s.fens := rfl
@[simp] theorem State.modPort_slots (s : State) (q : Nat) (f : Port → Port) : (s.modPort q f).slots = s.slots := rfl
@[simp] theorem State.modPort_bootSlot (s : State) (q : Nat) (f : Port → Port) : (s.modPort q f).bootSlot = s.bootSlot := rfl
@[simp] theorem State.modPort_ccSlot (s : State) (q : Nat) (f : Port → Port) : (s.modPort q f).ccSlot = s.ccSlot := rfl
@[simp] theorem State.modPort_fuses (s : State) (q : Nat) (f : Port → Port) : (s.modPort q f).fuses = s.fuses := rfl
@[simp] theorem State.modPort_boardRec (s : State) (q : Nat) (f : Port → Port) : (s.modPort q f).boardRec = s.boardRec := rfl
@[simp] theorem State.modPort_boot (s : State) (q : Nat) (f : Port → Port) : (s.modPort q f).boot = s.boot := rfl
@[simp] theorem State.modPort_boardOut (s : State) (q : Nat) (f : Port → Port) : (s.modPort q f).boardOut = s.boardOut := rfl
@[simp] theorem State.modPort_oos (s : State) (q : Nat) (f : Port → Port) : (s.modPort q f).oos = s.oos := rfl
@[simp] theorem State.modPort_retest (s : State) (q : Nat) (f : Port → Port) : (s.modPort q f).retest = s.retest := rfl
@[simp] theorem State.modPort_oosFlash (s : State) (q : Nat) (f : Port → Port) : (s.modPort q f).oosFlash = s.oosFlash := rfl
@[simp] theorem State.modPort_crash (s : State) (q : Nat) (f : Port → Port) : (s.modPort q f).crash = s.crash := rfl
@[simp] theorem State.modPort_throttled (s : State) (q : Nat) (f : Port → Port) : (s.modPort q f).throttled = s.throttled := rfl
@[simp] theorem State.modPort_timeBase (s : State) (q : Nat) (f : Port → Port) : (s.modPort q f).timeBase = s.timeBase := rfl
@[simp] theorem State.modPort_causeway (s : State) (q : Nat) (f : Port → Port) : (s.modPort q f).causeway = s.causeway := rfl
@[simp] theorem State.modPort_snap (s : State) (q : Nat) (f : Port → Port) : (s.modPort q f).snap = s.snap := rfl
@[simp] theorem State.modPort_snapWait (s : State) (q : Nat) (f : Port → Port) : (s.modPort q f).snapWait = s.snapWait := rfl
@[simp] theorem State.modPort_rails (s : State) (q : Nat) (f : Port → Port) : (s.modPort q f).rails = s.rails := rfl
@[simp] theorem State.modPort_freeCtr (s : State) (q : Nat) (f : Port → Port) : (s.modPort q f).freeCtr = s.freeCtr := rfl
@[simp] theorem State.modPort_out (s : State) (q : Nat) (f : Port → Port) : (s.modPort q f).out = s.out := rfl
@[simp] theorem State.modPort_reed_unit (s : State) (q : Nat) (f : Port → Port) (k : Nat) : (s.modPort q f).reed k = s.reed k := rfl
@[simp] theorem State.modPort_tus1_unit (s : State) (q : Nat) (f : Port → Port) (k : Nat) : (s.modPort q f).tus1 k = s.tus1 k := rfl
@[simp] theorem State.modPort_stack_unit (s : State) (q : Nat) (f : Port → Port) (k : Nat) : (s.modPort q f).stack k = s.stack k := rfl
@[simp] theorem State.modPort_part_unit (s : State) (q : Nat) (f : Port → Port) (k : Nat) : (s.modPort q f).part k = s.part k := rfl
@[simp] theorem State.modPort_lode_unit (s : State) (q : Nat) (f : Port → Port) (k : Nat) : (s.modPort q f).lode k = s.lode k := rfl
@[simp] theorem State.modPort_fen_unit (s : State) (q : Nat) (f : Port → Port) (k : Nat) : (s.modPort q f).fen k = s.fen k := rfl
@[simp] theorem State.modPort_get (s : State) (q : Nat) (f : Port → Port) (j b : Nat) : (s.modPort q f).get j b = s.get j b := rfl

/-! State.modLode changes a lode. -/

@[simp] theorem State.modLode_pending (s : State) (n : Nat) (f : Lode → Lode) : (s.modLode n f).pending = s.pending := rfl
@[simp] theorem State.modLode_reeds (s : State) (n : Nat) (f : Lode → Lode) : (s.modLode n f).reeds = s.reeds := rfl
@[simp] theorem State.modLode_tus (s : State) (n : Nat) (f : Lode → Lode) : (s.modLode n f).tus = s.tus := rfl
@[simp] theorem State.modLode_stacks (s : State) (n : Nat) (f : Lode → Lode) : (s.modLode n f).hbmStacks = s.hbmStacks := rfl
@[simp] theorem State.modLode_halves (s : State) (n : Nat) (f : Lode → Lode) : (s.modLode n f).halves = s.halves := rfl
@[simp] theorem State.modLode_sump (s : State) (n : Nat) (f : Lode → Lode) : (s.modLode n f).sump = s.sump := rfl
@[simp] theorem State.modLode_groups (s : State) (n : Nat) (f : Lode → Lode) : (s.modLode n f).groups = s.groups := rfl
@[simp] theorem State.modLode_mesh (s : State) (n : Nat) (f : Lode → Lode) : (s.modLode n f).mesh = s.mesh := rfl
@[simp] theorem State.modLode_arbs (s : State) (n : Nat) (f : Lode → Lode) : (s.modLode n f).arbs = s.arbs := rfl
@[simp] theorem State.modLode_rillq (s : State) (n : Nat) (f : Lode → Lode) : (s.modLode n f).rillq = s.rillq := rfl
@[simp] theorem State.modLode_xfers (s : State) (n : Nat) (f : Lode → Lode) : (s.modLode n f).xfers = s.xfers := rfl
@[simp] theorem State.modLode_nextXfer (s : State) (n : Nat) (f : Lode → Lode) : (s.modLode n f).nextXfer = s.nextXfer := rfl
@[simp] theorem State.modLode_board (s : State) (n : Nat) (f : Lode → Lode) : (s.modLode n f).board = s.board := rfl
@[simp] theorem State.modLode_retries (s : State) (n : Nat) (f : Lode → Lode) : (s.modLode n f).retries = s.retries := rfl
@[simp] theorem State.modLode_parts (s : State) (n : Nat) (f : Lode → Lode) : (s.modLode n f).parts = s.parts := rfl
@[simp] theorem State.modLode_ports (s : State) (n : Nat) (f : Lode → Lode) : (s.modLode n f).ports = s.ports := rfl
@[simp] theorem State.modLode_mcasts (s : State) (n : Nat) (f : Lode → Lode) : (s.modLode n f).mcasts = s.mcasts := rfl
@[simp] theorem State.modLode_nextMcast (s : State) (n : Nat) (f : Lode → Lode) : (s.modLode n f).nextMcast = s.nextMcast := rfl
@[simp] theorem State.modLode_mire (s : State) (n : Nat) (f : Lode → Lode) : (s.modLode n f).mire = s.mire := rfl
@[simp] theorem State.modLode_power (s : State) (n : Nat) (f : Lode → Lode) : (s.modLode n f).power = s.power := rfl
@[simp] theorem State.modLode_log (s : State) (n : Nat) (f : Lode → Lode) : (s.modLode n f).log = s.log := rfl
@[simp] theorem State.modLode_dict (s : State) (n : Nat) (f : Lode → Lode) : (s.modLode n f).dict = s.dict := rfl
@[simp] theorem State.modLode_changes (s : State) (n : Nat) (f : Lode → Lode) : (s.modLode n f).changes = s.changes := rfl
@[simp] theorem State.modLode_sedge (s : State) (n : Nat) (f : Lode → Lode) : (s.modLode n f).sedge = s.sedge := rfl
@[simp] theorem State.modLode_tap (s : State) (n : Nat) (f : Lode → Lode) : (s.modLode n f).tap = s.tap := rfl
@[simp] theorem State.modLode_fens (s : State) (n : Nat) (f : Lode → Lode) : (s.modLode n f).fens = s.fens := rfl
@[simp] theorem State.modLode_slots (s : State) (n : Nat) (f : Lode → Lode) : (s.modLode n f).slots = s.slots := rfl
@[simp] theorem State.modLode_bootSlot (s : State) (n : Nat) (f : Lode → Lode) : (s.modLode n f).bootSlot = s.bootSlot := rfl
@[simp] theorem State.modLode_ccSlot (s : State) (n : Nat) (f : Lode → Lode) : (s.modLode n f).ccSlot = s.ccSlot := rfl
@[simp] theorem State.modLode_fuses (s : State) (n : Nat) (f : Lode → Lode) : (s.modLode n f).fuses = s.fuses := rfl
@[simp] theorem State.modLode_boardRec (s : State) (n : Nat) (f : Lode → Lode) : (s.modLode n f).boardRec = s.boardRec := rfl
@[simp] theorem State.modLode_boot (s : State) (n : Nat) (f : Lode → Lode) : (s.modLode n f).boot = s.boot := rfl
@[simp] theorem State.modLode_boardOut (s : State) (n : Nat) (f : Lode → Lode) : (s.modLode n f).boardOut = s.boardOut := rfl
@[simp] theorem State.modLode_oos (s : State) (n : Nat) (f : Lode → Lode) : (s.modLode n f).oos = s.oos := rfl
@[simp] theorem State.modLode_retest (s : State) (n : Nat) (f : Lode → Lode) : (s.modLode n f).retest = s.retest := rfl
@[simp] theorem State.modLode_oosFlash (s : State) (n : Nat) (f : Lode → Lode) : (s.modLode n f).oosFlash = s.oosFlash := rfl
@[simp] theorem State.modLode_crash (s : State) (n : Nat) (f : Lode → Lode) : (s.modLode n f).crash = s.crash := rfl
@[simp] theorem State.modLode_throttled (s : State) (n : Nat) (f : Lode → Lode) : (s.modLode n f).throttled = s.throttled := rfl
@[simp] theorem State.modLode_timeBase (s : State) (n : Nat) (f : Lode → Lode) : (s.modLode n f).timeBase = s.timeBase := rfl
@[simp] theorem State.modLode_causeway (s : State) (n : Nat) (f : Lode → Lode) : (s.modLode n f).causeway = s.causeway := rfl
@[simp] theorem State.modLode_snap (s : State) (n : Nat) (f : Lode → Lode) : (s.modLode n f).snap = s.snap := rfl
@[simp] theorem State.modLode_snapWait (s : State) (n : Nat) (f : Lode → Lode) : (s.modLode n f).snapWait = s.snapWait := rfl
@[simp] theorem State.modLode_rails (s : State) (n : Nat) (f : Lode → Lode) : (s.modLode n f).rails = s.rails := rfl
@[simp] theorem State.modLode_freeCtr (s : State) (n : Nat) (f : Lode → Lode) : (s.modLode n f).freeCtr = s.freeCtr := rfl
@[simp] theorem State.modLode_out (s : State) (n : Nat) (f : Lode → Lode) : (s.modLode n f).out = s.out := rfl
@[simp] theorem State.modLode_reed_unit (s : State) (n : Nat) (f : Lode → Lode) (k : Nat) : (s.modLode n f).reed k = s.reed k := rfl
@[simp] theorem State.modLode_tus1_unit (s : State) (n : Nat) (f : Lode → Lode) (k : Nat) : (s.modLode n f).tus1 k = s.tus1 k := rfl
@[simp] theorem State.modLode_stack_unit (s : State) (n : Nat) (f : Lode → Lode) (k : Nat) : (s.modLode n f).stack k = s.stack k := rfl
@[simp] theorem State.modLode_part_unit (s : State) (n : Nat) (f : Lode → Lode) (k : Nat) : (s.modLode n f).part k = s.part k := rfl
@[simp] theorem State.modLode_port_unit (s : State) (n : Nat) (f : Lode → Lode) (k : Nat) : (s.modLode n f).port k = s.port k := rfl
@[simp] theorem State.modLode_fen_unit (s : State) (n : Nat) (f : Lode → Lode) (k : Nat) : (s.modLode n f).fen k = s.fen k := rfl
@[simp] theorem State.modLode_get (s : State) (n : Nat) (f : Lode → Lode) (j b : Nat) : (s.modLode n f).get j b = s.get j b := rfl

/-! State.modFen changes a fen. -/

@[simp] theorem State.modFen_pending (s : State) (n : Nat) (f : FenCtl → FenCtl) : (s.modFen n f).pending = s.pending := rfl
@[simp] theorem State.modFen_reeds (s : State) (n : Nat) (f : FenCtl → FenCtl) : (s.modFen n f).reeds = s.reeds := rfl
@[simp] theorem State.modFen_tus (s : State) (n : Nat) (f : FenCtl → FenCtl) : (s.modFen n f).tus = s.tus := rfl
@[simp] theorem State.modFen_stacks (s : State) (n : Nat) (f : FenCtl → FenCtl) : (s.modFen n f).hbmStacks = s.hbmStacks := rfl
@[simp] theorem State.modFen_halves (s : State) (n : Nat) (f : FenCtl → FenCtl) : (s.modFen n f).halves = s.halves := rfl
@[simp] theorem State.modFen_sump (s : State) (n : Nat) (f : FenCtl → FenCtl) : (s.modFen n f).sump = s.sump := rfl
@[simp] theorem State.modFen_groups (s : State) (n : Nat) (f : FenCtl → FenCtl) : (s.modFen n f).groups = s.groups := rfl
@[simp] theorem State.modFen_mesh (s : State) (n : Nat) (f : FenCtl → FenCtl) : (s.modFen n f).mesh = s.mesh := rfl
@[simp] theorem State.modFen_arbs (s : State) (n : Nat) (f : FenCtl → FenCtl) : (s.modFen n f).arbs = s.arbs := rfl
@[simp] theorem State.modFen_rillq (s : State) (n : Nat) (f : FenCtl → FenCtl) : (s.modFen n f).rillq = s.rillq := rfl
@[simp] theorem State.modFen_xfers (s : State) (n : Nat) (f : FenCtl → FenCtl) : (s.modFen n f).xfers = s.xfers := rfl
@[simp] theorem State.modFen_nextXfer (s : State) (n : Nat) (f : FenCtl → FenCtl) : (s.modFen n f).nextXfer = s.nextXfer := rfl
@[simp] theorem State.modFen_board (s : State) (n : Nat) (f : FenCtl → FenCtl) : (s.modFen n f).board = s.board := rfl
@[simp] theorem State.modFen_retries (s : State) (n : Nat) (f : FenCtl → FenCtl) : (s.modFen n f).retries = s.retries := rfl
@[simp] theorem State.modFen_parts (s : State) (n : Nat) (f : FenCtl → FenCtl) : (s.modFen n f).parts = s.parts := rfl
@[simp] theorem State.modFen_ports (s : State) (n : Nat) (f : FenCtl → FenCtl) : (s.modFen n f).ports = s.ports := rfl
@[simp] theorem State.modFen_lodes (s : State) (n : Nat) (f : FenCtl → FenCtl) : (s.modFen n f).lodes = s.lodes := rfl
@[simp] theorem State.modFen_mcasts (s : State) (n : Nat) (f : FenCtl → FenCtl) : (s.modFen n f).mcasts = s.mcasts := rfl
@[simp] theorem State.modFen_nextMcast (s : State) (n : Nat) (f : FenCtl → FenCtl) : (s.modFen n f).nextMcast = s.nextMcast := rfl
@[simp] theorem State.modFen_mire (s : State) (n : Nat) (f : FenCtl → FenCtl) : (s.modFen n f).mire = s.mire := rfl
@[simp] theorem State.modFen_power (s : State) (n : Nat) (f : FenCtl → FenCtl) : (s.modFen n f).power = s.power := rfl
@[simp] theorem State.modFen_log (s : State) (n : Nat) (f : FenCtl → FenCtl) : (s.modFen n f).log = s.log := rfl
@[simp] theorem State.modFen_dict (s : State) (n : Nat) (f : FenCtl → FenCtl) : (s.modFen n f).dict = s.dict := rfl
@[simp] theorem State.modFen_changes (s : State) (n : Nat) (f : FenCtl → FenCtl) : (s.modFen n f).changes = s.changes := rfl
@[simp] theorem State.modFen_sedge (s : State) (n : Nat) (f : FenCtl → FenCtl) : (s.modFen n f).sedge = s.sedge := rfl
@[simp] theorem State.modFen_tap (s : State) (n : Nat) (f : FenCtl → FenCtl) : (s.modFen n f).tap = s.tap := rfl
@[simp] theorem State.modFen_slots (s : State) (n : Nat) (f : FenCtl → FenCtl) : (s.modFen n f).slots = s.slots := rfl
@[simp] theorem State.modFen_bootSlot (s : State) (n : Nat) (f : FenCtl → FenCtl) : (s.modFen n f).bootSlot = s.bootSlot := rfl
@[simp] theorem State.modFen_ccSlot (s : State) (n : Nat) (f : FenCtl → FenCtl) : (s.modFen n f).ccSlot = s.ccSlot := rfl
@[simp] theorem State.modFen_fuses (s : State) (n : Nat) (f : FenCtl → FenCtl) : (s.modFen n f).fuses = s.fuses := rfl
@[simp] theorem State.modFen_boardRec (s : State) (n : Nat) (f : FenCtl → FenCtl) : (s.modFen n f).boardRec = s.boardRec := rfl
@[simp] theorem State.modFen_boot (s : State) (n : Nat) (f : FenCtl → FenCtl) : (s.modFen n f).boot = s.boot := rfl
@[simp] theorem State.modFen_boardOut (s : State) (n : Nat) (f : FenCtl → FenCtl) : (s.modFen n f).boardOut = s.boardOut := rfl
@[simp] theorem State.modFen_oos (s : State) (n : Nat) (f : FenCtl → FenCtl) : (s.modFen n f).oos = s.oos := rfl
@[simp] theorem State.modFen_retest (s : State) (n : Nat) (f : FenCtl → FenCtl) : (s.modFen n f).retest = s.retest := rfl
@[simp] theorem State.modFen_oosFlash (s : State) (n : Nat) (f : FenCtl → FenCtl) : (s.modFen n f).oosFlash = s.oosFlash := rfl
@[simp] theorem State.modFen_crash (s : State) (n : Nat) (f : FenCtl → FenCtl) : (s.modFen n f).crash = s.crash := rfl
@[simp] theorem State.modFen_throttled (s : State) (n : Nat) (f : FenCtl → FenCtl) : (s.modFen n f).throttled = s.throttled := rfl
@[simp] theorem State.modFen_timeBase (s : State) (n : Nat) (f : FenCtl → FenCtl) : (s.modFen n f).timeBase = s.timeBase := rfl
@[simp] theorem State.modFen_causeway (s : State) (n : Nat) (f : FenCtl → FenCtl) : (s.modFen n f).causeway = s.causeway := rfl
@[simp] theorem State.modFen_snap (s : State) (n : Nat) (f : FenCtl → FenCtl) : (s.modFen n f).snap = s.snap := rfl
@[simp] theorem State.modFen_snapWait (s : State) (n : Nat) (f : FenCtl → FenCtl) : (s.modFen n f).snapWait = s.snapWait := rfl
@[simp] theorem State.modFen_rails (s : State) (n : Nat) (f : FenCtl → FenCtl) : (s.modFen n f).rails = s.rails := rfl
@[simp] theorem State.modFen_freeCtr (s : State) (n : Nat) (f : FenCtl → FenCtl) : (s.modFen n f).freeCtr = s.freeCtr := rfl
@[simp] theorem State.modFen_out (s : State) (n : Nat) (f : FenCtl → FenCtl) : (s.modFen n f).out = s.out := rfl
@[simp] theorem State.modFen_reed_unit (s : State) (n : Nat) (f : FenCtl → FenCtl) (k : Nat) : (s.modFen n f).reed k = s.reed k := rfl
@[simp] theorem State.modFen_tus1_unit (s : State) (n : Nat) (f : FenCtl → FenCtl) (k : Nat) : (s.modFen n f).tus1 k = s.tus1 k := rfl
@[simp] theorem State.modFen_stack_unit (s : State) (n : Nat) (f : FenCtl → FenCtl) (k : Nat) : (s.modFen n f).stack k = s.stack k := rfl
@[simp] theorem State.modFen_part_unit (s : State) (n : Nat) (f : FenCtl → FenCtl) (k : Nat) : (s.modFen n f).part k = s.part k := rfl
@[simp] theorem State.modFen_port_unit (s : State) (n : Nat) (f : FenCtl → FenCtl) (k : Nat) : (s.modFen n f).port k = s.port k := rfl
@[simp] theorem State.modFen_lode_unit (s : State) (n : Nat) (f : FenCtl → FenCtl) (k : Nat) : (s.modFen n f).lode k = s.lode k := rfl
@[simp] theorem State.modFen_get (s : State) (n : Nat) (f : FenCtl → FenCtl) (j b : Nat) : (s.modFen n f).get j b = s.get j b := rfl

/-! State.emit changes the output. -/

@[simp] theorem State.emit_pending (s : State) (o : Out) : (s.emit o).pending = s.pending := rfl
@[simp] theorem State.emit_reeds (s : State) (o : Out) : (s.emit o).reeds = s.reeds := rfl
@[simp] theorem State.emit_tus (s : State) (o : Out) : (s.emit o).tus = s.tus := rfl
@[simp] theorem State.emit_stacks (s : State) (o : Out) : (s.emit o).hbmStacks = s.hbmStacks := rfl
@[simp] theorem State.emit_halves (s : State) (o : Out) : (s.emit o).halves = s.halves := rfl
@[simp] theorem State.emit_sump (s : State) (o : Out) : (s.emit o).sump = s.sump := rfl
@[simp] theorem State.emit_groups (s : State) (o : Out) : (s.emit o).groups = s.groups := rfl
@[simp] theorem State.emit_mesh (s : State) (o : Out) : (s.emit o).mesh = s.mesh := rfl
@[simp] theorem State.emit_arbs (s : State) (o : Out) : (s.emit o).arbs = s.arbs := rfl
@[simp] theorem State.emit_rillq (s : State) (o : Out) : (s.emit o).rillq = s.rillq := rfl
@[simp] theorem State.emit_xfers (s : State) (o : Out) : (s.emit o).xfers = s.xfers := rfl
@[simp] theorem State.emit_nextXfer (s : State) (o : Out) : (s.emit o).nextXfer = s.nextXfer := rfl
@[simp] theorem State.emit_board (s : State) (o : Out) : (s.emit o).board = s.board := rfl
@[simp] theorem State.emit_retries (s : State) (o : Out) : (s.emit o).retries = s.retries := rfl
@[simp] theorem State.emit_parts (s : State) (o : Out) : (s.emit o).parts = s.parts := rfl
@[simp] theorem State.emit_ports (s : State) (o : Out) : (s.emit o).ports = s.ports := rfl
@[simp] theorem State.emit_lodes (s : State) (o : Out) : (s.emit o).lodes = s.lodes := rfl
@[simp] theorem State.emit_mcasts (s : State) (o : Out) : (s.emit o).mcasts = s.mcasts := rfl
@[simp] theorem State.emit_nextMcast (s : State) (o : Out) : (s.emit o).nextMcast = s.nextMcast := rfl
@[simp] theorem State.emit_mire (s : State) (o : Out) : (s.emit o).mire = s.mire := rfl
@[simp] theorem State.emit_power (s : State) (o : Out) : (s.emit o).power = s.power := rfl
@[simp] theorem State.emit_log (s : State) (o : Out) : (s.emit o).log = s.log := rfl
@[simp] theorem State.emit_dict (s : State) (o : Out) : (s.emit o).dict = s.dict := rfl
@[simp] theorem State.emit_changes (s : State) (o : Out) : (s.emit o).changes = s.changes := rfl
@[simp] theorem State.emit_sedge (s : State) (o : Out) : (s.emit o).sedge = s.sedge := rfl
@[simp] theorem State.emit_tap (s : State) (o : Out) : (s.emit o).tap = s.tap := rfl
@[simp] theorem State.emit_fens (s : State) (o : Out) : (s.emit o).fens = s.fens := rfl
@[simp] theorem State.emit_slots (s : State) (o : Out) : (s.emit o).slots = s.slots := rfl
@[simp] theorem State.emit_bootSlot (s : State) (o : Out) : (s.emit o).bootSlot = s.bootSlot := rfl
@[simp] theorem State.emit_ccSlot (s : State) (o : Out) : (s.emit o).ccSlot = s.ccSlot := rfl
@[simp] theorem State.emit_fuses (s : State) (o : Out) : (s.emit o).fuses = s.fuses := rfl
@[simp] theorem State.emit_boardRec (s : State) (o : Out) : (s.emit o).boardRec = s.boardRec := rfl
@[simp] theorem State.emit_boot (s : State) (o : Out) : (s.emit o).boot = s.boot := rfl
@[simp] theorem State.emit_boardOut (s : State) (o : Out) : (s.emit o).boardOut = s.boardOut := rfl
@[simp] theorem State.emit_oos (s : State) (o : Out) : (s.emit o).oos = s.oos := rfl
@[simp] theorem State.emit_retest (s : State) (o : Out) : (s.emit o).retest = s.retest := rfl
@[simp] theorem State.emit_oosFlash (s : State) (o : Out) : (s.emit o).oosFlash = s.oosFlash := rfl
@[simp] theorem State.emit_crash (s : State) (o : Out) : (s.emit o).crash = s.crash := rfl
@[simp] theorem State.emit_throttled (s : State) (o : Out) : (s.emit o).throttled = s.throttled := rfl
@[simp] theorem State.emit_timeBase (s : State) (o : Out) : (s.emit o).timeBase = s.timeBase := rfl
@[simp] theorem State.emit_causeway (s : State) (o : Out) : (s.emit o).causeway = s.causeway := rfl
@[simp] theorem State.emit_snap (s : State) (o : Out) : (s.emit o).snap = s.snap := rfl
@[simp] theorem State.emit_snapWait (s : State) (o : Out) : (s.emit o).snapWait = s.snapWait := rfl
@[simp] theorem State.emit_rails (s : State) (o : Out) : (s.emit o).rails = s.rails := rfl
@[simp] theorem State.emit_freeCtr (s : State) (o : Out) : (s.emit o).freeCtr = s.freeCtr := rfl
@[simp] theorem State.emit_reed_unit (s : State) (o : Out) (k : Nat) : (s.emit o).reed k = s.reed k := rfl
@[simp] theorem State.emit_tus1_unit (s : State) (o : Out) (k : Nat) : (s.emit o).tus1 k = s.tus1 k := rfl
@[simp] theorem State.emit_stack_unit (s : State) (o : Out) (k : Nat) : (s.emit o).stack k = s.stack k := rfl
@[simp] theorem State.emit_part_unit (s : State) (o : Out) (k : Nat) : (s.emit o).part k = s.part k := rfl
@[simp] theorem State.emit_port_unit (s : State) (o : Out) (k : Nat) : (s.emit o).port k = s.port k := rfl
@[simp] theorem State.emit_lode_unit (s : State) (o : Out) (k : Nat) : (s.emit o).lode k = s.lode k := rfl
@[simp] theorem State.emit_fen_unit (s : State) (o : Out) (k : Nat) : (s.emit o).fen k = s.fen k := rfl
@[simp] theorem State.emit_get (s : State) (o : Out) (j b : Nat) : (s.emit o).get j b = s.get j b := rfl

/-! State.set changes an entry of the dictionary. -/

@[simp] theorem State.set_pending (s : State) (i sub v : Nat) : (s.set i sub v).pending = s.pending := rfl
@[simp] theorem State.set_reeds (s : State) (i sub v : Nat) : (s.set i sub v).reeds = s.reeds := rfl
@[simp] theorem State.set_tus (s : State) (i sub v : Nat) : (s.set i sub v).tus = s.tus := rfl
@[simp] theorem State.set_stacks (s : State) (i sub v : Nat) : (s.set i sub v).hbmStacks = s.hbmStacks := rfl
@[simp] theorem State.set_halves (s : State) (i sub v : Nat) : (s.set i sub v).halves = s.halves := rfl
@[simp] theorem State.set_sump (s : State) (i sub v : Nat) : (s.set i sub v).sump = s.sump := rfl
@[simp] theorem State.set_groups (s : State) (i sub v : Nat) : (s.set i sub v).groups = s.groups := rfl
@[simp] theorem State.set_mesh (s : State) (i sub v : Nat) : (s.set i sub v).mesh = s.mesh := rfl
@[simp] theorem State.set_arbs (s : State) (i sub v : Nat) : (s.set i sub v).arbs = s.arbs := rfl
@[simp] theorem State.set_rillq (s : State) (i sub v : Nat) : (s.set i sub v).rillq = s.rillq := rfl
@[simp] theorem State.set_xfers (s : State) (i sub v : Nat) : (s.set i sub v).xfers = s.xfers := rfl
@[simp] theorem State.set_nextXfer (s : State) (i sub v : Nat) : (s.set i sub v).nextXfer = s.nextXfer := rfl
@[simp] theorem State.set_board (s : State) (i sub v : Nat) : (s.set i sub v).board = s.board := rfl
@[simp] theorem State.set_retries (s : State) (i sub v : Nat) : (s.set i sub v).retries = s.retries := rfl
@[simp] theorem State.set_parts (s : State) (i sub v : Nat) : (s.set i sub v).parts = s.parts := rfl
@[simp] theorem State.set_ports (s : State) (i sub v : Nat) : (s.set i sub v).ports = s.ports := rfl
@[simp] theorem State.set_lodes (s : State) (i sub v : Nat) : (s.set i sub v).lodes = s.lodes := rfl
@[simp] theorem State.set_mcasts (s : State) (i sub v : Nat) : (s.set i sub v).mcasts = s.mcasts := rfl
@[simp] theorem State.set_nextMcast (s : State) (i sub v : Nat) : (s.set i sub v).nextMcast = s.nextMcast := rfl
@[simp] theorem State.set_mire (s : State) (i sub v : Nat) : (s.set i sub v).mire = s.mire := rfl
@[simp] theorem State.set_power (s : State) (i sub v : Nat) : (s.set i sub v).power = s.power := rfl
@[simp] theorem State.set_log (s : State) (i sub v : Nat) : (s.set i sub v).log = s.log := rfl
@[simp] theorem State.set_changes (s : State) (i sub v : Nat) : (s.set i sub v).changes = s.changes := rfl
@[simp] theorem State.set_sedge (s : State) (i sub v : Nat) : (s.set i sub v).sedge = s.sedge := rfl
@[simp] theorem State.set_tap (s : State) (i sub v : Nat) : (s.set i sub v).tap = s.tap := rfl
@[simp] theorem State.set_fens (s : State) (i sub v : Nat) : (s.set i sub v).fens = s.fens := rfl
@[simp] theorem State.set_slots (s : State) (i sub v : Nat) : (s.set i sub v).slots = s.slots := rfl
@[simp] theorem State.set_bootSlot (s : State) (i sub v : Nat) : (s.set i sub v).bootSlot = s.bootSlot := rfl
@[simp] theorem State.set_ccSlot (s : State) (i sub v : Nat) : (s.set i sub v).ccSlot = s.ccSlot := rfl
@[simp] theorem State.set_fuses (s : State) (i sub v : Nat) : (s.set i sub v).fuses = s.fuses := rfl
@[simp] theorem State.set_boardRec (s : State) (i sub v : Nat) : (s.set i sub v).boardRec = s.boardRec := rfl
@[simp] theorem State.set_boot (s : State) (i sub v : Nat) : (s.set i sub v).boot = s.boot := rfl
@[simp] theorem State.set_boardOut (s : State) (i sub v : Nat) : (s.set i sub v).boardOut = s.boardOut := rfl
@[simp] theorem State.set_oos (s : State) (i sub v : Nat) : (s.set i sub v).oos = s.oos := rfl
@[simp] theorem State.set_retest (s : State) (i sub v : Nat) : (s.set i sub v).retest = s.retest := rfl
@[simp] theorem State.set_oosFlash (s : State) (i sub v : Nat) : (s.set i sub v).oosFlash = s.oosFlash := rfl
@[simp] theorem State.set_crash (s : State) (i sub v : Nat) : (s.set i sub v).crash = s.crash := rfl
@[simp] theorem State.set_throttled (s : State) (i sub v : Nat) : (s.set i sub v).throttled = s.throttled := rfl
@[simp] theorem State.set_timeBase (s : State) (i sub v : Nat) : (s.set i sub v).timeBase = s.timeBase := rfl
@[simp] theorem State.set_causeway (s : State) (i sub v : Nat) : (s.set i sub v).causeway = s.causeway := rfl
@[simp] theorem State.set_snap (s : State) (i sub v : Nat) : (s.set i sub v).snap = s.snap := rfl
@[simp] theorem State.set_snapWait (s : State) (i sub v : Nat) : (s.set i sub v).snapWait = s.snapWait := rfl
@[simp] theorem State.set_rails (s : State) (i sub v : Nat) : (s.set i sub v).rails = s.rails := rfl
@[simp] theorem State.set_freeCtr (s : State) (i sub v : Nat) : (s.set i sub v).freeCtr = s.freeCtr := rfl
@[simp] theorem State.set_out (s : State) (i sub v : Nat) : (s.set i sub v).out = s.out := rfl
@[simp] theorem State.set_reed_unit (s : State) (i sub v : Nat) (k : Nat) : (s.set i sub v).reed k = s.reed k := rfl
@[simp] theorem State.set_tus1_unit (s : State) (i sub v : Nat) (k : Nat) : (s.set i sub v).tus1 k = s.tus1 k := rfl
@[simp] theorem State.set_stack_unit (s : State) (i sub v : Nat) (k : Nat) : (s.set i sub v).stack k = s.stack k := rfl
@[simp] theorem State.set_part_unit (s : State) (i sub v : Nat) (k : Nat) : (s.set i sub v).part k = s.part k := rfl
@[simp] theorem State.set_port_unit (s : State) (i sub v : Nat) (k : Nat) : (s.set i sub v).port k = s.port k := rfl
@[simp] theorem State.set_lode_unit (s : State) (i sub v : Nat) (k : Nat) : (s.set i sub v).lode k = s.lode k := rfl
@[simp] theorem State.set_fen_unit (s : State) (i sub v : Nat) (k : Nat) : (s.set i sub v).fen k = s.fen k := rfl

/-! State.bump changes a counter of the dictionary. -/

@[simp] theorem State.bump_pending (s : State) (i sub n : Nat) : (s.bump i sub n).pending = s.pending := rfl
@[simp] theorem State.bump_reeds (s : State) (i sub n : Nat) : (s.bump i sub n).reeds = s.reeds := rfl
@[simp] theorem State.bump_tus (s : State) (i sub n : Nat) : (s.bump i sub n).tus = s.tus := rfl
@[simp] theorem State.bump_stacks (s : State) (i sub n : Nat) : (s.bump i sub n).hbmStacks = s.hbmStacks := rfl
@[simp] theorem State.bump_halves (s : State) (i sub n : Nat) : (s.bump i sub n).halves = s.halves := rfl
@[simp] theorem State.bump_sump (s : State) (i sub n : Nat) : (s.bump i sub n).sump = s.sump := rfl
@[simp] theorem State.bump_groups (s : State) (i sub n : Nat) : (s.bump i sub n).groups = s.groups := rfl
@[simp] theorem State.bump_mesh (s : State) (i sub n : Nat) : (s.bump i sub n).mesh = s.mesh := rfl
@[simp] theorem State.bump_arbs (s : State) (i sub n : Nat) : (s.bump i sub n).arbs = s.arbs := rfl
@[simp] theorem State.bump_rillq (s : State) (i sub n : Nat) : (s.bump i sub n).rillq = s.rillq := rfl
@[simp] theorem State.bump_xfers (s : State) (i sub n : Nat) : (s.bump i sub n).xfers = s.xfers := rfl
@[simp] theorem State.bump_nextXfer (s : State) (i sub n : Nat) : (s.bump i sub n).nextXfer = s.nextXfer := rfl
@[simp] theorem State.bump_board (s : State) (i sub n : Nat) : (s.bump i sub n).board = s.board := rfl
@[simp] theorem State.bump_retries (s : State) (i sub n : Nat) : (s.bump i sub n).retries = s.retries := rfl
@[simp] theorem State.bump_parts (s : State) (i sub n : Nat) : (s.bump i sub n).parts = s.parts := rfl
@[simp] theorem State.bump_ports (s : State) (i sub n : Nat) : (s.bump i sub n).ports = s.ports := rfl
@[simp] theorem State.bump_lodes (s : State) (i sub n : Nat) : (s.bump i sub n).lodes = s.lodes := rfl
@[simp] theorem State.bump_mcasts (s : State) (i sub n : Nat) : (s.bump i sub n).mcasts = s.mcasts := rfl
@[simp] theorem State.bump_nextMcast (s : State) (i sub n : Nat) : (s.bump i sub n).nextMcast = s.nextMcast := rfl
@[simp] theorem State.bump_mire (s : State) (i sub n : Nat) : (s.bump i sub n).mire = s.mire := rfl
@[simp] theorem State.bump_power (s : State) (i sub n : Nat) : (s.bump i sub n).power = s.power := rfl
@[simp] theorem State.bump_log (s : State) (i sub n : Nat) : (s.bump i sub n).log = s.log := rfl
@[simp] theorem State.bump_changes (s : State) (i sub n : Nat) : (s.bump i sub n).changes = s.changes := rfl
@[simp] theorem State.bump_sedge (s : State) (i sub n : Nat) : (s.bump i sub n).sedge = s.sedge := rfl
@[simp] theorem State.bump_tap (s : State) (i sub n : Nat) : (s.bump i sub n).tap = s.tap := rfl
@[simp] theorem State.bump_fens (s : State) (i sub n : Nat) : (s.bump i sub n).fens = s.fens := rfl
@[simp] theorem State.bump_slots (s : State) (i sub n : Nat) : (s.bump i sub n).slots = s.slots := rfl
@[simp] theorem State.bump_bootSlot (s : State) (i sub n : Nat) : (s.bump i sub n).bootSlot = s.bootSlot := rfl
@[simp] theorem State.bump_ccSlot (s : State) (i sub n : Nat) : (s.bump i sub n).ccSlot = s.ccSlot := rfl
@[simp] theorem State.bump_fuses (s : State) (i sub n : Nat) : (s.bump i sub n).fuses = s.fuses := rfl
@[simp] theorem State.bump_boardRec (s : State) (i sub n : Nat) : (s.bump i sub n).boardRec = s.boardRec := rfl
@[simp] theorem State.bump_boot (s : State) (i sub n : Nat) : (s.bump i sub n).boot = s.boot := rfl
@[simp] theorem State.bump_boardOut (s : State) (i sub n : Nat) : (s.bump i sub n).boardOut = s.boardOut := rfl
@[simp] theorem State.bump_oos (s : State) (i sub n : Nat) : (s.bump i sub n).oos = s.oos := rfl
@[simp] theorem State.bump_retest (s : State) (i sub n : Nat) : (s.bump i sub n).retest = s.retest := rfl
@[simp] theorem State.bump_oosFlash (s : State) (i sub n : Nat) : (s.bump i sub n).oosFlash = s.oosFlash := rfl
@[simp] theorem State.bump_crash (s : State) (i sub n : Nat) : (s.bump i sub n).crash = s.crash := rfl
@[simp] theorem State.bump_throttled (s : State) (i sub n : Nat) : (s.bump i sub n).throttled = s.throttled := rfl
@[simp] theorem State.bump_timeBase (s : State) (i sub n : Nat) : (s.bump i sub n).timeBase = s.timeBase := rfl
@[simp] theorem State.bump_causeway (s : State) (i sub n : Nat) : (s.bump i sub n).causeway = s.causeway := rfl
@[simp] theorem State.bump_snap (s : State) (i sub n : Nat) : (s.bump i sub n).snap = s.snap := rfl
@[simp] theorem State.bump_snapWait (s : State) (i sub n : Nat) : (s.bump i sub n).snapWait = s.snapWait := rfl
@[simp] theorem State.bump_rails (s : State) (i sub n : Nat) : (s.bump i sub n).rails = s.rails := rfl
@[simp] theorem State.bump_freeCtr (s : State) (i sub n : Nat) : (s.bump i sub n).freeCtr = s.freeCtr := rfl
@[simp] theorem State.bump_out (s : State) (i sub n : Nat) : (s.bump i sub n).out = s.out := rfl
@[simp] theorem State.bump_reed_unit (s : State) (i sub n : Nat) (k : Nat) : (s.bump i sub n).reed k = s.reed k := rfl
@[simp] theorem State.bump_tus1_unit (s : State) (i sub n : Nat) (k : Nat) : (s.bump i sub n).tus1 k = s.tus1 k := rfl
@[simp] theorem State.bump_stack_unit (s : State) (i sub n : Nat) (k : Nat) : (s.bump i sub n).stack k = s.stack k := rfl
@[simp] theorem State.bump_part_unit (s : State) (i sub n : Nat) (k : Nat) : (s.bump i sub n).part k = s.part k := rfl
@[simp] theorem State.bump_port_unit (s : State) (i sub n : Nat) (k : Nat) : (s.bump i sub n).port k = s.port k := rfl
@[simp] theorem State.bump_lode_unit (s : State) (i sub n : Nat) (k : Nat) : (s.bump i sub n).lode k = s.lode k := rfl
@[simp] theorem State.bump_fen_unit (s : State) (i sub n : Nat) (k : Nat) : (s.bump i sub n).fen k = s.fen k := rfl

/-! State.rillSend changes a rill queue. -/

@[simp] theorem State.rillSend_pending (s : State) (m : RillMsg) : (s.rillSend m).pending = s.pending := rfl
@[simp] theorem State.rillSend_reeds (s : State) (m : RillMsg) : (s.rillSend m).reeds = s.reeds := rfl
@[simp] theorem State.rillSend_tus (s : State) (m : RillMsg) : (s.rillSend m).tus = s.tus := rfl
@[simp] theorem State.rillSend_stacks (s : State) (m : RillMsg) : (s.rillSend m).hbmStacks = s.hbmStacks := rfl
@[simp] theorem State.rillSend_halves (s : State) (m : RillMsg) : (s.rillSend m).halves = s.halves := rfl
@[simp] theorem State.rillSend_sump (s : State) (m : RillMsg) : (s.rillSend m).sump = s.sump := rfl
@[simp] theorem State.rillSend_groups (s : State) (m : RillMsg) : (s.rillSend m).groups = s.groups := rfl
@[simp] theorem State.rillSend_mesh (s : State) (m : RillMsg) : (s.rillSend m).mesh = s.mesh := rfl
@[simp] theorem State.rillSend_arbs (s : State) (m : RillMsg) : (s.rillSend m).arbs = s.arbs := rfl
@[simp] theorem State.rillSend_xfers (s : State) (m : RillMsg) : (s.rillSend m).xfers = s.xfers := rfl
@[simp] theorem State.rillSend_nextXfer (s : State) (m : RillMsg) : (s.rillSend m).nextXfer = s.nextXfer := rfl
@[simp] theorem State.rillSend_board (s : State) (m : RillMsg) : (s.rillSend m).board = s.board := rfl
@[simp] theorem State.rillSend_retries (s : State) (m : RillMsg) : (s.rillSend m).retries = s.retries := rfl
@[simp] theorem State.rillSend_parts (s : State) (m : RillMsg) : (s.rillSend m).parts = s.parts := rfl
@[simp] theorem State.rillSend_ports (s : State) (m : RillMsg) : (s.rillSend m).ports = s.ports := rfl
@[simp] theorem State.rillSend_lodes (s : State) (m : RillMsg) : (s.rillSend m).lodes = s.lodes := rfl
@[simp] theorem State.rillSend_mcasts (s : State) (m : RillMsg) : (s.rillSend m).mcasts = s.mcasts := rfl
@[simp] theorem State.rillSend_nextMcast (s : State) (m : RillMsg) : (s.rillSend m).nextMcast = s.nextMcast := rfl
@[simp] theorem State.rillSend_mire (s : State) (m : RillMsg) : (s.rillSend m).mire = s.mire := rfl
@[simp] theorem State.rillSend_power (s : State) (m : RillMsg) : (s.rillSend m).power = s.power := rfl
@[simp] theorem State.rillSend_log (s : State) (m : RillMsg) : (s.rillSend m).log = s.log := rfl
@[simp] theorem State.rillSend_dict (s : State) (m : RillMsg) : (s.rillSend m).dict = s.dict := rfl
@[simp] theorem State.rillSend_changes (s : State) (m : RillMsg) : (s.rillSend m).changes = s.changes := rfl
@[simp] theorem State.rillSend_sedge (s : State) (m : RillMsg) : (s.rillSend m).sedge = s.sedge := rfl
@[simp] theorem State.rillSend_tap (s : State) (m : RillMsg) : (s.rillSend m).tap = s.tap := rfl
@[simp] theorem State.rillSend_fens (s : State) (m : RillMsg) : (s.rillSend m).fens = s.fens := rfl
@[simp] theorem State.rillSend_slots (s : State) (m : RillMsg) : (s.rillSend m).slots = s.slots := rfl
@[simp] theorem State.rillSend_bootSlot (s : State) (m : RillMsg) : (s.rillSend m).bootSlot = s.bootSlot := rfl
@[simp] theorem State.rillSend_ccSlot (s : State) (m : RillMsg) : (s.rillSend m).ccSlot = s.ccSlot := rfl
@[simp] theorem State.rillSend_fuses (s : State) (m : RillMsg) : (s.rillSend m).fuses = s.fuses := rfl
@[simp] theorem State.rillSend_boardRec (s : State) (m : RillMsg) : (s.rillSend m).boardRec = s.boardRec := rfl
@[simp] theorem State.rillSend_boot (s : State) (m : RillMsg) : (s.rillSend m).boot = s.boot := rfl
@[simp] theorem State.rillSend_boardOut (s : State) (m : RillMsg) : (s.rillSend m).boardOut = s.boardOut := rfl
@[simp] theorem State.rillSend_oos (s : State) (m : RillMsg) : (s.rillSend m).oos = s.oos := rfl
@[simp] theorem State.rillSend_retest (s : State) (m : RillMsg) : (s.rillSend m).retest = s.retest := rfl
@[simp] theorem State.rillSend_oosFlash (s : State) (m : RillMsg) : (s.rillSend m).oosFlash = s.oosFlash := rfl
@[simp] theorem State.rillSend_crash (s : State) (m : RillMsg) : (s.rillSend m).crash = s.crash := rfl
@[simp] theorem State.rillSend_throttled (s : State) (m : RillMsg) : (s.rillSend m).throttled = s.throttled := rfl
@[simp] theorem State.rillSend_timeBase (s : State) (m : RillMsg) : (s.rillSend m).timeBase = s.timeBase := rfl
@[simp] theorem State.rillSend_causeway (s : State) (m : RillMsg) : (s.rillSend m).causeway = s.causeway := rfl
@[simp] theorem State.rillSend_snap (s : State) (m : RillMsg) : (s.rillSend m).snap = s.snap := rfl
@[simp] theorem State.rillSend_snapWait (s : State) (m : RillMsg) : (s.rillSend m).snapWait = s.snapWait := rfl
@[simp] theorem State.rillSend_rails (s : State) (m : RillMsg) : (s.rillSend m).rails = s.rails := rfl
@[simp] theorem State.rillSend_freeCtr (s : State) (m : RillMsg) : (s.rillSend m).freeCtr = s.freeCtr := rfl
@[simp] theorem State.rillSend_out (s : State) (m : RillMsg) : (s.rillSend m).out = s.out := rfl
@[simp] theorem State.rillSend_reed_unit (s : State) (m : RillMsg) (k : Nat) : (s.rillSend m).reed k = s.reed k := rfl
@[simp] theorem State.rillSend_tus1_unit (s : State) (m : RillMsg) (k : Nat) : (s.rillSend m).tus1 k = s.tus1 k := rfl
@[simp] theorem State.rillSend_stack_unit (s : State) (m : RillMsg) (k : Nat) : (s.rillSend m).stack k = s.stack k := rfl
@[simp] theorem State.rillSend_part_unit (s : State) (m : RillMsg) (k : Nat) : (s.rillSend m).part k = s.part k := rfl
@[simp] theorem State.rillSend_port_unit (s : State) (m : RillMsg) (k : Nat) : (s.rillSend m).port k = s.port k := rfl
@[simp] theorem State.rillSend_lode_unit (s : State) (m : RillMsg) (k : Nat) : (s.rillSend m).lode k = s.lode k := rfl
@[simp] theorem State.rillSend_fen_unit (s : State) (m : RillMsg) (k : Nat) : (s.rillSend m).fen k = s.fen k := rfl
@[simp] theorem State.rillSend_get (s : State) (m : RillMsg) (j b : Nat) : (s.rillSend m).get j b = s.get j b := rfl

/-! ### The canonical form of the memories -/

/-- Clearing bytes of a memory, as a range released to zero, keeps the canonical form. -/
theorem Mem.wf_filter (m : Mem) (p : Host.Cell → Bool) (h : Mem.wf m = true) : Mem.wf (m.filter p) = true := by
  have key : ∀ (m : Mem) (lo : Nat), Mem.above lo m = true → Mem.above lo (m.filter p) = true := by
    intro m
    induction m with
    | nil => intro lo _; rfl
    | cons e m ih =>
      obtain ⟨k, b⟩ := e
      intro lo h
      simp only [Mem.above, Bool.and_eq_true, decide_eq_true_eq] at h
      obtain ⟨⟨h1, h2⟩, h3⟩ := h
      simp only [List.filter_cons]
      split
      · simp only [Mem.above, Bool.and_eq_true, decide_eq_true_eq]
        exact ⟨⟨h1, h2⟩, ih _ h3⟩
      · exact Mem.above_mono _ _ _ (ih _ h3) (by omega)
  exact key m 0 h

/-- Writing bytes of a space keeps every memory in its canonical form. -/
theorem State.memWf_putBytes (s : State) (sp : Space) (a : Nat) (bs : List Byte) (h : s.memWf) : (s.putBytes sp a bs).memWf := by
  obtain ⟨h1, h2, h3⟩ := h
  cases sp with
  | spad r =>
    refine ⟨fun q => ?_, h2, h3⟩
    by_cases hq : q = r
    · subst hq; simpa [State.putBytes] using Mem.wf_write bs _ a (h1 q)
    · simpa [State.putBytes, State.reed_modReed_ne _ _ _ _ hq] using h1 q
  | pool t =>
    refine ⟨h1, fun q => ?_, h3⟩
    by_cases hq : q = t
    · subst hq; simpa [State.putBytes] using Mem.wf_write bs _ a (h2 q)
    · simpa [State.putBytes, State.tus1_modTus_ne _ _ _ _ hq] using h2 q
  | hbm i =>
    refine ⟨h1, h2, fun j => ?_⟩
    by_cases hj : j = i
    · subst hj; simpa [State.putBytes] using Mem.wf_write bs _ a (h3 j)
    · simpa [State.putBytes, State.modStack, State.stack, Tbl.lk_up_ne _ _ _ _ _ hj] using h3 j
  | board c => exact ⟨h1, h2, h3⟩
  | host c => exact ⟨h1, h2, h3⟩
  | window c => exact ⟨h1, h2, h3⟩

/-- Setting tags touches no memory. -/
theorem State.memWf_setTag (s : State) (sp : Space) (slot : Nat) (g : Tag) (h : s.memWf) : (s.setTag sp slot g).memWf := by
  obtain ⟨h1, h2, h3⟩ := h
  cases sp with
  | spad r =>
    refine ⟨fun q => ?_, h2, h3⟩
    by_cases hq : q = r
    · subst hq; simpa [State.setTag] using h1 q
    · simpa [State.setTag, State.reed_modReed_ne _ _ _ _ hq] using h1 q
  | pool t =>
    refine ⟨h1, fun q => ?_, h3⟩
    by_cases hq : q = t
    · subst hq; simpa [State.setTag] using h2 q
    · simpa [State.setTag, State.tus1_modTus_ne _ _ _ _ hq] using h2 q
  | hbm i => exact ⟨h1, h2, h3⟩
  | board c => exact ⟨h1, h2, h3⟩
  | host c => exact ⟨h1, h2, h3⟩
  | window c => exact ⟨h1, h2, h3⟩

/-- Every memory is in its canonical form at reset. -/
theorem State.memWf_reset : State.reset.memWf := ⟨fun _ => rfl, fun _ => rfl, fun _ => rfl⟩

end Sys2Proof.Machine
end

