-- ==== Sys2Proof/Tests/Slice0.lean ====
section
/-! SUPPORT. Tests: ill-formed commands refused, small steps whose results are worked out by hand from the rules, and for every statement
states and operands that meet its hypotheses. -/
namespace Sys2Proof.Tests
set_option Elab.async false
open Sys2Proof.Machine

/-- Reed 0, context 0. -/
def r0 : RR := ⟨0, 0⟩
/-- The next state of an outcome. -/
def nx (o : Host.Outcome State Fault Refusal) : State := match o with | .next t => t | _ => {}
/-- A reed inside the body of its first firing: FIRE with one firing of a body of 6 words, FIRET, and the program counter at the body. -/
def reedIn : Reed :=
  { status := .running, inBody := true, bodyEnd := 8, pmem := [(0, 0xF000000001006000#64), (1, 0)],
    ctx := [(0, { pc := 2, s := [(1, 7), (2, 3)], a := [(1, 0x100), (2, 4)], c := [(0, 5)] })], fetch := { pc := 2, a := [(1, 8)], c := [(0, 2)] } }
/-- A state in which reed 0 is that reed. -/
def sIn (x : Reed) : State := { reeds := [(0, x)] }
/-- A handle of a reed, by its fields of R106: kind, first slot, slots, tussock, pool handle, target, channel. -/
def handleBits (kind base size : Nat) (t : Nat := 0) (ph : Nat := 0) (target : Nat := 0) (chan : Nat := 0) : BitVec 128 :=
  BitVec.ofNat 128 (kind * 2 ^ 124 + chan * 2 ^ 119 + t * 2 ^ 110 + ph * 2 ^ 102 + target * 2 ^ 96 + size * 2 ^ 64 + base)
/-- 64 values from a table of bytes. -/
def fl (l : List W32) : VReg := BitVec.ofNat 1024 ((l.zip (List.range 32)).foldl (fun n e => n + e.1.toNat * 2 ^ (32 * e.2)) 0)

/-! ### Well-formed commands: for each check a term that it refuses, and one that it takes -/

def fp (f : Fmt) : VOpt := { fmt := f }
def ha : HA := ⟨1, 3⟩
def dsc (n : Nat) : Desc := ⟨ha, ha, n, .contiguous⟩

theorem wf_loop : (Instr.loop r0 .exec 0 3 0).wf = false ∧ (Instr.loop r0 .exec 0 3 2045).wf = false ∧ (Instr.loop r0 .exec 0 3 2044).wf = true := by decide
theorem wf_setvl : (Instr.setvl r0 0).wf = false ∧ (Instr.setvl r0 129).wf = false ∧ (Instr.setvl r0 128).wf = true := by decide
theorem wf_csr : (Instr.csr r0 1 0x014).wf = false ∧ (Instr.csr r0 1 0x029).wf = false ∧ (Instr.csr r0 1 0x02C).wf = true := by decide
theorem wf_csw : (Instr.csw r0 .zero 0x028).wf = false ∧ (Instr.csw r0 .zero 0x020).wf = true := by decide
theorem wf_slots : (Instr.twaitf r0 ha 0).wf = false ∧ (Instr.tsete r0 ha 4096).wf = false ∧ (Instr.tsetf r0 ha 0).wf = false ∧
    (Instr.fdld r0 (dsc 0)).wf = false ∧ (Instr.fdst r0 (dsc 4096)).wf = false ∧ (Instr.fdmv r0 (dsc 0)).wf = false ∧ (Instr.fdld r0 (dsc 4095)).wf = true := by decide
theorem wf_mres : (Instr.mres r0 ha .idx32 4).wf = false ∧ (Instr.mres r0 ha .e4m3 0).wf = false ∧ (Instr.mres r0 ha .e4m3 3).wf = false ∧
    (Instr.mres r0 ha .e4m3 4).wf = true := by decide
theorem wf_mmac : (Instr.mmac r0 ha 0 .int8 .e4m3 4 true false).wf = false ∧ (Instr.mmac r0 ha 0 .bf16 .bf16 4 true true).wf = false ∧
    (Instr.mmac r0 ha 0 .e4m3 .e4m3 4096 true false).wf = false ∧ (Instr.mmac r0 ha 0 .e4m3 .e4m3 4 true false).wf = true := by decide
theorem wf_elementwise : (Instr.vadd r0 (fp .e4m3) 0 1 2).wf = false ∧ (Instr.vsub r0 (fp .fp64) 0 1 2).wf = false ∧
    (Instr.vmul r0 { fmt := .int32, rnd := .toZero } 0 1 2).wf = false ∧ (Instr.vfma r0 (fp .int32) 0 1 2 3).wf = false ∧
    (Instr.vdiv r0 { fmt := .fp32, sr := 1 } 0 1 2).wf = false ∧ (Instr.vsqrt r0 { fmt := .fp64, rnd := .stoch } 0 2).wf = false ∧
    (Instr.vmax r0 { fmt := .fp32, rnd := .toZero } 0 1 2).wf = false ∧ (Instr.vmin r0 { fmt := .fp32, mon := some 1 } 0 1 2).wf = false ∧
    (Instr.vadd r0 (fp .fp64) 0 2 4).wf = true := by decide
theorem wf_lanes : (Instr.vcvt r0 (fp .fp32) 0 1 .fp32).wf = false ∧ (Instr.vcmp r0 (fp .fp64) 0 1 2 .lt).wf = false ∧
    (Instr.vcmp r0 (fp .fp64) 1 0 2 .lt).wf = false ∧ (Instr.vsel r0 (fp .fp64) 0 2 4 5).wf = false ∧
    (Instr.vsel r0 (fp .e2m1) 0 1 2 3).wf = false ∧ (Instr.vbcast r0 (fp .fp64) 0 1).wf = false ∧ (Instr.vperm r0 (fp .fp64) 0 1 2).wf = false ∧
    (Instr.vshuf r0 { fmt := .fp32, rnd := .stoch } 0 1 2 3).wf = false ∧ (Instr.vcvt r0 (fp .bf16) 0 1 .fp32).wf = true := by decide
theorem wf_reductions : (Instr.vred r0 (fp .fp64) 0 1 .sum).wf = false ∧ (Instr.vstat r0 { fmt := .fp32, mon := some 0 } 0 1 .init).wf = false ∧
    (Instr.vstat r0 { fmt := .fp32, mon := some 0 } 0 1 .accum).wf = true := by decide
theorem wf_packs : (Instr.vpack r0 (fp .e4m3) 0 1 0).wf = false ∧ (Instr.vpack r0 { fmt := .int8, rnd := .stoch } 0 4 0).wf = false ∧
    (Instr.vred r0 { fmt := .fp32, rnd := .stoch } 0 1 .sum).wf = false ∧ (Instr.vunpk r0 (fp .fp32) 0 1 0).wf = false ∧ (Instr.vunpk r0 (fp .e4m3) 2 1 0).wf = false ∧
    (Instr.vpack r0 (fp .e4m3) 1 4 0).wf = true := by decide
theorem wf_memories : (Instr.eccRetryRead (.spad 0 4096) true).wf = false ∧ (Instr.memoryRetest (.hbmRegion 0 49152) true).wf = false ∧
    (Instr.scrubWord (.pool 0 65536) .clean).wf = false ∧ (Instr.correctedWordWriteBack (.acc 0 1024)).wf = false ∧
    (Instr.scrubWord (.pool 255 65535) .clean).wf = true := by decide
theorem wf_frames : (Instr.lodeFrameReceive 0 (List.replicate 18 { lseq := 0 }) true [] 0).wf = false ∧
    (Instr.lodeFrameReceive 0 [] true [] 0).wf = true := by decide
/-- A command entry of port 0, ring 15, with CMD_ID 5 (R397): its opcode, its partition, and its arguments as (byte, value). -/
def hc (op part : Nat) (args : List (Nat × Nat) := []) : HCmd :=
  { port := 0, ring := 15, entry := leBytes 64 (args.foldl (fun n a => n + a.2 * 2 ^ (8 * a.1)) (op + part * 2 ^ 8 + 5 * 2 ^ 32)) }
theorem wf_host_commands : (Instr.place (hc 3 0)).wf = false ∧ (Instr.place { hc 4 0 with entry := [4] }).wf = false ∧
    (Instr.snapshot (hc 0xE 0 [(11, 128)])).wf = false ∧ (Instr.snapshotAndClear (hc 0xE 0 [(11, 128)])).wf = true ∧
    (Instr.place (hc 0x14 0)).wf = true := by decide
/-- A datagram from address 3 of request 5 in session 9, with a TYPE. -/
def hdr0 (type : Byte) : SHdr := { source := 3, type := type, session := 9, counter := 1, req := 5 }
theorem wf_datagrams : (Instr.discover (hdr0 2)).wf = false ∧ (Instr.discover { hdr0 1 with source := 2 ^ 128 }).wf = false ∧
    (Instr.discover (hdr0 1)).wf = true ∧ (Instr.read (hdr0 0x20) 0 0).wf = true := by decide
theorem wf_write_datagrams : (Instr.write (hdr0 3) (List.replicate 1193 0)).wf = false ∧ (Instr.write (hdr0 3) (List.replicate 1192 0)).wf = true := by
  decide +kernel
theorem wf_bypass : (Instr.bypass 0x05).wf = false ∧ (Instr.bypass 0xFF).wf = true ∧ (Instr.bypass 0x10).wf = true := by decide
theorem wf_entries : (Instr.dictWrite (.host 0) 65536 0 0 1 0).wf = false ∧ (Instr.dictWrite (.host 0) 1 256 0 1 0).wf = false ∧
    (Instr.dictWrite (.host 0) 65535 255 0 1 0).wf = true := by decide
/-- No row of the opcode table has bits (entry 3). -/
theorem no_words : decodeTableWord 64 0 = none ∧ (State.reset.withFetchWord 64 0).pending = [] := by decide

/-- A reduction group of one tensor of one tile, two contributions, over devices 0 and 1, rooted at device 0. -/
def grp : GroupDecl := { group := 15, thin := 0, contrib := 2, x0 := 0, x1 := 1, y0 := 0, y1 := 0, z0 := 0, z1 := 0, root := 0, slots := 64, densePeriod := 0,
                         tensors := [{ id := 7, rows := 32, cols := 32, fmt := 1 }] }
/-- A section of reed 0 in tussock 0 that binds that group, with one step left. -/
def sec1 : Sect := { img := { bytes := [], progs := [{ tus := 0, reed := 0, role := .forward, words := [] }] }, sectionId := 1, w := 1, h := 1, x0 := 0, y0 := 0,
                     m := 1, d := 1, pass := 0, first := 0, steps := 1, left := 1, groups := [grp], fingerprint := 0x1234 }
/-- A state in which that section runs in partition 0. -/
def sRun : State := { reeds := [(0, reedIn)], tus := [(0, { owner := some 0 })], parts := [(0, { run := some { sec := sec1, step := 0, phase := .running } })] }

/-! ### Instruction words (R79, R84, R89, R90)

A word is built here from the fields of its format, and the words of the manual's own program are written out. -/

/-- Format A: MON_EN and MON_SLOT stand in bits 11 to 8 (R183). -/
def wA (op dst s1 s2 : Nat) (s3 fmt rnd sr mon : Nat := 0) : BitVec 64 :=
  BitVec.ofNat 64 (op * 2 ^ 56 + dst * 2 ^ 48 + s1 * 2 ^ 40 + s2 * 2 ^ 32 + s3 * 2 ^ 24 + fmt * 2 ^ 20 + rnd * 2 ^ 18 + sr * 2 ^ 12 + mon * 2 ^ 8)
/-- Format I. -/
def wI (op dst s1 imm : Nat) : BitVec 64 := BitVec.ofNat 64 (op * 2 ^ 56 + dst * 2 ^ 48 + s1 * 2 ^ 40 + imm)
/-- Format L. -/
def wL (op ctr bound len : Nat) : BitVec 64 := BitVec.ofNat 64 (op * 2 ^ 56 + ctr * 2 ^ 48 + bound * 2 ^ 24 + len * 2 ^ 12)
/-- Format Q. -/
def wQ (op reg queue : Nat) (flag half h a : Nat := 0) : BitVec 64 :=
  BitVec.ofNat 64 (op * 2 ^ 56 + reg * 2 ^ 48 + queue * 2 ^ 40 + flag * 2 ^ 32 + half * 2 ^ 31 + h * 2 ^ 24 + a * 2 ^ 20)
/-- Format T. -/
def wT (op h a slots : Nat) : BitVec 64 := BitVec.ofNat 64 (op * 2 ^ 56 + h * 2 ^ 50 + a * 2 ^ 46 + slots * 2 ^ 34)
/-- Format D, contiguous. -/
def wD (op sh dh sa da slots : Nat) : BitVec 64 :=
  BitVec.ofNat 64 (op * 2 ^ 56 + sh * 2 ^ 50 + dh * 2 ^ 44 + sa * 2 ^ 40 + da * 2 ^ 36 + slots * 2 ^ 24)
/-- Format M: its low 24 bits as one number. -/
def wM (op h a acc fa fb kblk low : Nat) : BitVec 64 :=
  BitVec.ofNat 64 (op * 2 ^ 56 + h * 2 ^ 50 + a * 2 ^ 46 + acc * 2 ^ 44 + fa * 2 ^ 40 + fb * 2 ^ 36 + kblk * 2 ^ 24 + low)
/-- Format VM. -/
def wVM (op reg h a consume off : Nat) : BitVec 64 :=
  BitVec.ofNat 64 (op * 2 ^ 56 + reg * 2 ^ 48 + h * 2 ^ 42 + a * 2 ^ 38 + consume * 2 ^ 37 + off)
/-- A reed whose program counters stand at a word. -/
def atWord (w : BitVec 64) (x : Reed := reedIn) : Reed := { x with pmem := [(0, 0xF000000001006000#64), (1, 0), (2, w)] }
/-- A state in which reed 0 is that reed. -/
def at_ (w : BitVec 64) (x : Reed := reedIn) : State := sIn (atWord w x)

/-- A request for banks is granted; what it leaves. -/
def granted (b : BankTry) : Bool := match b with | .granted _ => true | .lost _ => false
def asked (b : BankTry) : State := match b with | .granted s => s | .lost s => s

/-- The words of the manual's program (04_reed.md, A small program). -/
theorem decode_fdld : decodeReed r0 .fetch 0x3008000012000000 = some (.fdld r0 ⟨⟨2, 0⟩, ⟨0, 0⟩, 18, .contiguous⟩) := by decide
theorem decode_vld : decodeReed r0 .exec 0x6A410000000000C0 = some (.vld r0 1 ⟨0, 0⟩ 192 false) := by decide
theorem decode_tsete : decodeReed r0 .exec 0x2700004800000000 = some (.tsete r0 ⟨0, 0⟩ 18) := by decide
theorem decode_qpop : decodeReed r0 .exec 0x2048800080000000 = some (.qpop r0 8 true 0) := by decide
theorem decode_vfma : decodeReed r0 .exec 0x5348484042100000 = some (.vfma r0 { fmt := .fp32 } 8 8 0 2) := by decide
theorem decode_qpush : decodeReed r0 .exec 0x2249A00080000000 = some (.qpush r0 9 true 0) := by decide
theorem decode_end : decodeReed r0 .exec 0x0400000000000000 = some (.end_ r0 .exec) := by decide
theorem header_fire : ({ pmem := [(8, 0xF00400010000A080#64), (9, 0xF1000001AF00000B#64)] } : Reed).fireAt 8 = some { slack := 4, count := 256, body := 10, guards := 2 } ∧
    ({ pmem := [(8, 0xF00400010000A080#64), (9, 0xF1000001AF00000B#64)] } : Reed).firetAt 8 = (431, 11) := by decide
/-- SADD S5 := S1 + S2, LOOP C1 three times over two words, MMAC of handle 1 + A3, E4M3 both, 2 K-blocks, CLEAR. -/
theorem decode_more : decodeReed r0 .exec 0x1005010200000000 = some (.sadd r0 5 (.s 1) (.s 2)) ∧
    decodeReed r0 .exec 0x0161000003002000 = some (.loop r0 .exec 1 3 2) ∧
    decodeReed r0 .exec 0x4104F55002800000 = some (.mmac r0 ⟨1, 3⟩ 3 .e4m3 .e4m3 2 true false) := by decide
/-- A header word and a reserved opcode are no instruction. -/
theorem decode_none : decodeReed r0 .exec 0xF008000001006000 = none ∧ decodeReed r0 .exec 0x0900000000000000 = none := by decide

/-! ### The scalar instructions: small steps by hand, then states that meet each statement's hypotheses -/

/-- The context that issues, after an instruction whose word stands at the program counter. -/
def after (i : Instr) (w : BitVec 64) (x : Reed := reedIn) : Ctx := (nx (exec i (at_ w x))).ctxOf r0

/-- R440: 7 + 3, 7 - 3 and 3 - 7 modulo 2^32. -/
theorem test_sadd : (after (.sadd r0 5 (.s 1) (.s 2)) (wA 0x10 5 1 2)).getS 5 = 10 := by decide
theorem test_ssub_wraps : (after (.ssub r0 5 (.s 2) (.s 1)) (wA 0x11 5 2 1)).getS 5 = 0xFFFFFFFC := by decide
/-- R89: an instruction that is not the one at the program counter does not issue. -/
theorem test_not_named : (after (.sadd r0 5 (.s 1) (.s 2)) (wA 0x10 5 2 1)).getS 5 = 0 := by decide
/-- R440: a shift by SRC2[4:0]; a source that is the destination. -/
theorem test_sshl_self : (after (.sshl r0 1 (.s 1) (.s 2)) (wA 0x16 1 1 2)).getS 1 = 56 := by decide
theorem test_sshr : (after (.sshr r0 5 (.s 1) (.s 2)) (wA 0x17 5 1 2)).getS 5 = 0 := by decide
theorem test_smul : (after (.smul r0 5 (.s 1) (.s 2)) (wA 0x12 5 1 2)).getS 5 = 21 := by decide
theorem test_sand : (after (.sand r0 5 (.s 1) (.s 2)) (wA 0x13 5 1 2)).getS 5 = 3 := by decide
theorem test_sor : (after (.sor r0 5 (.s 1) (.s 2)) (wA 0x14 5 1 2)).getS 5 = 7 := by decide
theorem test_sxor : (after (.sxor r0 5 (.s 1) (.s 2)) (wA 0x15 5 1 2)).getS 5 = 4 := by decide
theorem test_sli : (after (.sli r0 5 0xDEADBEEF) (wI 0x18 5 0 0xDEADBEEF)).getS 5 = 0xDEADBEEF := by decide
/-- R440: SRC3 of zero selects SRC2. -/
theorem test_ssel_zero : (after (.ssel r0 5 (.s 1) (.s 2) .zero) (wA 0x19 5 1 2 0xC1)).getS 5 = 3 := by decide
/-- R90: the signed and the unsigned order differ on a negative number. -/
def reedNeg : Reed := { reedIn with ctx := [(0, { pc := 2, s := [(1, 0xFFFFFFFF), (2, 3)] })] }
theorem test_scmp_signed : (after (.scmp r0 5 (.s 1) (.s 2) .ltS) (wA 0x1A 5 1 2 0 2) reedNeg).getS 5 = 1 := by decide
theorem test_scmp_unsigned : (after (.scmp r0 5 (.s 1) (.s 2) .ltU) (wA 0x1A 5 1 2 0 3) reedNeg).getS 5 = 0 := by decide
/-- R90: 0x100 + 5 × 4. -/
theorem test_amad : (after (.amad r0 .exec 1 0 2) (wA 0x1D 0x21 0x60 0x22)).getA 1 = 0x114 := by decide
/-- R78, R94: the fetch engine adds to its own copy, 8 + 2 × 8. -/
theorem test_amad_fetch : Tbl.lk 0 ((nx (exec (.amad r0 .fetch 1 0 1) (at_ (wA 0x1D 0x21 0x60 0x21)))).reed 0).fetch.a 1 = 24 := by decide
theorem test_aadd_zero : (after (.aadd r0 .exec 2 .zero 9) (wI 0x1C 0x22 0xC1 9)).getA 2 = 9 := by decide
theorem test_smov_vl : (after (.smov r0 .exec .vl (.s 1)) (wA 0x1B 0xC0 1 0)).vl = 7 := by decide
theorem test_smov_marks : ((nx (exec (.smov r0 .exec (.a 4) (.s 1)) (at_ (wA 0x1B 0x24 1 0)))).reed 0).marks = [{ writes := [], value := some 7 }] := by decide
theorem test_nop_advances : (after (.nop r0) 0).pc = 3 := by decide
theorem test_fence : (after (.fence r0) (wI 3 0 0 0)).fence = true := by decide
theorem test_setvl : (after (.setvl r0 128) (wI 5 0xC0 0 128)).vl = 128 := by decide
theorem test_dmark_fetch :
    ((nx (exec (.dmark r0 .fetch) (at_ (wI 2 0 0 0) { reedIn with marks := [{ writes := [], value := none }] }))).reed 0).marks = [] := by decide
/-- R90: a bound of 0 skips LEN instructions; any other bound enters the body. -/
theorem test_loop_skips : (after (.loop r0 .exec 1 0 3) (wL 1 0x61 0 3)).pc = 6 := by decide
theorem test_loop_enters : (after (.loop r0 .exec 1 2 3) (wL 1 0x61 2 3)).loops = [{ start := 3, stop := 6, ctr := 1, bound := 2, iter := 0 }] := by decide
/-- R82: a read of CORE_SAMPLE_STAT at 0x02C clears DROPPED. -/
theorem test_csr_dropped : ((nx (exec (.csr r0 5 0x02C) (at_ (wI 7 5 0 0x2C) { reedIn with dropped := 4, written := 6 }))).reed 0).dropped = 0 := by decide
theorem test_csw : ((nx (exec (.csw r0 (.s 1) 0x020) (at_ (wI 8 0 1 0x20)))).reed 0).csCtl = 7 := by decide
theorem test_note :
    (Tbl.lk [] (nx (exec (.note r0 0x55) (at_ (wI 6 0 0 0x55)))).rillq 0).map (fun m => (m.destT, m.port, m.type)) = [(0, 26, 3)] := by decide
/-- R83: past the last block the program ends. -/
theorem test_end : ((nx (exec (.end_ r0 .exec) (at_ (wI 4 0 0 0) { reedIn with inBody := false }))).reed 0).status = .drain := by decide

/-- A reed threaded over four contexts (R100), whose last context stands at its quarter's first word. -/
def reedThr : Reed := { reedIn with threads := 4, inBody := false, lastCtx := 2, ctx := [(3, { pc := 0x600 })] }
/-- The context of that reed that issues. -/
def r3 : RR := ⟨0, 3⟩
def thr_ (w : BitVec 64) : State := sIn { reedThr with pmem := [(0x600, w)] }

theorem meets_ScalarResults :
    (∀ e ∈ [(Instr.sadd r0 5 (.s 1) (.s 15), wA 0x10 5 1 15), (.ssub r0 5 (.s 1) (.s 15), wA 0x11 5 1 15), (.smul r0 5 (.s 1) (.s 15), wA 0x12 5 1 15),
        (.sand r0 5 (.s 1) (.s 15), wA 0x13 5 1 15), (.sor r0 5 (.s 1) (.s 15), wA 0x14 5 1 15), (.sxor r0 5 (.s 1) (.s 15), wA 0x15 5 1 15),
        (.sshl r0 5 (.s 1) (.s 15), wA 0x16 5 1 15), (.sshr r0 5 (.s 1) (.s 15), wA 0x17 5 1 15), (.scmp r0 5 (.s 1) (.s 15) .eq, wA 0x1A 5 1 15),
        (.scmp r0 5 (.s 1) (.s 15) .ne, wA 0x1A 5 1 15 0 1), (.scmp r0 5 (.s 1) (.s 15) .ltS, wA 0x1A 5 1 15 0 2), (.scmp r0 5 (.s 1) (.s 15) .ltU, wA 0x1A 5 1 15 0 3)],
      (at_ e.2).Issues r0 ((SSrc.s 1).spec 0 ++ (SSrc.s 15).spec 0) ∧ (at_ e.2).At r0 .exec e.1) ∧
    ((at_ (wA 0x19 5 1 15 0xC1)).Issues r0 ((SSrc.s 1).spec 0 ++ (SSrc.s 15).spec 0 ++ SSrc.zero.spec 0) ∧
      (at_ (wA 0x19 5 1 15 0xC1)).At r0 .exec (.ssel r0 5 (.s 1) (.s 15) .zero)) ∧
    ((thr_ (wA 0x10 5 0 15)).Issues r3 ((SSrc.s 0).spec 3 ++ (SSrc.s 15).spec 3) ∧ (thr_ (wA 0x10 5 0 15)).At r3 .exec (.sadd r3 5 (.s 0) (.s 15))) ∧
    (∀ e ∈ [(Instr.sli r0 5 0xFFFFFFFF, wI 0x18 5 0 0xFFFFFFFF), (.aadd r0 .exec 15 (.a 0) 9, wI 0x1C 0x2F 0x20 9), (.aadd r0 .exec 15 .zero 9, wI 0x1C 0x2F 0xC1 9),
        (.amad r0 .exec 15 7 2, wA 0x1D 0x2F 0x67 0x22)], (at_ e.2).Issues r0 [] ∧ (at_ e.2).At r0 .exec e.1) ∧
    (∀ e ∈ [(Instr.aadd r0 .fetch 15 (.a 0) 9, wI 0x1C 0x2F 0x20 9), (.aadd r0 .fetch 15 .zero 9, wI 0x1C 0x2F 0xC1 9), (.amad r0 .fetch 15 7 2, wA 0x1D 0x2F 0x67 0x22)],
      (at_ e.2).Fetches r0 ∧ (at_ e.2).At r0 .fetch e.1) := by
  unfold State.Issues State.Fetches State.At; decide
theorem meets_MovesAndControlRegisters :
    (∀ e ∈ [(Instr.smov r0 .exec (.s 0) (.s 15), wA 0x1B 0 15 0), (.smov r0 .exec .vl (.s 15), wA 0x1B 0xC0 15 0), (.smov r0 .exec (.a 15) (.s 15), wA 0x1B 0x2F 15 0)],
      (at_ e.2).Issues r0 ((MovSrc.s 15).spec 0) ∧ (at_ e.2).At r0 .exec e.1) ∧
    ((at_ (wA 0x1B 0 0xC2 0)).Issues r0 (MovSrc.firing.spec 0) ∧ (at_ (wA 0x1B 0 0xC2 0)).At r0 .exec (.smov r0 .exec (.s 0) .firing)) ∧
    (∀ e ∈ [(Instr.smov r0 .fetch (.a 15) (.a 0), wA 0x1B 0x2F 0x20 0), (.smov r0 .fetch (.a 15) .firing, wA 0x1B 0x2F 0xC2 0)],
      (at_ e.2).Fetches r0 ∧ (at_ e.2).At r0 .fetch e.1) ∧
    (let s := at_ (wA 0x1B 0x2F 3 0) { reedIn with marks := [{ writes := [], value := some 9 }] }
     s.Fetches r0 ∧ (MovSrc.s 3).marks = true ∧ (s.reed 0).markReady = some ({ writes := [], value := some 9 }, []) ∧
       s.At r0 .fetch (.smov r0 .fetch (.a 15) (.s 3))) ∧
    ((at_ (wI 7 5 0 0x2C)).Issues r0 [] ∧ (at_ (wI 7 5 0 0x2C)).At r0 .exec (.csr r0 5 0x02C)) ∧
    ((at_ (wI 8 0 0xC1 0x20)).Issues r0 (SSrc.zero.spec 0) ∧ (at_ (wI 8 0 0xC1 0x20)).At r0 .exec (.csw r0 .zero 0x020)) := by
  unfold State.Issues State.Fetches State.At; decide
theorem meets_SequencerInstructions :
    (∀ e ∈ [(Instr.nop r0, wI 0 0 0 0), (.fence r0, wI 3 0 0 0), (.setvl r0 128, wI 5 0xC0 0 128), (.dmark r0 .exec, wI 2 0 0 0), (.note r0 0xFFFF, wI 6 0 0 0xFFFF)],
      (at_ e.2).Issues r0 [] ∧ (at_ e.2).At r0 .exec e.1) ∧
    ((thr_ (wI 2 0 0 0)).Issues r3 [] ∧ (thr_ (wI 2 0 0 0)).At r3 .exec (.dmark r3 .exec)) ∧
    (let s := at_ (wI 2 0 0 0) { reedIn with marks := [{ writes := [2], value := none }], ops := [{ id := 3, kind := .store, acks := 1 }] }
     s.Fetches r0 ∧ (s.reed 0).markReady = some ({ writes := [2], value := none }, []) ∧ s.At r0 .fetch (.dmark r0 .fetch)) := by
  unfold State.Issues State.Fetches State.At; decide
/-- A loop of one instruction and one of four within a body of six, skipped and entered; and the last word of a program memory that a loop
in it can end before. -/
theorem meets_LoopsAndEnds :
    (∀ e ∈ [(Instr.loop r0 .exec 7 0 4, wL 1 0x67 0 4), (.loop r0 .exec 7 16777215 4, wL 1 0x67 16777215 4), (.loop r0 .exec 7 2 1, wL 1 0x67 2 1)],
      let s := at_ e.2
      s.Issues r0 [] ∧ (s.reed 0).threads = 0 ∧ (s.ctxOf r0).loops = [] ∧ s.At r0 .exec e.1 ∧
        (∀ n ∈ [1, 4], (s.ctxOf r0).pc.toNat + 1 + n < (s.reed 0).bodyEnd ∧ (s.ctxOf r0).pc.toNat + 1 + n < 2048 ∧ 0 < n ∧
          (s.reed 0).takes ((s.ctxOf r0).pc.toNat + 1) = true ∧ (s.reed 0).takes ((s.ctxOf r0).pc.toNat + 1 + n) = true)) ∧
    (let s := sIn { reedIn with bodyEnd := 2048, ctx := [(0, { pc := 2045 })], pmem := [(2045, wL 1 0x67 2 1)] }
     s.Issues r0 [] ∧ (s.ctxOf r0).loops = [] ∧ (s.ctxOf r0).pc.toNat + 1 + 1 < (s.reed 0).bodyEnd ∧ (s.ctxOf r0).pc.toNat + 1 + 1 < 2048 ∧
       (s.reed 0).takes 2046 = true ∧ (s.reed 0).takes 2047 = true ∧ s.At r0 .exec (.loop r0 .exec 7 2 1)) ∧
    (let s := at_ (wI 4 0 0 0) { reedIn with inBody := false }
     (s.reed 0).threads = 0 ∧ (s.reed 0).canEnd 0 = true ∧ s.issueWait r0 [] = none ∧ s.At r0 .exec (.end_ r0 .exec) ∧ s.Fetches r0 ∧
       s.At r0 .fetch (.end_ r0 .fetch)) := by
  unfold State.Issues State.Fetches State.At; decide

/-! ### Queues and tags -/

def tok1 : Token := { tag := tokTag false false false 0 0, data := 0x1122 }
def tok2 : Token := { tag := tokTag true false false 0 0, data := 0x3344 }
/-- A reed with a queue of two tokens, a handle of one scratchpad slot, and another of a pool. -/
def reedQ : Reed := { reedIn with qi := [(7, { toks := [tok1, tok2], inPacket := true })], handles := [(1, handleBits 1 0 2), (2, handleBits 2 0 0 5 3)],
                                  ctx := [(0, { pc := 2, s := [(1, 7)], a := [(3, 0)] })], v := [(31, 0xAB)] }
def ha1 : HA := ⟨1, 3⟩
/-- The state after an instruction whose word stands at the program counter. -/
def stepped (i : Instr) (w : BitVec 64) (x : Reed) : State := nx (exec i (at_ w x))
/-- An access is granted at an address of a memory. -/
def okAt (x : Access) (sp : Space) (a : Nat) : Bool := match x with | .ok _ u b _ => u == sp && b == a | _ => false

/-- R97, R98: half 0 of the register takes the token; the last token of a packet ends it. -/
theorem test_qpop : (stepped (.qpop r0 31 false 7) (wQ 0x20 0x5F 0x87) reedQ).v r0 31 = 0x1122 ∧
    ((stepped (.qpop r0 31 false 7) (wQ 0x20 0x5F 0x87) reedQ).inq 0 7).toks = [tok2] := by decide +kernel
theorem test_qpopnb_empty : ((stepped (.qpopnb r0 31 false 0 1) (wQ 0x21 0x5F 0x80 1) reedQ).ctxOf r0).getS 1 = 0 ∧
    (stepped (.qpopnb r0 31 false 0 1) (wQ 0x21 0x5F 0x80 1) reedQ).v r0 31 = 0xAB := by decide +kernel
/-- R87, R97: a token that arrived in this reed cycle is not yet there to pop. -/
theorem test_qpop_waits : ((stepped (.qpop r0 31 false 7) (wQ 0x20 0x5F 0x87) { reedQ with qi := [(7, { toks := [tok1], fresh := 1 })] }).ctxOf r0).pc = 2 ∧
    ((stepped (.qpop r0 31 false 0) (wQ 0x20 0x5F 0x80) reedQ).ctxOf r0).wait = some .waitInput := by decide
theorem test_qdrop : ((stepped (.qdrop r0 7) (wQ 0x23 0 0x87) reedQ).inq 0 7).toks = [] ∧ ((stepped (.qdrop r0 7) (wQ 0x23 0 0x87) reedQ).inq 0 7).dropping = false := by decide
theorem test_qpush_credit : ((stepped (.qpush r0 31 false 2) (wQ 0x22 0x5F 0xA2) reedQ).outq 0 2).cr = 31 := by decide
theorem test_qpopm : ((stepped (.qpopm r0 ha1 7) (wQ 0x24 0 0x87 0 0 1 3) reedQ).reed 0).spad.read 0 2 = [0x22, 0x11] := by decide +kernel
theorem test_qpushm : ((stepped (.qpushm r0 ha1 2) (wQ 0x25 0 0xA2 0 0 1 3) { reedQ with tags := [(0, .full)] }).outq 0 2).cr = 31 := by decide +kernel
theorem test_tsetf : (stepped (.tsetf r0 ha1 1) (wT 0x28 1 3 1) reedQ).tag (.spad 0) 0 = .full ∧
    (stepped (.tsetf r0 ha1 1) (wT 0x28 1 3 1) reedQ).tag (.spad 0) 1 = .empty := by decide
theorem test_tsete : (stepped (.tsete r0 ha1 1) (wT 0x27 1 3 1) { reedQ with tags := [(0, .full), (1, .full)] }).tag (.spad 0) 0 = .empty := by decide
theorem test_twaitf_waits : ((stepped (.twaitf r0 ha1 1) (wT 0x26 1 3 1) reedQ).ctxOf r0).pc = 2 := by decide
/-- Path 4 of tussock 0, fed by reed 0. -/
def sCtok (n : Nat) : State := { at_ (wQ 0x29 1 0) reedQ with tus := [(0, { paths := [(4, { mode := .split, ctlReed := 0, ctl := { toks := List.replicate n tok1 } })] })] }
theorem test_ctok : (((nx (exec (.ctok r0 1) (sCtok 0))).path 0 4).ctl.toks).map (fun k => k.data) = [7] := by decide +kernel
/-- R125: a control token waits while the control buffer is full. -/
theorem test_ctok_full : ((nx (exec (.ctok r0 1) (sCtok 32))).ctxOf r0).pc = 2 := by decide +kernel

theorem meets_QueuePops :
    (∀ e ∈ [(Instr.qpop r0 31 false 7, wQ 0x20 0x5F 0x87), (.qpop r0 31 true 7, wQ 0x20 0x5F 0x87 0 1)],
      let s := at_ e.2 reedQ
      (s.inq 0 7).head = some tok1 ∧ (s.inq 0 7).toks = tok1 :: [tok2] ∧ s.Issues r0 [spV (s.reed 0) 0 31] ∧ s.At r0 .exec e.1) ∧
    (let s := at_ (wQ 0x21 0x5F 0x87 1) reedQ
     (s.inq 0 7).head = some tok1 ∧ (s.inq 0 7).toks = tok1 :: [tok2] ∧ s.Issues r0 [] ∧ s.At r0 .exec (.qpopnb r0 31 false 7 1)) ∧
    (let s := at_ (wQ 0x20 0x5F 0x87) { reedQ with qi := [(7, { toks := [tok1], fresh := 1 })] }
     (s.inq 0 7).head = none ∧ s.Issues r0 [spV (s.reed 0) 0 31] ∧ s.At r0 .exec (.qpop r0 31 false 7)) ∧
    (let s := at_ (wQ 0x21 0x5F 0x80 1) reedQ
     (s.inq 0 0).head = none ∧ s.Issues r0 [] ∧ s.At r0 .exec (.qpopnb r0 31 false 0 1)) ∧
    (let s := at_ (wQ 0x23 0 0x87) reedQ
     s.Issues r0 [] ∧ s.At r0 .exec (.qdrop r0 7) ∧ (s.inq 0 7).inPacket = true ∧ (s.inq 0 0).inPacket = false) := by
  unfold State.Issues State.At; decide +kernel
/-- With the last credit, and with a control buffer one short of full. -/
theorem meets_QueuePushes :
    (let x : Reed := { reedQ with qo := [(0, { cr := 1, cr2 := 1, dest := .queue 1 7, len := 1 })], tags := [(0, .full)] }
     (let s := at_ (wQ 0x22 0x5F 0xA0) x
      (s.outq 0 0).cr ≠ 0 ∧ s.Issues r0 [spV (s.reed 0) 0 31] ∧ s.At r0 .exec (.qpush r0 31 false 0) ∧ (s.outq 0 0).dest = .queue 1 7 ∧ tusOf 1 = tusOf 0 ∧
        (s.inq 1 7).dropping = false) ∧
     (let s := at_ (wQ 0x25 0 0xA0 0 0 1 3) x
      (s.outq 0 0).cr ≠ 0 ∧ s.Issues r0 [] ∧ s.At r0 .exec (.qpushm r0 ha1 0) ∧
        okAt ((s.unfenced r0).spadRead r0 1 ((s.ctxOf r0).getA 3).toNat 64 5) (.spad 0) 0 = true)) ∧
    (let s := sCtok 31
     s.Issues r0 [spS 0 1] ∧ s.At r0 .exec (.ctok r0 1) ∧ s.pathOf 0 = some 4 ∧ (s.path 0 4).ctl.toks.length < 32) ∧
    (let s := at_ (wQ 0x24 0 0x87 0 0 1 3) reedQ
     s.Issues r0 [] ∧ s.At r0 .exec (.qpopm r0 ha1 7) ∧ (s.inq 0 7).head = some tok1 ∧ (s.inq 0 7).toks = tok1 :: [tok2] ∧
       okAt ((s.unfenced r0).spadWrite r0 1 ((s.ctxOf r0).getA 3).toNat 64 5) (.spad 0) 0 = true) := by
  unfold State.Issues State.At; decide +kernel
theorem meets_TagInstructions :
    (∀ e ∈ [(Instr.tsetf r0 ha1 2, wT 0x28 1 3 2), (.tsete r0 ha1 2, wT 0x27 1 3 2)],
      let s := at_ e.2 reedQ
      s.Issues r0 [] ∧ s.At r0 .exec e.1 ∧ (s.unfenced r0).tagSlots r0 ha1 2 = .ok (.spad 0) 0 ∧ (s.unfenced r0).earlierUse r0 (.spad 0) 0 2 = none) ∧
    (let s := at_ (wT 0x26 1 3 2) { reedQ with tags := [(0, .full), (1, .full)] }
     s.Issues r0 [] ∧ s.At r0 .exec (.twaitf r0 ha1 2) ∧ (s.unfenced r0).tagSlots r0 ha1 2 = .ok (.spad 0) 0 ∧ s.notTag (.spad 0) 0 2 .full = none) ∧
    (let s : State := { at_ (wT 0x28 2 3 1) reedQ with tus := [(5, { handles := [(3, BitVec.ofNat 64 (2 ^ 63 + 9 * 2 ^ 48))] })] }
     s.Issues r0 [] ∧ s.At r0 .exec (.tsetf r0 ⟨2, 3⟩ 1) ∧ (s.unfenced r0).tagSlots r0 ⟨2, 3⟩ 1 = .ok (.pool 5) 9 ∧
       (s.unfenced r0).earlierUse r0 (.pool 5) 9 1 = none ∧ (s.tus1 5).groups = []) := by
  unfold State.Issues State.At; decide +kernel


/-! ### Descriptors, the matrix engine -/

/-- A reed with handles of its scratchpad, a pool, a stack, and its FDLD operands; a privileged channel's handle. -/
def reedD : Reed := { reedIn with handles := [(1, handleBits 1 0 1024), (2, handleBits 2 0 0 5 3), (3, handleBits 3 0 100), (4, handleBits 3 0 100 0 0 0 1)],
                                  ctx := [(0, { pc := 2, a := [(3, 0)] })], fetch := { pc := 2, a := [] } }
def sD (w : BitVec 64) (x : Reed := reedD) : State :=
  { reeds := [(0, atWord w x)], tus := [(5, { handles := [(3, BitVec.ofNat 64 (2 ^ 63 + 9 * 2 ^ 48 + 99 * 2 ^ 34))] })] }
def d21 (n : Nat) : Desc := ⟨⟨2, 3⟩, ⟨1, 3⟩, n, .contiguous⟩
def d12 (n : Nat) : Desc := ⟨⟨1, 3⟩, ⟨2, 3⟩, n, .contiguous⟩
def d41 (n : Nat) : Desc := ⟨⟨4, 3⟩, ⟨1, 3⟩, n, .contiguous⟩
def d32 (n : Nat) : Desc := ⟨⟨3, 3⟩, ⟨2, 3⟩, n, .contiguous⟩
def d13 (n : Nat) : Desc := ⟨⟨1, 3⟩, ⟨3, 3⟩, n, .contiguous⟩
/-- The address registers of the fetch engine. -/
def fA (s : State) : Nat → W32 := fun i => Tbl.lk 0 (s.reed 0).fetch.a i
/-- What the checks of a descriptor at the program counter answer; for the fetch engine's. -/
def checked (s : State) (r : RR) (k : XferKind) (d : Desc) (op : Nat) : DescCheck :=
  s.checkDesc 0 (s.ctxOf r).getA k d op (s.ctxOf r).pc.toNat ((s.reed 0).execPos r.ctx.val)
def checkedF (s : State) (d : Desc) : DescCheck := s.checkDesc 0 (fA s) .load d 0x30 (s.reed 0).fetch.pc.toNat (s.reed 0).fetchPos

/-- R94: a load enters its reed's queue of descriptors. -/
theorem test_fdld : ((nx (exec (.fdld r0 (d21 1)) (sD (wD 0x30 2 1 3 3 1)))).reed 0).descq = [0] := by decide
theorem test_fdst_waits : ((nx (exec (.fdst r0 (d12 1)) (sD (wD 0x31 1 2 3 3 1)))).ctxOf r0).pc = 2 := by decide
/-- R88: a store awaits one acknowledgement per slot, and per tile in an untagged tier (R218). -/
theorem test_fdst_acks : ((nx (exec (.fdst r0 (d12 2)) (sD (wD 0x31 1 2 3 3 2) { reedD with tags := [(0, .full), (1, .full)] }))).reed 0).ops.map (fun o => o.acks) = [2] := by
  decide +kernel
theorem test_fdmv_acks : ((nx (exec (.fdmv r0 (d32 18)) (sD (wD 0x32 3 2 3 3 18)))).reed 0).ops.map (fun o => o.acks) = [18] := by decide

/-- A load with fifteen descriptors already queued, one on a privileged channel, and one of a threaded reed; a store to a pool and one to a
stack; a move. -/
theorem meets_DescriptorsEnter :
    (let s := sD (wD 0x30 2 1 3 3 99) { reedD with descq := List.range 15 }
     (s.reed 0).threads = 0 ∧ s.Fetches r0 ∧ s.At r0 .fetch (.fdld r0 (d21 99)) ∧ ∃ x, checkedF s (d21 99) = .ok x ∧ s.loadWaits x = false) ∧
    (let s := sD (wD 0x30 4 1 3 3 36)
     s.Fetches r0 ∧ s.At r0 .fetch (.fdld r0 (d41 36)) ∧ ∃ x, checkedF s (d41 36) = .ok x ∧ s.loadWaits x = false) ∧
    (let s : State := { sD 0 with reeds := [(0, { reedD with threads := 4, lastCtx := 2, ctx := [(3, { pc := 0x600 })], pmem := [(0x600, wD 0x30 2 1 3 3 1)] })] }
     (s.reed 0).threads ≠ 0 ∧ s.Issues r3 [] ∧ s.At r3 .exec (.fdld r3 (d21 1)) ∧ ∃ x, checked s r3 .load (d21 1) 0x30 = .ok x ∧ s.loadWaits x = false) ∧
    (let s := sD (wD 0x31 1 2 3 3 1) { reedD with tags := [(0, .full)] }
     s.Issues r0 [] ∧ s.At r0 .exec (.fdst r0 (d12 1)) ∧ ∃ x, checked s r0 .store (d12 1) 0x31 = .ok x ∧ x.mode ≠ 2 ∧
       (∀ i, i < x.slots → s.tagFor .full x.src (x.srcSlot i) = .full) ∧ (∀ i, i < x.slots → s.corrects x.src (x.srcSlot i) = false) ∧
       granted ((s.unfenced r0).bankAsk x.src (256 * x.srcSlot 0) 256 x.src.readRank) = true ∧
       (x.chan ≠ 0 → (s.channel x.part x.tier x.chan).length < 256)) ∧
    (let s := sD (wD 0x31 1 3 3 3 18) { reedD with tags := (List.range 18).map (fun i => (i, Tag.full)) }
     s.Issues r0 [] ∧ s.At r0 .exec (.fdst r0 (d13 18)) ∧ ∃ x, checked s r0 .store (d13 18) 0x31 = .ok x ∧ x.mode ≠ 2 ∧ x.trickles = false ∧
       (∀ i, i < x.slots → s.tagFor .full x.src (x.srcSlot i) = .full) ∧ (∀ i, i < x.slots → s.corrects x.src (x.srcSlot i) = false) ∧
       granted ((s.unfenced r0).bankAsk x.src (256 * x.srcSlot 0) 256 x.src.readRank) = true ∧
       (x.chan ≠ 0 → (s.channel x.part x.tier x.chan).length < 256)) ∧
    (let s := sD (wD 0x32 3 2 3 3 18)
     s.Issues r0 [] ∧ s.At r0 .exec (.fdmv r0 (d32 18)) ∧ ∃ x, checked s r0 .move (d32 18) 0x32 = .ok x ∧
       (x.chan ≠ 0 → (s.channel x.part x.tier x.chan).length < 256)) := by
  unfold State.Issues State.Fetches State.At
  and_intros <;> first | rfl | decide | exact ⟨_, rfl, by decide +kernel⟩

/-- The header of a tile of E4M3 zeros, with its CRC-32C. -/
def zHdr : TileHdr := { fmt := Fmt.e4m3.code, vrows := 64, vcols := 64, crc := 0x1BBC6E53 }
/-- That tile. -/
def zTile : List Byte := zHdr.bytes ++ List.replicate 4544 0
/-- The cells of a memory that holds it from address 0. -/
def zMem : Mem := [(12, 0x05), (14, 0x40), (15, 0x40), (16, 0x53), (17, 0x6E), (18, 0xBC), (19, 0x1B)]

/-- One step of the division by Nat operations alone, and eight of them for each of n zero bytes. -/
def crcStep (c : Nat) : Nat := Nat.xor (Nat.div c 2) (Nat.mul 0x82F63B78 (Nat.mod c 2))
def crcZeros : Nat → Nat → Nat
  | 0, c => c
  | n + 1, c => crcZeros n (crcStep (crcStep (crcStep (crcStep (crcStep (crcStep (crcStep (crcStep c))))))))
theorem crcStep_eq (c : Nat) : (if c % 2 = 1 then (c / 2) ^^^ 0x82F63B78 else c / 2) = crcStep c := by
  change _ = (c / 2) ^^^ (0x82F63B78 * (c % 2))
  rcases Nat.mod_two_eq_zero_or_one c with h | h <;> simp [h]
theorem crcZeros_eq (n c : Nat) : (List.replicate n (0 : Byte)).foldl (fun c b => crcBits 8 (c ^^^ b.toNat)) c = crcZeros n c := by
  induction n generalizing c with
  | zero => rfl
  | succ n ih =>
    simp only [List.replicate_succ, List.foldl_cons]
    rw [ih]
    simp [crcZeros, crcBits, crcStep_eq]
/-- The CRC of a tile of zeros under a header with no RSVD byte set. -/
theorem zeros_crc (h : TileHdr) (hl : h.bytes.length = 64) (hz : (h.bytes.drop 20).take 28 = List.replicate 28 0) :
    tileCrc (h.bytes ++ List.replicate 4544 0)
      = BitVec.ofNat 32 (crcZeros 4400 ((h.bytes.take 16).foldl (fun c b => crcBits 8 (c ^^^ b.toNat)) 0xFFFFFFFF) ^^^ 0xFFFFFFFF) := by
  have h1 : (h.bytes ++ List.replicate 4544 (0 : Byte)).drop 64 = List.replicate 4544 0 := List.drop_left' hl
  have h2 : ((h.bytes ++ List.replicate 4544 (0 : Byte)).drop 20).take 28 = List.replicate 28 0 := by
    rw [List.drop_append_of_le_length (by omega), List.take_append_of_le_length (by simp [hl]), hz]
  have h3 : (h.bytes ++ List.replicate 4544 (0 : Byte)).take 16 = h.bytes.take 16 := List.take_append_of_le_length (by omega)
  rw [tileCrc, crc32c, h1, h2, h3, List.take_replicate, rep, rep]
  simp only [List.append_assoc, List.replicate_append_replicate]
  rw [List.foldl_append, crcZeros_eq]
  rfl
theorem zTile_crc : tileCrc zTile = 0x1BBC6E53 := (zeros_crc zHdr (by decide) (by decide +kernel)).trans (by decide +kernel)
theorem zTile_checks : checkTiles .e4m3 false [zTile] = .ok := by
  have h : (TileHdr.ofTile zTile).crc = 0x1BBC6E53 ∧ headerOk (TileHdr.ofTile zTile) .e4m3 false = true := by decide +kernel
  simp [checkTiles, zTile_crc, h.1, h.2]
theorem upto_add (a b c : Nat) : upto a (b + c) = upto a b ++ upto (a + b) c := by
  simp only [upto, List.range_add, List.map_append, List.map_map]
  congr 1
  refine List.map_congr_left (fun i _ => ?_)
  simp [Function.comp, Nat.add_assoc]
theorem zMem_read : Mem.read zMem 0 4608 = zTile := by
  have h : upto 0 4608 = upto 0 64 ++ upto 64 4544 := upto_add 0 64 4544
  have h1 : (upto 0 64).map (Mem.get zMem) = zHdr.bytes := by decide +kernel
  have h2 : (upto 64 4544).map (Mem.get zMem) = List.replicate 4544 0 := by
    rw [List.eq_replicate_iff]
    refine ⟨by simp [upto], ?_⟩
    intro b hb
    simp only [upto, List.map_map, List.mem_map, List.mem_range] at hb
    obtain ⟨i, _, rfl⟩ := hb
    simp only [Function.comp, zMem, Mem.get]
    repeat rw [if_neg (by omega)]
  unfold Mem.read
  rw [h, List.map_append, h1, h2]; rfl

/-- A reed with that tile in its first eighteen slots, FULL. -/
def reedM : Reed := { reedIn with handles := [(1, handleBits 1 0 1024)], ctx := [(0, { pc := 2, a := [(3, 0)] })], spad := zMem,
                                  tags := (List.range 18).map (fun i => (i, Tag.full)) }

/-- R140: MCLR zeroes its tile; R143: MCFG sets the threshold. -/
theorem test_mclr : (((stepped (.mclr r0 3) (wM 0x44 0 0 3 0 0 0 0) { reedM with acc := [(3, { el := [(0, 0x3F800000)], nblk := 4 })] }).reed 0).accTile 3).nblk = 0 := by decide
theorem test_mcfg : (((stepped (.mcfg r0 ha1 2 77) (wM 0x45 1 3 2 0 0 0 77) reedM).reed 0).accTile 2).lsum = 77 := by decide +kernel
/-- R147: MOUT holds its tile and puts it last in the queue of finished tiles, with its extents. -/
theorem test_mout : ((stepped (.mout r0 1) (wM 0x42 0 0 1 0 0 0 0) { reedM with acc := [(1, { ext := some (3, 5) })] }).reed 0).fin.map (fun f => (f.acc, f.rows, f.cols)) = [(1, 3, 5)] := by decide
theorem zTile_operands (x : Reed) (h : x.spad = zMem) (ht : (State.notTag (sIn x) (.spad 0) 0 18 .full) = none)
    (hc : (sIn x).correctsIn (.spad 0) 0 4608 = false) : (sIn x).operands 0 0 false 1 = some [zTile] := by
  unfold State.operands
  rw [show 18 * 1 = 18 from rfl, show 256 * 0 = 0 from rfl, show 4608 * 1 = 4608 from rfl, ht, hc, show ((sIn x).reed 0).spad = zMem from h]
  simp only [Option.isSome_none, Bool.and_false, Bool.or_false, Bool.false_eq_true, if_false, tilesOf]
  rw [zMem_read]
  exact congrArg (fun l => some [l]) (List.take_of_length_le (Nat.le_of_eq (by
    rw [zTile, List.length_append, List.length_replicate, show zHdr.bytes.length = 64 from by decide])))
/-- The first operand of an MRES, and a streamed one against bank 1, into a tile that it clears and into one of its own extents. -/
theorem meets_MatrixOperands :
    (let s := at_ (wM 0x40 1 3 0 5 0 2 0) reedM
     s.Issues r0 [] ∧ s.At r0 .exec (.mres r0 ha1 .e4m3 2) ∧ (s.reed 0).matq = [] ∧
       (s.unfenced r0).matAddr r0 ha1 (4608 * operandTiles .e4m3 false 2) 256 = .ok 0 false ∧
       s.operands 0 (0 / 256) false (operandTiles .e4m3 false 2) = some [zTile] ∧ checkTiles .e4m3 false [zTile] = .ok ∧
       granted ((s.entered r0 (.mres (0 / 256) false .e4m3 2 (s.reed 0).nextBank) (s.fillOf r0 ha1)).bankAsk (.spad 0) (256 * (0 / 256)) 128 3) = true) ∧
    (∀ e ∈ [(true, wM 0x41 1 3 3 5 5 2 0x800000, none), (false, wM 0x41 1 3 3 5 5 2 0, some (64, 64))],
     let b : Bank := { fmt := .e4m3, kblk := 2, tiles := [zTile] }
     let s := at_ e.2.1 { reedM with curBank := some 1, banks := [(1, b)], acc := [(3, { ext := e.2.2 })] }
     let m := (TileHdr.ofTile ([zTile].headD [])).vrows
     let n := (TileHdr.ofTile (b.tiles.headD [])).vrows
     s.Issues r0 [] ∧ s.At r0 .exec (.mmac r0 ha1 3 .e4m3 .e4m3 2 e.1 false) ∧ (s.reed 0).matq = [] ∧
       (s.unfenced r0).matAddr r0 ha1 (4608 * operandTiles .e4m3 false 2) 256 = .ok 0 false ∧ (s.reed 0).tileHeld 3 = false ∧
       (s.reed 0).curBank = some 1 ∧ Tbl.lk? (s.reed 0).banks 1 = some b ∧ b.kblk = 2 ∧ b.fmt = .e4m3 ∧
       s.operands 0 (0 / 256) false (operandTiles .e4m3 false 2) = some [zTile] ∧ checkTiles .e4m3 false [zTile] = .ok ∧
       kAgree .e4m3 .e4m3 false [zTile] b.tiles 2 = true ∧ (e.1 = true ∨ ∀ x, ((s.reed 0).accTile 3).ext = some x → x = (m, n)) ∧
       granted ((s.entered r0 (.mmac (0 / 256) false .e4m3 .e4m3 2 3 e.1 false (some 1)) (s.fillOf r0 ha1)).bankAsk (.spad 0) (256 * (0 / 256)) 128 3) = true) := by
  unfold State.Issues State.At
  refine ⟨⟨by decide, by decide, rfl, by decide +kernel, zTile_operands _ rfl (by decide) (by decide +kernel), zTile_checks, by decide +kernel⟩, ?_⟩
  intro e he
  rw [List.mem_cons, List.mem_singleton] at he
  rcases he with rfl | rfl
  · exact ⟨by decide, by decide, rfl, by decide +kernel, by decide, rfl, rfl, rfl, rfl, zTile_operands _ rfl (by decide) (by decide +kernel), zTile_checks,
      by decide +kernel, .inl rfl, by decide +kernel⟩
  · exact ⟨by decide, by decide, rfl, by decide +kernel, by decide, rfl, rfl, rfl, rfl, zTile_operands _ rfl (by decide) (by decide +kernel), zTile_checks,
      by decide +kernel, .inr (by intro x hx; cases hx; decide +kernel), by decide +kernel⟩
/-- The last word of a tile, for MCFG; a reed of a running section, for MSUMP. -/
theorem meets_AccumulatorTiles :
    (∀ e ∈ [(Instr.mclr r0 3, wM 0x44 0 0 3 0 0 0 0), (.mout r0 3, wM 0x42 0 0 3 0 0 0 0)],
      let s := at_ e.2 reedM
      s.Issues r0 [] ∧ s.At r0 .exec e.1 ∧ (s.reed 0).matq = [] ∧ (s.reed 0).tileHeld 3 = false) ∧
    (let s := at_ (wM 0x45 1 3 3 0 0 0 0xFFFFFF) reedM
     s.Issues r0 [] ∧ s.At r0 .exec (.mcfg r0 ha1 3 0xFFFFFF) ∧ (s.reed 0).matq = [] ∧ (s.reed 0).tileHeld 3 = false ∧
       (s.unfenced r0).matAddr r0 ha1 64 64 = .ok 0 false ∧ s.notTag (.spad 0) (0 / 256) 1 .full = none ∧ s.correctsIn (.spad 0) 0 64 = false ∧
       granted ((s.entered r0 (.mcfg 3 0xFFFFFF 0 false) (s.fillOf r0 ha1)).bankAsk (.spad 0) (256 * (0 / 256)) 128 3) = true) ∧
    (let s : State := { sRun with reeds := [(0, atWord (wM 0x43 1 3 3 0 0 0 0xF0000) reedM)] }
     s.Issues r0 [] ∧ s.At r0 .exec (.msump r0 ha1 3 15) ∧ (s.reed 0).matq = [] ∧ (s.reed 0).tileHeld 3 = false ∧
       (s.unfenced r0).locate 0 1 ((s.ctxOf r0).getA 3).toNat (4 * 4608) = .at_ (s.handle 0 1) (.spad 0) 0 ∧ ((s.ctxOf r0).getA 3).toNat % 256 = 0 ∧
       s.sumpAccepts 0 15 = true) := by
  unfold State.Issues State.At; decide +kernel

/-! ### The vector engine -/

/-- A reed with V1 = (1.0, 2.0, -3.0), V2 = (2.0, 0.5, 1.0), a mask in V3, VL 2, and a scratchpad buffer. -/
def reedV : Reed :=
  { reedIn with
    v := [(1, fl [0x3F800000, 0x40000000, 0xC0400000]), (2, fl [0x40000000, 0x3F000000, 0x3F800000]), (3, fl [0, 0xFFFFFFFF])]
    ctx := [(0, { pc := 2, vl := 2, s := [(1, 0x40A00000), (2, 4)], a := [(3, 0)] })]
    handles := [(1, handleBits 1 0 1024)], tags := [(0, .full)] }
def f32o : VOpt := { fmt := .fp32 }
/-- A word of a vector instruction in FP32 with V4 as its DST, and of its sources' V registers. -/
def wV (op a b : Nat) (s3 : Nat := 0) : BitVec 64 := wA op 0x44 a b s3 1
/-- Lane n of V4 after an instruction. -/
def lane (i : Instr) (w : BitVec 64) (n : Nat) : Nat := (stepped i w reedV).elem r0 4 .fp32 n

/-- R182, R185: the lanes below VL, each rounded once; those above VL are cleared. -/
theorem test_vadd : lane (.vadd r0 f32o 4 1 2) (wV 0x50 0x41 0x42) 0 = 0x40400000 ∧ lane (.vadd r0 f32o 4 1 2) (wV 0x50 0x41 0x42) 2 = 0 := by decide +kernel
theorem test_vsub : lane (.vsub r0 f32o 4 1 2) (wV 0x51 0x41 0x42) 0 = 0xBF800000 := by decide +kernel
theorem test_vmul : lane (.vmul r0 f32o 4 1 2) (wV 0x52 0x41 0x42) 1 = 0x3F800000 := by decide +kernel
theorem test_vfma : lane (.vfma r0 f32o 4 1 2 1) (wV 0x53 0x41 0x42 0x41) 0 = 0x40400000 := by decide +kernel
theorem test_vdiv : lane (.vdiv r0 f32o 4 1 2) (wV 0x54 0x41 0x42) 0 = 0x3F000000 := by decide +kernel
/-- The square root of 2 to the nearest. -/
theorem test_vsqrt : lane (.vsqrt r0 f32o 4 2) (wV 0x55 0x42 0) 0 = 0x3FB504F3 := by decide +kernel
theorem test_vmax : lane (.vmax r0 f32o 4 1 2) (wV 0x56 0x41 0x42) 0 = 0x40000000 := by decide +kernel
theorem test_vmin : lane (.vmin r0 f32o 4 1 2) (wV 0x57 0x41 0x42) 1 = 0x3F000000 := by decide +kernel
theorem test_vcmp : lane (.vcmp r0 f32o 4 1 2 .lt) (wV 0x59 0x41 0x42 2) 0 = 0xFFFFFFFF ∧ lane (.vcmp r0 f32o 4 1 2 .lt) (wV 0x59 0x41 0x42 2) 1 = 0 := by decide +kernel
theorem test_vsel : lane (.vsel r0 f32o 4 1 2 3) (wV 0x5A 0x41 0x42 0x43) 0 = 0x40000000 ∧ lane (.vsel r0 f32o 4 1 2 3) (wV 0x5A 0x41 0x42 0x43) 1 = 0x40000000 := by
  decide +kernel
theorem test_vbcast : lane (.vbcast r0 f32o 4 1) (wV 0x5B 1 0) 31 = 0x40A00000 := by decide +kernel
theorem test_vperm : lane (.vperm r0 f32o 4 1 0) (wV 0x66 0x41 0x40) 1 = 0x3F800000 := by decide +kernel
/-- R182, R191: interleaved by one, a lane of a source at or above VL counts as zero. -/
theorem test_vshuf : lane (.vshuf r0 f32o 4 1 2 0) (wV 0x67 0x41 0x42 0) 1 = 0x40000000 := by decide +kernel
/-- 2.0 to BF16, 0x4000. -/
theorem test_vcvt : (stepped (.vcvt r0 { fmt := .bf16 } 4 1 .fp32) (wA 0x58 0x44 0x41 1 0 2) reedV).elem r0 4 .bf16 1 = 0x4000 := by decide +kernel
theorem test_vred : ((stepped (.vred r0 f32o 6 1 .sum) (wA 0x5C 6 0x41 0 0 1) reedV).ctxOf r0).getS 6 = 0x40400000 := by decide +kernel
theorem test_vld : (stepped (.vld r0 5 ha1 0 true) (wVM 0x6A 0x45 1 3 1 0) { reedV with spad := [(0, 0xEE)] }).v r0 5 = 0xEE := by decide +kernel
/-- R182: a VLD with CONSUME that does not read the slot's last word leaves its tag; one that does empties it. -/
theorem test_vld_consume : (stepped (.vld r0 5 ha1 0 true) (wVM 0x6A 0x45 1 3 1 0) reedV).tag (.spad 0) 0 = .full ∧
    (stepped (.vld r0 5 ha1 128 true) (wVM 0x6A 0x45 1 3 1 128) reedV).tag (.spad 0) 0 = .empty := by decide +kernel
theorem test_vst : ((stepped (.vst r0 1 ha1 256) (wVM 0x6B 0x41 1 3 0 256) reedV).reed 0).spad.get 258 = 0x80 := by decide +kernel
theorem test_vtile_extents :
    ((stepped (.vtile r0 (.s 6)) (wVM 0x6C 6 0 0 0 0) { reedV with fin := [{ acc := 2, rows := 3, cols := 5, op := 0 }] }).ctxOf r0).getS 6 = 0x305 := by decide +kernel
theorem test_vstat_init : (stepped (.vstat r0 f32o 1 2 .init) (wA 0x5D 0x41 0x42 0 0 1) reedV).v r0 1 = 0 := by decide +kernel

/-- With VL n, and a word at the program counter. -/
def sVL (n : Byte) (w : BitVec 64) : State := at_ w { reedV with ctx := [(0, { pc := 2, vl := n, s := [(1, 0x40A00000), (2, 4)], a := [(3, 0)] })] }
/-- An instruction stands at the program counter of that state, issues past its sources and is well formed, with VL in its range. -/
def ready (n : Byte) (i : Instr) (w : BitVec 64) (srcs : Reed → List Nat) (lanes : Nat) : Prop :=
  (sVL n w).Issues r0 (srcs ((sVL n w).reed 0)) ∧ (sVL n w).At r0 .exec i ∧ i.wf = true ∧ 0 < ((sVL n w).ctxOf r0).vl.toNat ∧
    ((sVL n w).ctxOf r0).vl.toNat ≤ lanes
/-- The registers of two V sources in a format. -/
def v2 (f : Fmt) (a b : Nat) (x : Reed) : List Nat := vSpecs x 0 a f ++ vSpecs x 0 b f
/-- VL at its largest, 32 lanes, and 1, with FP64. -/
theorem meets_ElementwiseResults :
    (∀ e ∈ [(Instr.vadd r0 f32o 4 1 2, 0x50), (.vsub r0 f32o 4 1 2, 0x51), (.vmul r0 f32o 4 1 2, 0x52), (.vdiv r0 f32o 4 1 2, 0x54), (.vmax r0 f32o 4 1 2, 0x56),
        (.vmin r0 f32o 4 1 2, 0x57)], ready 32 e.1 (wV e.2 0x41 0x42) (v2 .fp32 1 2) (fmtLanes .fp32)) ∧
    ready 1 (.vsqrt r0 { fmt := .fp64, rnd := .toZero } 4 2) (wA 0x55 0x44 0x42 0 0 0 2) (fun x => vSpecs x 0 2 .fp64) (fmtLanes .fp64) ∧
    ready 16 (.vfma r0 { fmt := .fp64, rnd := .toZero } 4 2 2 6) (wA 0x53 0x44 0x42 0x42 0x46 0 2) (fun x => v2 .fp64 2 2 x ++ vSpecs x 0 6 .fp64) (fmtLanes .fp64) ∧
    ready 64 (.vadd r0 { fmt := .bf16, rnd := .stoch, sr := 63 } 4 1 2) (wA 0x50 0x44 0x41 0x42 0 2 1 63) (v2 .bf16 1 2) (fmtLanes .bf16) ∧
    ready 32 (.vmul r0 { fmt := .int32 } 4 1 2) (wA 0x52 0x44 0x41 0x42 0 12) (v2 .int32 1 2) (fmtLanes .int32) := by
  unfold ready State.Issues State.At; decide +kernel
theorem meets_MovesAndConversions :
    ready 32 (.vcmp r0 f32o 4 1 2 .le) (wV 0x59 0x41 0x42 3) (v2 .fp32 1 2) (fmtLanes .fp32) ∧
    ready 32 (.vsel r0 f32o 4 1 2 3) (wV 0x5A 0x41 0x42 0x43) (fun x => v2 .fp32 1 2 x ++ vSpecs x 0 3 .fp32) (fmtLanes .fp32) ∧
    ready 32 (.vbcast r0 f32o 4 1) (wV 0x5B 1 0) (fun _ => [spS 0 1]) (fmtLanes .fp32) ∧
    (ready 31 (.vshuf r0 f32o 4 1 2 2) (wV 0x67 0x41 0x42 2) (fun x => [spV x 0 1, spV x 0 2, spS 0 2]) (fmtLanes .fp32) ∧
      (((sVL 31 0).ctxOf r0).getS 2).toNat < 32 ∧ 2 ^ bits (((sVL 31 0).ctxOf r0).getS 2).toNat 4 2 ≤ fmtLanes .fp32 / 2) ∧
    (ready 32 (.vcvt r0 { fmt := .bf16, mon := some 7 } 4 1 .fp32) (wA 0x58 0x44 0x41 1 0 2 0 0 15) (fun x => vSpecs x 0 1 .fp32) (fmtLanes .fp32) ∧
      fmtLanes .fp32 ≤ fmtLanes .bf16) ∧
    ready 128 (.vpack r0 { fmt := .e2m1 } 4 8 1) (wA 0x68 0x44 0x48 0 1 8) (fun x => spS 0 1 :: (upto 8 4).map (spV x 0)) 128 ∧
    ready 1 (.vpack r0 { fmt := .e4m3, mon := some 0 } 4 8 1) (wA 0x68 0x44 0x48 0 1 5 0 0 8) (fun x => spS 0 1 :: (upto 8 4).map (spV x 0)) 128 := by
  unfold ready State.Issues State.At; decide +kernel
/-- VL 32 of VPERM, and VL 128, past every lane, of VUNPK. -/
theorem meets_PermuteAndUnpack :
    ready 32 (.vperm r0 f32o 4 1 2) (wV 0x66 0x41 0x42) (fun x => [spV x 0 1, spV x 0 2]) (fmtLanes .fp32) ∧
    ready 128 (.vunpk r0 { fmt := .int4 } 28 1 1) (wA 0x69 0x5C 0x41 0 1 10) (fun x => [spS 0 1, spV x 0 1]) 128 := by
  unfold ready State.Issues State.At; decide +kernel
theorem meets_ReductionsAndMonitors :
    (ready 32 (.vred r0 { fmt := .fp32, mon := some 7 } 15 1 .sumsq) (wA 0x5C 15 0x41 2 0 1 0 0 15) (fun x => vSpecs x 0 1 .fp32) (fmtLanes .fp32) ∧
      ((sVL 32 0).reed 0).msumpBusy = false) ∧
    (∀ e ∈ [(Instr.vstat r0 f32o 2 1 .init, 0), (.vstat r0 f32o 2 1 .accum, 1), (.vstat r0 f32o 2 1 .finish, 2)],
      ready 32 e.1 (wA 0x5D 0x42 0x41 e.2 0 1) (fun x => [spV x 0 2, spV x 0 1]) (fmtLanes .fp32)) := by
  unfold ready State.Issues State.At; decide +kernel
theorem meets_FunctionsAndSoftMaximum :
    (∀ e ∈ [(Instr.vexp r0 4 1, 0x60), (.vlog r0 4 1, 0x61), (.vrsqrt r0 4 1, 0x62), (.vsigm r0 4 1, 0x63), (.vtanh r0 4 1, 0x64)],
      ready 32 e.1 (wV e.2 0x41 0) (fun x => [spV x 0 1]) 32) ∧
    (ready 32 (.vrand r0 4 2 3 0) (wV 0x5E 2 3 0) (fun _ => [spS 0 2, spS 0 3, spS 0 0]) 32 ∧ (((sVL 32 0).ctxOf r0).getS 2).toNat < 2 ^ 24) ∧
    ready 32 (.vsmax r0 (.init 4 7)) (wV 0x65 0 0 28) (fun x => [spV x 0 4]) 32 ∧
    ready 1 (.vsmax r0 (.accum 4 1 7)) (wV 0x65 0x41 0 29) (fun x => [spV x 0 4, spV x 0 1]) 32 ∧
    ready 32 (.vsmax r0 (.finish 15 2 0)) (wA 0x65 15 0 0x42 2 1) (fun x => [spV x 0 2]) 32 ∧
    ready 32 (.vsmax r0 (.emit 4 1 2 0)) (wV 0x65 0x41 0x42 3) (fun x => [spV x 0 1, spV x 0 2]) 32 := by
  unfold ready State.Issues State.At; decide +kernel
/-- A buffer's last 128 bytes, and the last piece of a tile; a VL of 0 and one of 33. -/
theorem meets_VectorMemory :
    (let s := at_ (wVM 0x6A 0x45 1 3 1 128) { reedV with handles := [(1, handleBits 1 0 1)] }
     s.Issues r0 [] ∧ s.At r0 .exec (.vld r0 5 ha1 128 true) ∧ okAt ((s.unfenced r0).vmAddr r0 ha1 128 false) (.spad 0) 128 = true) ∧
    (let s := at_ (wVM 0x6B 0x41 1 3 0 0) { reedV with tags := [] }
     s.Issues r0 [spV (s.reed 0) 0 1] ∧ s.At r0 .exec (.vst r0 1 ha1 0) ∧ okAt ((s.unfenced r0).vmAddr r0 ha1 0 true) (.spad 0) 0 = true) ∧
    (∀ e ∈ [(Instr.vtile r0 (.s 6), wVM 0x6C 6 0 0 0 0, 0), (.vtile r0 (.v 6), wVM 0x6C 0x46 0 0 0 0, 0), (.vtile r0 (.v 6), wVM 0x6C 0x46 0 0 0 0, 127)],
      let s := at_ e.2.1 { reedV with fin := [{ acc := 3, rows := 64, cols := 64, piece := e.2.2, op := 0 }] }
      s.Issues r0 [] ∧ s.At r0 .exec e.1 ∧ (s.reed 0).fin = [{ acc := 3, rows := 64, cols := 64, piece := e.2.2, op := 0 }]) ∧
    (let s : State := { sVL 0 (wV 0x50 0x41 0x42) with tus := [(0, { owner := some 7 })] }
     s.Issues r0 (v2 .fp32 1 2 (s.reed 0)) ∧ (s.ctxOf r0).vl = 0 ∧ s.partOf 0 = some 7 ∧ (s.part 7).run = none ∧ (s.part 7).faultNote = none ∧
       s.At r0 .exec (.vadd r0 f32o 4 1 2)) ∧
    (let s := sVL 33 (wV 0x50 0x41 0x42)
     s.Issues r0 (v2 .fp32 1 2 (s.reed 0)) ∧ fmtLanes .fp32 < (s.ctxOf r0).vl.toNat ∧ s.At r0 .exec (.vadd r0 f32o 4 1 2)) := by
  unfold State.Issues State.At; decide +kernel

/-! ### Events of the reeds -/

/-- A reed between firings, before one whose slack of 3 cycles has run out, sampled at every firing. -/
def reedF : Reed := { reedIn with inBody := false, pmem := [(0, 0xF003000002006000#64), (1, 0)], cycle := 4, csCtl := 0x80000000 }
/-- Its FIRE word: slack 3, two firings, a body of 6 words. -/
def fire3 : FireHdr := { slack := 3, count := 2, body := 6, guards := 0 }
/-- R85, R87: the body begins; a start after the slack is counted, one within it is not. -/
theorem test_firing_late : ((nx (exec (.firingStart 0) (sIn reedF))).reed 0).inBody = true ∧ ((nx (exec (.firingStart 0) (sIn reedF))).reed 0).slack = 1 := by decide +kernel
theorem test_firing_in_time : ((nx (exec (.firingStart 0) (sIn { reedF with cycle := 3 }))).reed 0).slack = 0 := by decide +kernel
/-- R50: exactly one counter of a reed counts in a cycle, DRAIN's of a draining reed. -/
theorem test_reed_cycle : Tbl.lk 0 ((nx (exec (.reedCycle 0) { sRun with reeds := [(0, { reedF with status := .drain, told := true })] })).reed 0).idle 11 = 1 := by decide +kernel
theorem test_operation_complete : ((nx (exec (.operationComplete 0 4) (sIn { reedIn with ops := [{ id := 4, kind := .vector }] }))).reed 0).ops = [] := by decide +kernel
theorem test_clock_gate : ((nx (exec (.clockGate (.reed 0)) (sIn reedF))).reed 0).gated = true := by decide +kernel
/-- The section's run before its start at a tick, its tussock holding the start token. -/
def run0 (t : W64) : Run := { sec := sec1, step := 0, tick := some t }
/-- A state in which it waits in partition p, and a broadcast is held at tussock 0. -/
def sStart (p : Nat) (t : W64) : State := { sRun with tus := [(0, { owner := some p, bcasts := [(0, 0, BitVec.ofNat 64 p)] })], parts := [(p, { run := some (run0 t) })] }
theorem test_start_token : ((nx (exec (.startToken 0) (sStart 0 0))).reed 0).cycle = 0 := by decide +kernel
theorem test_broadcast : Tbl.lk 0 ((nx (exec (.broadcastApply 0) { sIn { reedF with idle := [(3, 9)] } with tus := [(0, { bcasts := [(0, 4, 0)] })] })).reed 0).idleSnap 3 = 9 := by
  decide +kernel
theorem test_snapshot_completed :
    (nx (exec .snapshotCompleted { sIn { reedF with idleSnap := [(3, 9)] } with snap := some { value := 0x20000000, issued := 5, apply := 69 } })).get 0x7000 2 = 1 := by decide +kernel

theorem meets_FiringStarts :
    (let s := sIn reedF
     (s.reed 0).status = .running ∧ (s.reed 0).inBody = false ∧ (s.reed 0).threads = 0 ∧ (s.reed 0).issued = false ∧ (s.reed 0).started = false ∧
       (s.reed 0).fireAt (s.reed 0).block = some fire3 ∧ s.firingWait 0 fire3 = .holds ∧
       (s.reed 0).bodyPc (s.reed 0).block ≠ (s.reed 0).block + 2 + fire3.guards + fire3.body) ∧
    (let s := sIn { reedF with pmem := [(0, 0xF003000002001000#64), (1, 0), (2, 0x3008000012000000)] }
     (s.reed 0).fireAt 0 = some { fire3 with body := 1 } ∧ s.firingWait 0 { fire3 with body := 1 } = .holds ∧ (s.reed 0).bodyPc 0 = 0 + 2 + 0 + 1) ∧
    (let s : State := { sIn reedF with power := { hold := true } }
     (s.reed 0).status = .running ∧ (s.reed 0).inBody = false ∧ (s.reed 0).threads = 0 ∧ (s.reed 0).issued = false ∧ (s.reed 0).started = false ∧
       (s.reed 0).fireAt (s.reed 0).block = some fire3 ∧ s.firingWait 0 fire3 = .unmet .throttleLocal) := by refine ⟨?_, ?_, ?_⟩ <;> decide +kernel
/-- A quiet tussock, and one whose clocks are held; each unit that may stop its clock; each kind of operation that ends. -/
theorem meets_ReedEventsComplete :
    ((sIn reedF).fenHeld (fenOf 255) = false ∧ (∀ q, tusOf q = 255 → ((sIn reedF).reed q).samples = [] ∧ ((sIn reedF).reed q).ringBlocks = false ∧
        ((sIn reedF).reed q).csWait = [] ∧ (∀ m, m ∈ ((sIn reedF).reed q).matq → m.done = true) ∧
        (((sIn reedF).reed q).status = .drain → ((sIn reedF).reed q).told = true)) ∧
      (∀ x, x ∈ (sIn reedF).xfers → tusOf x.reed = 255 → x.mode ≠ 2) ∧ ((sIn reedF).tus1 255).groups = []) ∧
    ({ sIn reedF with fens := [(1, { recovering := some { step := 3 } })] } : State).fenHeld 1 = true ∧
    (((sIn reedF).reed 0).issued = false ∧ (sIn reedF).advances 0 = false ∧ ((sIn reedF).reed 0).matq = []) ∧
    (let s : State := { sIn reedF with tus := [(255, { paths := [(15, { mode := .split })] })] }
     (s.path 255 15).ctl.toks = []) ∧
    (let o : OpRec := { id := 4, kind := .store, acks := 0 }
     let x := (sIn { reedIn with ops := [o, { id := 5, kind := .vector }] }).reed 0
     x.ops.find? (fun p => p.id == 4) = some o ∧ (∀ m, m ∈ x.matq → m.done = true) ∧ o.kind = .store ∧ o.acks = 0 ∧
       x.ops.find? (fun p => p.id == 5) = some { id := 5, kind := .vector }) ∧
    (∀ k ∈ [MatKind.msump 3 15 (.spad 0) 0, .mout 3, .mclr 3],
     let m : MatOp := { op := 6, kind := k, done := true }
     let s := sIn { reedIn with ops := [{ id := 6, kind := .matrix }], matq := [m] }
     (s.reed 0).ops.find? (fun p => p.id == 6) = some { id := 6, kind := .matrix } ∧ (∀ e, e ∈ (s.reed 0).matq → e.done = true) ∧
       (s.reed 0).matq = [m] ∧ m.op = 6 ∧ s.sumpWaits 0 (· == 6) = false) := by
  refine ⟨⟨by decide +kernel, fun q h => ?_, by decide, by decide⟩, ?_, ?_, ?_, ?_, ?_⟩
  · have h2 : q ≠ 0 := by rintro rfl; simp [tusOf] at h
    simp [sIn, State.reed, Tbl.lk, Ne.symm h2]
  all_goals decide +kernel
theorem meets_StartsAndSnapshots :
    (let s := sStart 7 0
     (s.part 7).run = some (run0 0) ∧ s.mayStart (run0 0) = true ∧ s.inMire = false ∧ s.tokenHeld 7 sec1 = true ∧ sec1.reeds.Nodup) ∧
    (let s : State := { timeBase := 69, tus := [(255, { bcasts := [(69, 4, 0x2000000080000000)] })] }
     (s.tus1 255).bcasts = [(69, 4, 0x2000000080000000)] ∧ s.due 69 = true ∧
       (let s : State := { s with tus := [(0, { bcasts := [(69, 4, 0)] })] }
        (s.tus1 0).bcasts = [(69, 4, 0)] ∧ s.inScope ((0 : W64).toNat / 2 ^ 32) 0 = true)) ∧
    (let s : State := { timeBase := 69, tus := [(255, { owner := some 7, bcasts := [(69, 1, 15)] })] }
     (s.tus1 255).bcasts = [(69, 1, 15)] ∧ s.due 69 = true ∧ (s.tus1 255).owner = some ((15 : W64).toNat % 8)) ∧
    (let k : Snap := { value := 0, issued := 5, apply := 69 }
     let s : State := { snap := some k, tus := [(0, { bcasts := [(69, 5, 0)] })] }
     s.snap = some k ∧ s.snapWait = [] ∧ s.snapPending = false) := by
  refine ⟨?_, ?_, ?_, ?_⟩ <;> decide +kernel

/-! ### What arrives over the dyke mesh -/

/-- A packet from tussock 1 to tussock 0. -/
def pkt (p : Payload) : Pkt := { src := .tus 1, dst := .tus 0, port := 0, rsp := p.rsp, epoch := 0, flits := p.flits, pay := p }
/-- A state in which it has arrived at tussock 0. -/
def sArr (x : Reed) (p : Payload) : State := { reeds := [(0, x)], tus := [(0, { arrived := [pkt p] })] }
/-- A fill of the last slot of a scratchpad. -/
def w15 : FillW := { space := .spad 0, slot := 1023, data := [0xAA, 0xBB] }
/-- A load of one slot into the last slot of a scratchpad, from the pool of tussock 0. -/
def ld (id : Nat) (q : Nat) : Xfer := { id := id, reed := q, kind := .load, src := .pool 0, srcBase := 3, dst := .spad q, dstBase := 1023, slots := 1 }
/-- A state in which a packet of loads 4 and 5 has arrived. -/
def sLd (p : Payload) : State := { sArr {} p with xfers := [ld 4 0, ld 5 1] }

/-- R103: a fill write lands and turns its slot FULL; R104: a slot that is not EMPTY holds it. -/
theorem test_fill : (nx (exec (.fillWriteArrive (.tus 0) 0) (sArr {} (.fill w15 none 0)))).tag (.spad 0) 1023 = .full ∧
    ((nx (exec (.fillWriteArrive (.tus 0) 0) (sArr {} (.fill w15 none 0)))).reed 0).spad.get (256 * 1023 + 1) = 0xBB := by decide +kernel
theorem test_fill_held : ((nx (exec (.fillWriteArrive (.tus 0) 0) (sArr { tags := [(1023, .full)] } (.fill w15 none 0)))).reed 0).hold = [w15] := by decide +kernel
theorem test_held_release : ((nx (exec (.heldFillRelease (.reed 0) 0) (sIn { hold := [w15] }))).reed 0).hold = [] := by decide +kernel
theorem test_ack_last : ((nx (exec (.writeAckArrive (.tus 0) 0) (sArr { ops := [{ id := 2, kind := .store, acks := 1 }] } (.ack 0 2)))).reed 0).ops = [] := by decide +kernel
/-- R118: a token of its tussock's epoch is the last of its queue; one of another epoch is discarded. -/
theorem test_token : ((nx (exec (.queueTokenArrive (.tus 0) 0) (sArr {} (.token tok1 (.queue 0 7))))).inq 0 7).toks = [tok1] := by decide +kernel
theorem test_token_stale :
    ((nx (exec (.queueTokenArrive (.tus 0) 0) { (sArr {} (.token tok1 (.queue 0 7))) with tus := [(0, { epoch := 1, arrived := [pkt (.token tok1 (.queue 0 7))] })] })).inq 0 7).toks = [] := by
  decide +kernel
/-- R125: a null packet brings its tokens at once, the last with LAST and NULL. -/
theorem test_null : ((nx (exec (.nullPacketArrive 0 0) (sArr {} (.null 2 3 (.queue 0 7))))).inq 0 7).toks.map (fun t => t.tag) = [0xA0000003, 0xE0000003] := by decide +kernel
theorem test_read_response : (nx (exec (.readResponseArrive 0 0) (sLd (.readResp 4 0 [0x11])))).xfers = [ld 5 1] := by decide +kernel
theorem test_merged : (nx (exec (.mergedReadResponseArrive 0 0) (sLd (.merged [4, 5] 0 [0x11])))).tag (.spad 1) 1023 = .full := by decide +kernel
theorem test_read_request : ((nx (exec (.readRequestArrive (.tus 0) 0 []) (sLd (.readReq 4)))).tus1 0).groups.length = 1 := by decide +kernel
theorem test_pointer_fails : ((nx (exec (.queuePointer (.inQueue 0 7) 1 2 0 0) (sIn { qi := [(7, { toks := [tok1] })] }))).inq 0 7).toks = [] := by decide +kernel
/-- R124: a control token pairs with its packet, and the path counts. -/
def sluice : Path := { mode := .split, ctlReed := 0, fanM1 := 1, packetTokens := 1, epOne := 9, epBase := 0,
                       ctl := { toks := [{ tag := tokTag false false true 0 0, data := 1 }] }, data := [(0, { toks := [tok2] })] }
/-- Endpoints 0 and 1: queues 2 and 3 of reed 0. -/
def sSl (x : Path := sluice) : State := { tus := [(0, { paths := [(15, x)], eps := [(0, 0x80010000), (1, 0x80018000)] })] }
theorem test_sluice : ((nx (exec (.sluicePair 0 15) (sSl))).path 0 15).k = 1 ∧ ((nx (exec (.sluicePair 0 15) (sSl))).inq 0 3).toks = [tok2] ∧
    ((nx (exec (.sluicePair 0 15) (sSl))).inq 0 2).toks.map (fun t => t.tag) = [0xE0000000] := by decide +kernel

theorem meets_FillsLand :
    (let p := pkt (.fill w15 none 0)
     let s := sArr {} (.fill w15 none 0)
     w15.space = .spad 0 ∧ w15.plain = false ∧ w15.ack = none ∧ s.arrival (.tus 0) 0 = some p ∧ p.pay = .fill w15 none 0 ∧ s.fresh? p 0 = true ∧
       s.tag (.spad 0) w15.slot = .empty ∧ granted (s.bankAsk (.spad 0) (256 * w15.slot + w15.off) w15.data.length 1) = true) ∧
    (let s := sArr { tags := [(1023, .full)], hold := [w15, w15, w15] } (.fill w15 none 0)
     s.arrival (.tus 0) 0 = some (pkt (.fill w15 none 0)) ∧ s.tag (.spad 0) w15.slot = .full ∧ (s.reed 0).hold.length < 4) ∧
    (let s := sIn { hold := [w15, w15, w15, w15] }
     (s.reed 0).hold[3]? = some w15 ∧ s.tag (.spad 0) w15.slot = .empty ∧
       granted (s.bankAsk (.spad 0) (256 * w15.slot + w15.off) w15.data.length 1) = true) ∧
    (let s := sArr { ops := [{ id := 2, kind := .store, acks := 1 }, { id := 3, kind := .store, acks := 2 }] } (.ack 0 2)
     s.arrival (.tus 0) 0 = some (pkt (.ack 0 2)) ∧ (s.reed 0).ops.find? (fun x => x.id == 2) = some { id := 2, kind := .store, acks := 1 } ∧
       (s.reed 0).ops.find? (fun x => x.id == 3) = some { id := 3, kind := .store, acks := 2 }) := by
  refine ⟨?_, ?_, ?_, ?_⟩ <;> decide +kernel
theorem meets_ReadsAreServed :
    (let s := sLd (.readReq 4)
     s.arrival (.tus 0) 0 = some (pkt (.readReq 4)) ∧ s.xfer? 4 = some (ld 4 0) ∧ (ld 4 0).src = .pool 0 ∧
       (∀ e, e ∈ (s.tus1 0).groups → e.takes (ld 4 0) (s.tus1 0).cycles = false)) ∧
    (let h : Group := { id := 9, base := 0, slots := 1, mode := 0, run := 0, stride := 0, members := [4] }
     let s : State := { hbmStacks := [(7, { groups := [h] })], tus := [(0, { groups := [h] })] }
     (s.stack 7).groups.find? (fun e => e.id == 9 && decide (e.until_ ≤ s.meshNow)) = some h ∧
       (∀ e, e ∈ (s.tus1 0).groups → e.next < e.slots ∧ s.tag (.pool 0) (e.slot e.next) ≠ .full) ∧ ((s.tus1 0).groups.map (fun e => e.id)).Nodup) ∧
    (let s := sLd (.readResp 4 0 [0x11])
     s.arrival (.tus 0) 0 = some (pkt (.readResp 4 0 [0x11])) ∧ s.xfer? 4 = some (ld 4 0) ∧ (ld 4 0).dst = .spad 0 ∧ (ld 4 0).mode ≠ 2 ∧
       (ld 4 0).inTurn 0 = true ∧ s.tag (.spad 0) ((ld 4 0).dstSlot 0) = .empty ∧ granted (s.bankAsk (.spad 0) (256 * (ld 4 0).dstSlot 0) 256 1) = true) ∧
    (let s := sLd (.merged [4, 5] 0 [0x11])
     s.arrival (.tus 0) 0 = some (pkt (.merged [4, 5] 0 [0x11])) ∧ s.xfer? 4 = some (ld 4 0) ∧ s.xfer? 5 = some (ld 5 1) ∧ 4 ≠ 5 ∧
       (ld 4 0).dst = .spad 0 ∧ (ld 5 1).dst = .spad 1 ∧ 0 ≠ 1 ∧ (ld 4 0).mode ≠ 2 ∧ (ld 5 1).mode ≠ 2 ∧ (ld 4 0).inTurn 0 = true ∧ (ld 5 1).inTurn 0 = true ∧
       s.tag (.spad 0) ((ld 4 0).dstSlot 0) = .empty ∧ s.tag (.spad 1) ((ld 5 1).dstSlot 0) = .empty ∧
       granted (s.bankAsk (.spad 0) (256 * (ld 4 0).dstSlot 0) 256 1) = true ∧
       granted (((asked (s.bankAsk (.spad 0) (256 * (ld 4 0).dstSlot 0) 256 1)).landSlot (ld 4 0) 0 [0x11]).bankAsk (.spad 1) (256 * (ld 5 1).dstSlot 0) 256 1) = true) := by
  refine ⟨?_, ?_, ?_, ?_⟩ <;> decide +kernel
theorem meets_TokensArrive :
    (let s := sArr {} (.token tok1 (.queue 0 7))
     let p := pkt (.token tok1 (.queue 0 7))
     s.arrival (.tus 0) 0 = some p ∧ s.fresh? p 0 = true ∧ (s.inq 0 7).dropping = false ∧
       ({ s with tus := [(0, { epoch := 7 })] } : State).fresh? p 0 = false) ∧
    (let s := sArr {} (.null 4095 3 (.queue 0 7))
     s.arrival (.tus 0) 0 = some (pkt (.null 4095 3 (.queue 0 7))) ∧ s.fresh? (pkt (.null 4095 3 (.queue 0 7))) 0 = true ∧ (s.inq 0 7).dropping = false) ∧
    (let s := sArr {} (.trickle [w15])
     s.arrival (.tus 0) 0 = some (pkt (.trickle [w15])) ∧ s.fresh? (pkt (.trickle [w15])) 0 = true ∧ w15.space = .spad 0 ∧ w15.plain = false ∧
       w15.ack = none ∧ s.tag (.spad 0) w15.slot = .empty ∧ granted (s.bankAsk (.spad 0) (256 * w15.slot + w15.off) w15.data.length 4) = true) ∧
    (let s : State := { tus := [(0, { batches := [(255, 5, [w15])] })], timeBase := 37 }
     Tbl.lk? (s.tus1 0).batches 255 = some (5, [w15]) ∧ (5 : W64).toNat + 32 ≤ s.timeBase.toNat ∧
       ({ s with timeBase := 36 } : State).timeBase.toNat < (5 : W64).toNat + 32) ∧
    pointersOk 32 32 0 0 = true ∧ pointersOk 33 33 0 0 = false ∧ pointersOk 1 2 0 0 = false ∧ (sIn {}).partOf 0 = none := by
  refine ⟨?_, ?_, ?_, ?_, ?_⟩ <;> decide +kernel
theorem meets_SluicesAndTierReads :
    (let x := (sSl).path 0 15
     x.mode ≠ .off ∧ x.fwd = none ∧ x.sent = [] ∧ 0 < x.packetTokens ∧ x.ctl.toks = sluice.ctl.toks ∧ (1 : Nat) ≤ x.fanM1 ∧
       (∀ i, i < x.inputs.length → x.packetTokens ≤ (Tbl.lk {} x.data i).toks.length ∧ (Tbl.lk {} x.data i).toks.head? = some tok2) ∧
       tok2.seq = x.k ∧ (∀ c, c ∈ x.ctl.toks → c.seq = x.k ∧ c.data.toNat % 2 ^ 32 < 16) ∧ (∀ i, i < x.dests.length → x.packetTokens ≤ Tbl.lk 32 x.cr i) ∧
       x.mode = .split ∧ tusOf ((sSl).endpoint 0 (x.epBase + 1)).reed = 0 ∧ ((sSl).inq ((sSl).endpoint 0 1).reed ((sSl).endpoint 0 1).queue).dropping = false ∧
       (((sSl).endpoint 0 0).reed, ((sSl).endpoint 0 0).queue) ≠ (((sSl).endpoint 0 1).reed, ((sSl).endpoint 0 1).queue)) ∧
    (let x := (sSl { sluice with packetTokens := 2, fwd := some 1 }).path 0 15
     x.mode ≠ .off ∧ x.fwd = some 1) ∧
    (let x : Xfer := { ld 4 0 with src := .hbm 0, srcBase := 18, slots := 18, chan := 1, buf := [0x77], sent := 17 }
     let s : State := { xfers := [x], retries := [{ xfer := 4, idx := 0 }] }
     s.xfer? x.id = some x ∧ x.chan ≠ 0 ∧ x.chan ≠ 2 ∧ s.retries.find? (fun r => r.xfer == x.id) = some { xfer := 4, idx := 0 } ∧
       (match ({ s with retries := s.retries.filter (fun r => r.xfer != x.id) }).tierRead x.part x.src (x.srcAddr 0) (dataOr x.src []) with
        | .ok _ _ => true | _ => false) = true) ∧
    (let x : Xfer := { ld 4 0 with src := .host 0, srcBase := 18, slots := 18, chan := 1, buf := [0x77], sent := 17 }
     let s : State := { xfers := [x], parts := [(0, { buckets := [(bucketKey 1 0, { tokens := 256 })] })] }
     s.chanHead 0 1 0 = some x ∧ (1 : Nat) ≠ 0 ∧ x.halted = false ∧ x.trans = false ∧ x.retry = false ∧ (1 : Nat) ≠ 2 ∧ x.buf ≠ [] ∧
       256 ≤ (s.bucket 0 1 0).tokens) ∧
    (let x : Xfer := { ld 4 0 with kind := .store, src := .spad 0, dst := .host 0, dstBase := 0, slots := 18, chan := 2, stage := [(16, [0x99])], sent := 16 }
     let s : State := { xfers := [x], parts := [(0, { buckets := [(bucketKey 2 0, { tokens := 256 })] })] }
     s.chanHead 0 2 0 = some x ∧ x.halted = false ∧ x.trans = false ∧ x.retry = false ∧ x.mode ≠ 2 ∧ x.sent % 18 ≠ 17 ∧
       (match s.backData x x.sent .stored with | .ok _ d => d == [0x99] | _ => false) = true ∧ 256 ≤ (s.bucket 0 2 0).tokens) := by
  refine ⟨?_, ?_, ?_, ?_, ?_⟩ <;> decide +kernel

/-! ### Checked memories, limits, the mesh and the rill -/

/-- Values of dictionary entries. -/
def dct (l : List (Nat × Nat × Nat)) : Tbl Nat := l.map (fun e => (dk e.1 e.2.1, e.2.2))

/-- R115: a second read that succeeds has its data 3 reed cycles later. -/
theorem test_ecc_transient : ((nx (exec (.eccRetryRead (.spad 5 4095) true) { reeds := [(5, {})] })).reed 5).corr = [(4095, 3)] := by decide +kernel
theorem test_memory_retest : (nx (exec (.memoryRetest (.hbmRegion 7 49151) false) {})).isOut (hbmUnit 7 49151) = true := by decide +kernel
/-- R116: the scrubber counts a corrected word, and moves on by 8 in its bank. -/
theorem test_scrub_corrected : (nx (exec (.scrubWord (.spad 0 7) .corrected) {})).get 0x6040 2 = 1 ∧
    (nx (exec (.scrubWord (.spad 0 7) .corrected) {})).scrubs (.spad 0 15) = true ∧ ({} : State).scrubs (.spad 0 15) = false := by decide +kernel
/-- R357: a released range reads as zero once zeroed, and no byte outside it changes. -/
theorem test_zeroing : ((nx (exec (.placementZeroingComplete 7) { hbmStacks := [(7, { mem := [(0, 1), (4608, 2), (9216, 3)], zeroing := [(4608, 4608)] })] })).stack 7).mem = [(0, 1), (9216, 3)] := by
  decide +kernel
/-- The running section of partition 0, with what its run holds. -/
def sRun1 (u : Run) (t : W64 := 0) : State := { sRun with timeBase := t, parts := [(0, { run := some u })] }
def runEnded : Run := { sec := sec1, step := 0, phase := .running, ended := some 0 }
theorem test_drain_limit : ((nx (exec (.drainLimit 0) (sRun1 runEnded 65536))).part 0).run = none := by decide +kernel
theorem test_progress_limit : ((nx (exec (.progressLimit 0) { sRun with timeBase := 0xFFFFFFFFFFFFFFFF })).part 0).run = none := by decide +kernel
/-- R415: the link that fails is south of router 255 (code 2), not port 2 of the side word. -/
theorem test_flit_replay : (nx (exec (.flitReplay 1 15 .north true) {})).get 0x7500 5 = 1 ∧ (nx (exec (.flitReplay 1 15 .south false) {})).isOut (linkUnit 1 2 15) = true := by decide +kernel
theorem test_stamp :
    ((nx (exec (.stampAdvance (.mesh 0 0 .loc) 1) { timeBase := 0x20000, mesh := [(0, { bufs := [(1, [{ pkt (.ack 0 2) with age := 0 }])] })] })).buf 0 0 1).map (fun p => p.age) = [0x1000] := by
  decide +kernel
/-- R255: a back-off count that has come to 0 is dropped, and one that has not stays. -/
def sBack (end_ : Nat) : State := { arbs := [(arbKey 0 0 .loc, { back := [(3, (end_, 6))] })], timeBase := 5 }
theorem test_backoff : (sBack 0).arb (arbKey 0 0 .loc) = { back := [(3, (0, 6))] } ∧ ((sBack 9).arb (arbKey 0 0 .loc)).b (sBack 9).meshNow 3 = 4 := by decide +kernel
/-- A message from tussock 0. -/
def rmsg (destT port type : Nat) (words : List W32 := []) : RillMsg := { destT := destT, port := port, type := type, epoch := 0, words := words, srcT := 0 }
/-- R252: a message leaves its router by column first. -/
theorem test_rill_route : (Tbl.lk [] (nx (exec (.rillRoute 0 .east) { rillq := [(0, [rmsg 17 26 3])] })).rillq 16).length = 1 := by decide +kernel
/-- A token at router 0 for tussock 0, waiting to enter, and in an input buffer. -/
def tokPkt : Pkt := { pkt (.token tok1 (.queue 0 0)) with leaf := 2 }
theorem test_mesh_route : ((nx (exec (.meshPacketRoute 0 0 .loc) { mesh := [(0, { bufs := [(0, [tokPkt])] })] })).arrivals (.tus 0)).map (fun p => p.pay) = [.token tok1 (.queue 0 0)] := by
  decide +kernel

theorem meets_MemoryChecks :
    (({} : State).scrubs (.spad 6143 7) = true ∧ ({} : State).scrubs (.spad 6143 8) = false ∧ (({} : State).tus1 (tusOf 6143)).owner = none) ∧
    (let h : Group := { id := 9, base := 0, slots := 1, mode := 0, run := 0, stride := 0, members := [4] }
     (({ hbmStacks := [(7, { groups := [h] })] } : State).stack 7).groups.find? (fun e => e.id == 9) = some h) ∧
    (({ hbmStacks := [(7, { zeroing := [(4608, 4608)] })] } : State).stack 7).zeroing = (4608, 4608) :: [] := by decide +kernel
theorem meets_ExpiredLimitsFault :
    (let m : RillMsg := { rmsg 0 26 7 [0, 5] with fp := 0x1234 }
     let s : State := { sRun with lodes := [(23, { rillIn := [m] })] }
     ∃ u, (s.part 0).run = some u ∧ (s.mireMail (some 23))[0]? = some m ∧ m.type = 7 ∧ (m.w 0).toNat % 8 = 0 ∧ s.fp 0 = m.fp) ∧
    (let s := sRun1 runEnded
     (s.part 0).run = some runEnded ∧ runEnded.phase = .running ∧ runEnded.ended = some 0 ∧ s.drained 0 runEnded.sec = false ∧
       ({ s with timeBase := 65536 } : State).past runEnded.ended runEnded.sec.drainLimit = true ∧
       ({ s with timeBase := 65535 } : State).past runEnded.ended runEnded.sec.drainLimit = false) ∧
    (let u : Run := { sec := sec1, step := 0, phase := .running }
     let s : State := { sRun with dict := dct [(0x5010, 3, 1)] }
     (s.part 0).run = some u ∧ u.phase = .running ∧ s.allEnded u.sec = false ∧ s.held 0 u.sec = false ∧
       ({ s with timeBase := 1600000 } : State).past (some u.progress) (msCycles (s.get 0x5010 3)) = true ∧
       ({ s with timeBase := 1599999 } : State).past (some u.progress) (msCycles (s.get 0x5010 3)) = false) ∧
    (let r : PageReq := { xfer := 4, group := 2, sent := 0, limit := 1, outstanding := true }
     let s : State := { sRun with ports := [(1, { reqs := [r] })], xfers := [ld 4 0], timeBase := 1600000 }
     (s.port 1).reqs.find? (fun e => e.group == 2 && e.outstanding) = some r ∧ s.xfer? r.xfer = some (ld 4 0) ∧ s.partOf (ld 4 0).reed = some 0 ∧
       r.sent.toNat + msCycles r.limit ≤ s.timeBase.toNat ∧ ({ s with timeBase := 1599999 } : State).timeBase.toNat < r.sent.toNat + msCycles r.limit) ∧
    (let e : Resup := { idx := 3, serial := 0, tensor := 7, row := 0, col := 0, space := .hbm 0, addr := 0, opened := 0, limit := 1 }
     let s : State := { parts := [(0, { run := some { sec := sec1, step := 0 }, resup := [e] })], timeBase := 1600001 }
     (s.part 0).resup.find? (fun r => r.idx == 3) = some e ∧ e.opened.toNat + msCycles e.limit < s.timeBase.toNat ∧
       ({ s with timeBase := 1600000 } : State).timeBase.toNat ≤ e.opened.toNat + msCycles e.limit) ∧
    (let x : Xfer := { ld 4 0 with halted := true, fault := .windowClosed, limitAt := 9 }
     let s : State := { sRun with xfers := [x], timeBase := 9 }
     s.xfer? 4 = some x ∧ s.partOf x.reed = some 0 ∧ x.halted = true ∧ x.fault = .windowClosed ∧ x.limitAt ≤ s.timeBase.toNat) ∧
    (let sl : SumpSlot := { part := 0, group := 15, seq := 1, sentAt := some 0, limitAt := 5 }
     let s : State := { sRun with sump := [(1, { slots := [sl] })], dict := dct [(0x3600, 1, 1)], timeBase := 1600000 }
     (s.boundGroups 0).find? (fun y => y.group == 15) = some grp ∧ s.slot? 0 15 1 = some sl ∧ msCycles (s.get 0x3600 1) ≤ s.timeBase.toNat - sl.since.toNat ∧
       sl.sentAt = some 0 ∧ sl.due = false ∧ sl.limitAt ≤ s.timeBase.toNat) ∧
    (let m : Mcast := { part := 0, group := 31, seq := 6, slots := 1, parent := none, kids := [], limitAt := 5 }
     let s : State := { sRun with mcasts := [m], timeBase := 5 }
     s.mcast? 0 31 s.self 6 = some m ∧ m.limitAt ≤ s.timeBase.toNat) := by
  refine ⟨⟨_, rfl, ?_⟩, ?_⟩ <;> decide +kernel
/-- The input that a rill router's output serves. -/
def servedIn (s : State) (u : Nat) (o : Port5) : Option Nat := ((s.arb (arbKey 2 u o)).own s.meshNow (s.rillRequests u o)).map (fun w => w.idx)
theorem meets_MeshAndRillMoves :
    (let m := rmsg 17 26 3
     let s : State := { rillq := [(0, [m])] }
     servedIn s 0 .east = some 0 ∧ rillHead [m] 0 = some (0, m) ∧ (rillRank m.type).isSome = true ∧ rillPortOk m.port = true ∧ (link 0 .east).isSome = true) ∧
    (let m : RillMsg := { rmsg 0 26 3 with srcT := 5 }
     let s : State := { rillq := [(0, [m])], fens := [(1, { mail := [m] })] }
     servedIn s 0 .loc = some 0 ∧ rillHead [m] 0 = some (0, m) ∧ (rillRank m.type).isSome = true ∧ rillPortOk m.port = true ∧ link 0 .loc = none ∧
       m.cast = false ∧ m.port = 26 ∧ m.type ≠ 1 ∧ (s.fen 1).mail[0]? = some m ∧ m.type = 3) ∧
    (let m := rmsg 0xFE 26 4 [9, 0, 0]
     let s : State := { rillq := [(0, [m])] }
     servedIn s 0 .loc = some 0 ∧ rillHead [m] 0 = some (0, m) ∧ (rillRank m.type).isSome = true ∧ rillPortOk m.port = true ∧ link 0 .loc = none ∧ m.cast = true) ∧
    (∀ f ∈ [(0 : Fin 2), 1], let m := rmsg 0 26 5 [0]
     let s : State := { fens := [(f.val, { mail := [m] })] }
     (s.fen f.val).mail[0]? = some m ∧ m.type = 5) ∧
    (let m : RillMsg := { rmsg 0 25 8 [0] with epoch := 3, srcT := 5, fp := 0x1234 }
     let s : State := { sRun with lodes := [(23, { rillIn := [m] })], tus := [(0, { owner := some 0, epoch := 3 })] }
     (s.lode 23).rillIn[0]? = some m ∧ m.type = 8 ∧ (s.tus1 m.destT).owner = some 0 ∧ s.fp 0 = m.fp ∧ m.epoch = (s.tus1 m.destT).epoch) ∧
    (let x : LPkt := { src := 1024, dst := 0, ptype := 18, vc := 0, arg := 1 }
     let s : State := { lodes := [(23, { inbox := [x] })] }
     s.lodePkt 23 0 = some x ∧ x.ptype = 18) ∧
    (let s : State := { mesh := [(0, { bufs := [(0, [tokPkt])] })] }
     ((s.injected 0 0).outGrant 0 0 .loc).map (fun w => w.1) = some 0 ∧ (s.injected 0 0).buf 0 0 0 = tokPkt :: [] ∧ tokPkt.portOk = true ∧
       link 0 .loc = none ∧ tokPkt.contributes = false) ∧
    (Port5.south.dir = some 2 ∧ Port5.loc.dir = none) ∧
    (((sBack 0).arb (ArbId.mesh 0 0 .loc).key).b ((sBack 0).arbNow (.mesh 0 0 .loc)) 3 = 0 ∧ ((sBack 9).arb (ArbId.mesh 0 0 .loc).key).b ((sBack 9).arbNow (.mesh 0 0 .loc)) 3 ≠ 0) := by
  refine ⟨?_, ?_, ?_, ?_, ?_, ?_, ?_, ?_, ?_⟩ <;> decide +kernel

/-! ### The mire and sections -/

/-- Device 0 of a mire of devices 0 and 1024, its master; with a sync period of 16 counts. -/
def mireD : Tbl Nat := dct [(0x3000, 3, 2 ^ 48 + 0x100), (0x3400, 1, 4), (0x3400, 2, 4)]
/-- Device 1024 of it, in a state of its lock. -/
def memberD (lock : Nat) : Tbl Nat := dct [(0x3000, 1, 0x020101), (0x3000, 2, 1024), (0x3000, 3, 2 ^ 48 + 0x100), (0x3400, 1, 10), (0x3400, 5, lock)]
/-- A message of the mire to CC0. -/
def msg (type : Nat) (words : List W32) : RillMsg := { rmsg 0 26 type words with fp := 0x1234 }
/-- A load of partition 0 in a phase, of a section. -/
def stg (ph : LoadPhase) (x : Sect := sec1) (shares : List Nat := []) : Staged := { port := 0, ring := 0, cmdId := 5, auto := false, sec := x, phase := ph, shares := shares }
/-- Ports whose ring 15 is enabled, with one command waiting. -/
def prt : Tbl Port := [(0, { rings := [(15, { ctl := 0xA2020000, cmdTail := 1 })] })]

theorem test_armed_notice : (nx (exec (.armedNotice none 0) { dict := mireD, fens := [(0, { mail := [msg 1 [8192, 0, 0, 0, 0, 0, 0, 0]] })] })).mire.notices.length = 1 := by decide +kernel
theorem test_verdict : ((nx (exec (.mireVerdict none 0) { parts := [(0, { staged := some (stg .notice) })], fens := [(0, { mail := [msg 1 [0, 1]] })] })).part 0).staged.map (fun g => g.phase) = some .armed := by decide +kernel
theorem test_start_message : (((nx (exec (.mireStartMessage none 0) { sRun with fens := [(0, { mail := [msg 0 [0, 0, 64, 0]] })] })).part 0).run.bind (fun u => u.tick)) = some 64 := by decide +kernel
/-- R69: the section waits for a record of the step that is on its way. -/
theorem test_drained : ((nx (exec (.sectionDrained 0) { sRun with reeds := [(0, { status := .drain, told := true })] })).part 0).run = none ∧
    ((nx (exec (.sectionDrained 0) { sRun with reeds := [(0, { status := .drain })] })).part 0).run.isSome = true := by decide +kernel
theorem test_unload : ((nx (exec (.unloadStopRearm (hc 2 0 [(8, 2)])) { sRun with ports := prt })).part 0).run.map (fun u => u.stop) = some true := by decide +kernel

/-- A master that has the notice of device 1024, and one that takes a message. -/
def sMail (m : RillMsg) : State := { sRun with dict := mireD, fens := [(0, { mail := [m] })], timeBase := 64 }
theorem meets_MireArmsAndStarts :
    (let m := msg 1 [8192, 0, 0, 0, 0, 0, 0, 0]
     ((sMail m).mireMail none)[0]? = some m ∧ m.type = 1 ∧ m.words.length = 8 ∧ (sMail m).master = (sMail m).self) ∧
    (let m := msg 1 [0, 1]
     let s : State := { lodes := [(23, { rillIn := [m] })], parts := [(0, { staged := some (stg .notice) })] }
     (s.mireMail (some 23))[0]? = some m ∧ m.type = 1 ∧ m.words.length = 2 ∧ (s.part m.part).staged = some (stg .notice) ∧ (stg .notice).phase = .notice) ∧
    (let m := msg 2 [8192, 3]
     ((sMail m).mireMail none)[0]? = some m ∧ m.type = 2 ∧ (sMail m).master = (sMail m).self ∧ (sMail m).fp m.part = m.fp) ∧
    (let m := msg 0 [0, 0, 64, 0]
     ((sMail m).mireMail none)[0]? = some m ∧ m.type = 0 ∧ (sMail m).fp m.part = m.fp ∧ ((sMail m).part m.part).run.isSome = true ∧
       (sMail m).timeBase.toNat ≤ (m.w64 2).toNat) ∧
    (let m := msg 0 [0, 0, 63, 0]
     ((sMail m).mireMail none)[0]? = some m ∧ m.type = 0 ∧ (sMail m).fp m.part = m.fp ∧ ((sMail m).part m.part).run.isSome = true ∧
       (m.w64 2).toNat < (sMail m).timeBase.toNat) ∧
    (let s : State := { mire := { firstAt := [(7, 0)] }, dict := mireD, timeBase := 16 }
     (∀ q, q < 8 → s.past (Tbl.lk? s.mire.firstAt q) (2 ^ s.get 0x3400 2) = decide (q = 7)) ∧ s.timeBase.toNat % 2 ^ s.get 0x3400 2 = 0 ∧ s.inMire = true) ∧
    (let s : State := { mire := { firstAt := [(7, 0)] }, dict := mireD, timeBase := 15 }
     (∀ q, q < 8 → s.past (Tbl.lk? s.mire.firstAt q) (2 ^ s.get 0x3400 2) = false) ∧ s.timeBase.toNat % 2 ^ s.get 0x3400 2 ≠ 0) ∧
    (let u : Run := { sec := sec1, step := 0, tick := some 16 }
     let s : State := { dict := mireD, timeBase := 16, parts := [(7, { run := some u })] }
     (s.part 7).run = some u ∧ s.mayStart u = true ∧ s.timeBase.toNat % 2 ^ s.get 0x3400 2 = 0 ∧ s.inMire = true) := by
  refine ⟨?_, ?_, ?_, ?_, ?_, ?_, ?_, ?_⟩ <;> decide +kernel

/-- A LOAD of an image of no bytes, for a forward pass at the last tussock, with 65,535 steps. -/
def loadCmd : HCmd := hc 1 0 [(24, 0), (25, 15), (26, 15), (28, 65535), (32, 7)]
/-- That section with a program of one firing whose body is one NOP, and without groups. -/
def secP : Sect := { sec1 with groups := [], img := { sec1.img with progs :=
  [{ tus := 0, reed := 0, role := .forward, words := [0xF000000001001000, 0xF100000000000000, 0, 0x0400000000000000] }] } }
/-- A state with a load in a partition. -/
def sStg (p : Nat) (g : Staged) : State := { parts := [(p, { staged := some g })] }
theorem meets_LoadsStageAndCommit :
    (let s : State := { ports := prt }
     (s.TakesOwn loadCmd 0x01 ∧ loadCmd.f 16 8 = ({ bytes := [], progs := [] } : Image).bytes.length ∧ loadCmd.f 24 1 < 3 ∧ loadCmd.f 25 1 < 16 ∧
       loadCmd.f 26 1 < 16 ∧ loadCmd.f 28 2 ≠ 0 ∧ (s.part loadCmd.part).staged = none)) ∧
    (let g := stg .staged
     ((sStg 7 g).part 7).staged = some g ∧ g.phase = .staged ∧ (sStg 7 g).fenDown 7 ≠ some 0 ∧ (sStg 7 g).verify 7 g.sec.img = .refuse 1) ∧
    (let g := stg .armed
     ((sStg 7 g).part 7).staged = some g ∧ g.phase = .armed ∧ ((sStg 7 g).part 7).run = none ∧ (sStg 7 g).queuesLeft g.sec = false ∧
       ((sStg 7 g).causeway = true → ∀ w, w ∈ g.sec.tussocks → w < 128) ∧ g.sec.reeds.Nodup ∧ g.sec.tussocks.Nodup) := by
  refine ⟨?_, ?_, ?_⟩ <;> (try unfold State.TakesOwn State.Takes) <;> decide +kernel
/-- The hypotheses on PREPARE; whether an image's signature verifies is Config's. -/
theorem meets_LoadsStageAndCommit_prepare :
    (let g := stg .verified secP [0, 1]
     (sStg 0 g).shared 0 g = true ∧ (sStg 0 g).placeGrid 0 g = .at_ secP ∧ lowest ((sStg 0 g).prepare 0 secP).bad = none ∧ (sStg 0 g).inMire = false) ∧
    (let g := stg .verified sec1 [0, 1]
     (sStg 0 g).placeGrid 0 g = .at_ sec1 ∧ (lowest ((sStg 0 g).prepare 0 sec1).bad).isSome = true ∧ g.added = []) ∧
    (let g := stg .verified { sec1 with w := 17 } [0, 1]
     (sStg 0 g).shared 0 g = true ∧ (sStg 0 g).placeGrid 0 g = .outside ∧ g.added = []) := by
  refine ⟨?_, ?_, ?_⟩ <;> decide +kernel

/-- A monitor record of reed r at the control core of a fen: a slot's counts, or the soft-maximum rows. -/
def sRec (f : Nat) (words : List W32) : State := { sRun with fens := [(f, { mail := [rmsg 0 26 6 words] })] }
theorem meets_SectionsDrain :
    (let u : Run := { sec := { sec1 with left := 2 }, step := 0, phase := .running }
     let s : State := { sRun with reeds := [(0, { status := .drain, told := true })], parts := [(0, { run := some u })] }
     (s.part 0).run = some u ∧ u.phase = .running ∧ s.drained 0 u.sec = true ∧ s.reporting u.sec = false ∧ u.calib = false ∧ 1 < u.sec.left ∧ u.stop = false) ∧
    (let u : Run := { sec := sec1, step := 0, phase := .running }
     let s : State := { sRun with reeds := [(0, { status := .drain, told := true })] }
     (s.part 0).run = some u ∧ s.drained 0 u.sec = true ∧ s.reporting u.sec = false ∧ u.calib = false ∧ u.sec.left ≤ 1) ∧
    (fenOf (tusOf 6143) = 1 ∧ (sRec 1 [6143, 7]).recordOf 1 6143 = some (0, rmsg 0 26 6 [6143, 7])) ∧
    (∀ w ∈ [[(0 : W32), 5, 6], [0, 7, 0, 0, 0, 0, 0, 0, 0, 0, 0]], let m := rmsg 0 26 6 w
     let s := sRec 0 w
     fenOf (tusOf 0) ≠ 1 ∧ s.recordOf 0 0 = some (0, m) ∧ s.partOf 0 = some 0 ∧ ((s.part 0).run).isSome = true ∧ m.epoch = s.epochOf 0) ∧
    (∀ k ∈ [1, 2, 3], ({ sRun with ports := prt } : State).TakesOwn (hc 2 0 [(8, k)]) 0x02) := by
  refine ⟨?_, ?_, ?_, ?_, ?_⟩ <;> (try unfold State.TakesOwn State.Takes) <;> decide +kernel
/-! ### The sump, multicasts, windows -/

/-- Device 0 of a torus of 2 × 2 × 1. -/
def dims : Tbl Nat := dct [(0x3000, 1, 0x020201)]
/-- A packet of device 1024 for partition 0. -/
def lp (ptype target arg : Nat) (pay : LPay := .none) : LPkt :=
  { src := 1024, dst := 0, ptype := ptype, vc := (vcOf ptype target).getD 0, target := BitVec.ofNat 32 target, arg := BitVec.ofNat 64 arg, fp := 0x1234, pay := pay }
/-- A state in which it waits at the last lode, and a section that binds a group runs. -/
def sLp (x : LPkt) (g : GroupDecl := grp) : State :=
  { sRun with parts := [(0, { run := some { sec := { sec1 with groups := [g] }, step := 0, phase := .running } })], lodes := [(23, { inbox := [x] })], dict := dims }
/-- The group over four devices: the root has two children. -/
def grp4 : GroupDecl := { grp with y1 := 1 }
/-- A tile of FP32 zeros of a tensor, one valid element, with its CRC-32C. -/
def qHdr : TileHdr := { tensor := 7, fmt := 1, vrows := 1, vcols := 1, crc := 0xA66478F4 }
def qTile : List Byte := qHdr.bytes ++ List.replicate 4544 0
/-- The 19 packets of a contribution of that tile at the west half, its record first (R293). -/
def qPkt (t : List Byte) (i : Nat) : Pkt :=
  { src := .tus 0, dst := .half 0, port := 33, rsp := false, epoch := 0, flits := 2, pay := .contribution t 15 0 0 6 0 (.spad 0) 0 0 i }
def sCon (t : List Byte) : State := { sRun with halves := [(0, { arrived := (18 :: upto 0 18).map (qPkt t) })] }
def slot0 : SumpSlot := { part := 0, group := 15, seq := 0, efDone := true }
theorem qTile_crc : tileCrc qTile = 0xA66478F4 := (zeros_crc qHdr (by decide) (by decide +kernel)).trans (by decide +kernel)
theorem meets_ContributionsAdd :
    (let s := sCon qTile
     ∃ w, s.contribution 0 0 = some w ∧ tileCrc w.tile = (TileHdr.ofTile w.tile).crc ∧ s.Adds w 0 grp 0 ∧ s.SumpIdle) ∧
    (let s := sCon (List.replicate 64 0)
     let u : Run := { sec := sec1, step := 0, phase := .running }
     ∃ w, s.contribution 0 0 = some w ∧ tileCrc w.tile ≠ (TileHdr.ofTile w.tile).crc ∧ s.partOf w.reed = some 0 ∧ (s.part 0).run = some u) ∧
    (let x := lp 11 47 0
     let s : State := { sLp x grp4 with sump := [(0, { slots := [slot0] })] }
     s.SumpIdle ∧ s.Traffic 23 0 11 x ∧ (s.boundGroups x.dpart).find? (fun d => d.group + 32 == x.target.toNat) = some grp4 ∧ s.slot? 0 15 0 = some slot0 ∧
       (s.kids grp4).all (addOnce slot0.landed x.src).contains = false) ∧
    (let x := lp 12 47 0
     let r : SumpRes := { residue := 0, contribs := 4, norms := none, vals := [] }
     let sl : SumpSlot := { slot0 with result := some r }
     let s : State := { sLp x with sump := [(0, { slots := [sl], buf := List.replicate 63 { id := 0, part := 0, acks := 1 } })] }
     s.SumpIdle ∧ s.Traffic 23 0 12 x ∧ s.slot? 0 15 0 = some sl ∧ sl.result = some r ∧ (s.sumpHalf (0 % 2)).buf.length < 64 ∧
       (s.boundGroups x.dpart).find? (fun d => d.group == 15) = some grp ∧ (grp.tileOf 0).isSome = true) ∧
    (let x := lp 13 47 0x13A
     let s := sLp x
     s.SumpIdle ∧ s.Traffic 23 0 13 x ∧ (s.boundGroups x.dpart).find? (fun d => d.group == 15) = some grp) ∧
    (let x := { lp 13 47 0x13A with fp := 0x1235 }
     let s := sLp x
     s.SumpIdle ∧ s.lodePkt 23 0 = some x ∧ x.ptype = 13 ∧ (s.part x.dpart).run.isSome = true ∧ x.fp ≠ s.fp x.dpart) := by
  unfold State.Traffic
  refine ⟨⟨_, rfl, ?_, ?_, ?_⟩, ⟨_, rfl, ?_⟩, ?_⟩
  · rw [qTile_crc]; decide +kernel
  · unfold State.Adds; decide +kernel
  · unfold State.SumpIdle; decide +kernel
  · decide +kernel
  · unfold State.SumpIdle; decide +kernel
/-- Device 1024 of that torus, its lode 0 up. -/
def sKid (x : LPkt) (l : List SumpSlot) : State :=
  { sLp x with dict := dct [(0x3000, 1, 0x020201), (0x3000, 2, 1024), (0x3100, 1, 2)], sump := [(0, { slots := l })] }
theorem meets_SumpTrees :
    (let y : SumpPart := { residue := 5, contribs := 2, sq := 0, sqFlags := 0, vals := [5], special := [] }
     let x := lp 16 (15 * 2 ^ 24) (2 ^ 26) (.part y)
     let s := sLp x
     let ol := (s.slot? 0 15 0).getD (s.newSlot 0 grp 0 0)
     s.SumpIdle ∧ s.SumpTraffic 23 0 0 x grp 0 ∧ x.pay = .part y ∧ bits x.arg.toNat 25 20 = 0 ∧ (s.kids grp).contains x.src = true ∧
       ol.kids.contains x.src = false ∧ (s.groupRun 0 15).base ≤ 0 ∧ (s.groupRun 0 15).done.contains 0 = false ∧ (grp.tileOf 0).isSome = true ∧
       bit x.arg.toNat 26 = true ∧ residueOf (sumInts y.vals) = y.residue ∧ ol.asked.contains x.src = false ∧ s.thinned 0 grp = false ∧ ol.local_ < grp.contrib ∧
       bit (lp 16 (15 * 2 ^ 24) 0 (.part y)).arg.toNat 26 = false ∧ (sLp (lp 16 (15 * 2 ^ 24) 0 (.part y))).SumpTraffic 23 0 0 (lp 16 (15 * 2 ^ 24) 0 (.part y)) grp 0) ∧
    (let r : SumpRes := { residue := 32, contribs := 4, norms := none, vals := [0x3F800000] }
     let x := lp 16 (2 ^ 29 + 15 * 2 ^ 24) (2 ^ 26) (.res r)
     let s := sKid x [slot0]
     s.SumpIdle ∧ s.SumpTraffic 23 0 1 x grp 0 ∧ x.pay = .res r ∧ s.slot? 0 15 0 = some slot0 ∧ grp.root ≠ s.self ∧
       residueOf (sumInts (r.vals.map accInt)) = r.residue ∧ slot0.asked.contains x.src = false ∧
       (s.kids grp).all slot0.landed.contains = true ∧ slot0.landedUp = false ∧ grp.parentOf s.self = some 0 ∧ s.groupHop 0 [0, 1, 2] = some 0 ∧
       s.pickLode 0 s.self 0 15 = some 0) ∧
    (let y : SumpPart := { residue := 5, contribs := 2, sq := 0, sqFlags := 0, vals := [5], special := [] }
     let x := lp 16 (2 * 2 ^ 29 + 15 * 2 ^ 24) (2 ^ 26)
     let sl : SumpSlot := { slot0 with sent := some y }
     let s := sKid x [sl]
     s.SumpIdle ∧ s.SumpTraffic 23 0 2 x grp 0 ∧ s.slot? 0 15 0 = some sl ∧ sl.sent = some y ∧ grp.parentOf s.self = some 0 ∧ s.groupHop 0 [0, 1, 2] = some 0 ∧
       s.pickLode 0 s.self 0 (sumpTarget 0 15 0 % 2 ^ 32) = some 0) ∧
    (let r : SumpRes := { residue := 32, contribs := 4, norms := none, vals := [0x3F800000] }
     let x := lp 16 (3 * 2 ^ 29 + 15 * 2 ^ 24) (2 ^ 26)
     let sl : SumpSlot := { slot0 with result := some r }
     let s : State := { sLp x with sump := [(0, { slots := [sl] })] }
     s.SumpIdle ∧ s.SumpTraffic 23 0 3 x grp 0 ∧ s.slot? 0 15 0 = some sl ∧ sl.result = some r) ∧
    (let d : GroupDecl := { grp with thin := 1, tensors := [{ id := 7, rows := 32, cols := 32, fmt := 1, efId := 8, refId := 9 }] }
     let sl : SumpSlot := { slot0 with efDone := false }
     let pl : Placement := { tensor := 9, rows := 32, cols := 32, fmt := 1, word := 0, space := some (.hbm 7), addr := 4608, size := 4608 }
     let s : State := { sLp (lp 1 0 0) d with sump := [(0, { slots := [sl] })] }
     let s : State := { s with parts := [(0, { run := some { sec := { sec1 with groups := [d] }, step := 1, phase := .running }, places := [pl, { pl with tensor := 8 }] })] }
     s.SumpIdle ∧ (s.boundGroups 0).find? (fun e => e.group == 15) = some d ∧ s.slot? 0 15 0 = some sl ∧ sl.efDone = false ∧ sl.heldKids = [] ∧
       sl.local_ < d.contrib ∧ (d.tileOf 0).isSome = true ∧ s.hbmTile 0 .cur 9 0 0 = some (7, 4608) ∧ s.hbmTile 0 .cur 8 0 0 = some (7, 4608) ∧
       s.runStep 0 ≠ s.startOf 0 ∧ (sLp (lp 1 0 0) d).runStep 0 = (sLp (lp 1 0 0) d).startOf 0) := by
  unfold State.SumpTraffic State.SumpIdle
  and_intros <;> first | rfl | decide +kernel

/-- A partial and a result whose residue is wrong: the first time, and the second; and a thinned group's partial before the tile's mask. -/
theorem meets_SumpTrees_checks :
    (let y : SumpPart := { residue := 6, contribs := 2, sq := 0, sqFlags := 0, vals := [5], special := [] }
     let x := lp 16 (15 * 2 ^ 24) (2 ^ 26) (.part y)
     ∀ a ∈ [[], [1024]], let s : State := { sLp x with sump := [(0, { slots := [{ slot0 with asked := a }] })] }
       s.slot? 0 15 0 = some { slot0 with asked := a } ∧ residueOf (sumInts y.vals) ≠ y.residue ∧ (s.kids grp).contains x.src = true) ∧
    (let r : SumpRes := { residue := 33, contribs := 4, norms := none, vals := [0x3F800000] }
     let x := lp 16 (2 ^ 29 + 15 * 2 ^ 24) (2 ^ 26) (.res r)
     ∀ a ∈ [[], [1024]], (sKid x [{ slot0 with asked := a }]).slot? 0 15 0 = some { slot0 with asked := a } ∧ residueOf (sumInts (r.vals.map accInt)) ≠ r.residue) ∧
    (let y : SumpPart := { residue := 5, contribs := 2, sq := 0, sqFlags := 0, vals := [5], special := [] }
     let x := lp 16 (15 * 2 ^ 24) (2 ^ 26) (.part y)
     let d : GroupDecl := { grp with thin := 1 }
     let s : State := { sLp x d with parts := [(0, { run := some { sec := { sec1 with groups := [d] }, step := 1, phase := .running } })] }
     s.thinned 0 d = true ∧ (s.boundGroups 0).find? (fun y => y.group == 15) = some d ∧ ((s.slot? 0 15 0).getD (s.newSlot 0 d 0 0)).efRef = none) := by
  refine ⟨?_, ?_, ?_⟩ <;> decide +kernel

/-- A multicast of two slots into window 31 of partition 0: at a target below device 1024, at a branch, and at its root. -/
def mc : Mcast := { part := 0, group := 31, seq := 6, slots := 2, parent := some 1024, kids := [], target := true, root := 1024 }
/-- Window 31 over the pool of tussock 0, open. -/
def win31 : Window := { isOpen := true, epoch := 3, place := 0, first := 16382, slots := 2, box := [0, 1, 0, 1, 0, 0] }
def sMc (x : LPkt) (m : List Mcast) : State :=
  { sLp x with mcasts := m, parts := [(0, { run := some { sec := sec1, step := 0, phase := .running }, windows := [(31, win31)], mboxes := [(31, [0, 1, 0, 1, 0, 0])] })] }
theorem meets_MulticastSteps :
    (let x := lp 8 31 (6 * 2 ^ 32 + 2)
     let s := sMc x []
     s.Traffic 23 0 8 x ∧ s.mcast? x.dpart (x.target.toNat % 32) x.src (bits x.arg.toNat 63 32) = none) ∧
    (let s := sMc (lp 1 0 0) [mc]
     s.mcast? 0 31 1024 6 = some mc ∧ mc.target = true ∧ mc.reserved = false ∧ mc.grantSent = false ∧ mc.landedSelf = false ∧ mc.parent = some 1024 ∧
       win31.isOpen = true ∧ s.window 0 31 = win31 ∧ (∀ o, o ∈ s.mcasts → o.reserved = false) ∧
       (∀ i, i < mc.slots → s.tag (.pool win31.place) (win31.slotAt mc i) = .empty) ∧ mc.kids.all mc.granted.contains = true) ∧
    (let x := lp 9 31 (5 * 2 ^ 32 + 6)
     let m : Mcast := { mc with root := 5, kids := [1024, 32], parent := some 7 }
     let o : Mcast := { m with parent := none, target := false, kids := [1024], bytes := List.replicate 512 1 }
     (sMc x [m]).Traffic 23 0 9 x ∧ (sMc x [m]).mcast? 0 31 (bits x.arg.toNat 63 32) (bits x.arg.toNat 31 0) = some m ∧ m.grantSent = false ∧
       ({ m with granted := addOnce m.granted x.src } : Mcast).allLanded = false ∧ (sMc x [o]).mcast? 0 31 (bits x.arg.toNat 63 32) (bits x.arg.toNat 31 0) = some o ∧ o.grantSent = false ∧
       ({ o with granted := addOnce o.granted x.src } : Mcast).allGranted = true ∧ o.kids.all o.landed.contains = false) ∧
    (let x := lp 10 31 (6 * 2 ^ 32 + 256) (.slots (List.replicate 256 9))
     let m : Mcast := { mc with reserved := true, grantSent := true, data := [(0, [])] }
     let s := sMc x [m]
     s.Traffic 23 0 10 x ∧ s.mcast? 0 31 x.src (bits x.arg.toNat 63 32) = some m ∧ x.pay = .slots (List.replicate 256 9) ∧ m.parent = some 1024 ∧ m.grantSent = true ∧
       m.landedSent = false ∧ m.target = true) ∧
    (let x := lp 11 31 (5 * 2 ^ 32 + 6)
     let m : Mcast := { mc with root := 5, kids := [1024], parent := some 7, reserved := true, grantSent := true, landedSelf := true }
     let s := sMc x [m]
     s.Traffic 23 0 11 x ∧ x.target.toNat < 32 ∧ s.mcast? 0 31 (bits x.arg.toNat 63 32) (bits x.arg.toNat 31 0) = some m ∧
       m.parent = some 7 ∧ m.grantSent = true ∧ m.landedSent = false ∧ ({ m with landed := addOnce m.landed x.src } : Mcast).allLanded = true) ∧
    (let x := lp 12 31 6
     let m : Mcast := { mc with reserved := true, data := [(1, List.replicate 256 9)] }
     let s := sMc x [m]
     s.Traffic 23 0 12 x ∧ x.target.toNat < 32 ∧ s.mcast? 0 31 x.src x.arg.toNat = some m ∧ m.target = true ∧ (s.window 0 31).hbm = false ∧
       (∀ e, e ∈ (s.tus1 (s.window 0 31).place).groups → e.isOpen = true)) ∧
    (let x := lp 13 31 (6 * 2 ^ 32 + 1)
     let s := sMc x [mc]
     s.Traffic 23 0 13 x ∧ x.target.toNat < 32 ∧ s.mcast? 0 31 x.src (bits x.arg.toNat 63 32) = some mc) := by
  unfold State.Traffic
  refine ⟨?_, ?_, ?_, ?_, ?_, ?_, ?_⟩ <;> decide +kernel
/-- A state with window 31, a peer descriptor 2 to device 1024's window 31, and a put of two slots to it. -/
def wPut : Xfer := { id := 4, reed := 0, op := 2, kind := .store, src := .spad 0, srcBase := 0, dst := .window 2, dstBase := 7, slots := 2, stage := [(0, [1]), (1, [2])] }
def sWin (x : LPkt) (w : Window) (y : Xfer := wPut) : State :=
  { sLp x with reeds := [(0, { reedIn with ops := [{ id := 2, kind := .store, acks := 2 }] })], xfers := [y],
               parts := [(0, { run := some { sec := sec1, step := 0, phase := .running }, windows := [(31, w)], peers := [(2, .unicast 1024 31 3)] })] }
/-- R285: a put at the end of its window is written; R284: one of another epoch is counted. -/
theorem test_win_put : ((nx (exec (.winPut 23 0) (sWin { lp 3 31 511 (.slots [7]) with wepoch := 3 } { win31 with hbm := true, place := 6, first := 0 }))).stack 6).mem.get 511 = 7 := by decide +kernel
theorem test_win_put_closed : (nx (exec (.winPut 23 0) (sWin { lp 3 31 256 (.slots (List.replicate 256 7)) with wepoch := 2 } { win31 with hbm := true }))).get 0x3300 4 = 1 := by decide +kernel
theorem meets_WindowPuts :
    (let x : LPkt := { lp 3 31 256 (.slots (List.replicate 256 7)) with wepoch := 3 }
     let fits := fun (v : Window) => v.isOpen = true ∧ v.closing = false ∧ v.epoch = x.wepoch ∧ inBox v.box x.src = true ∧ x.arg.toNat + 256 ≤ 256 * v.slots
     let v : Window := { win31 with hbm := true, place := 7 }
     (sWin x v).Traffic 23 0 3 x ∧ x.pay = .slots (List.replicate 256 7) ∧ fits v ∧ v.hbm = true ∧ (sWin x win31).Traffic 23 0 3 x ∧ fits win31 ∧ win31.hbm = false ∧
       (sWin x { win31 with slots := 1 }).Traffic 23 0 3 x ∧ ¬ fits { win31 with slots := 1 }) ∧
    (let x := lp 4 31 (256 * 8)
     let s := sWin x win31
     s.lodePkt 23 0 = some x ∧ x.ptype = 4 ∧ (s.putsTo x.dpart x.src x.target.toNat).find? (fun f => decide (f.dstBase ≤ x.arg.toNat / 256)
       && decide (x.arg.toNat / 256 < f.dstBase + f.slots) && !f.got.contains (x.arg.toNat / 256 - f.dstBase)) = some wPut ∧
       (s.reed wPut.reed).ops.find? (fun y => y.id == wPut.op) = some { id := 2, kind := .store, acks := 2 }) ∧
    (let x := lp 5 31 4
     (sWin x win31).lodePkt 23 0 = some x ∧ x.ptype = 5 ∧ wPut ∈ (sWin x win31).putsTo 0 1024 31 ∧ wPut.halted = false) ∧
    (let x := lp 6 31 4
     let y : Xfer := { wPut with halted := true, fault := .windowClosed }
     (sWin x win31 y).lodePkt 23 0 = some x ∧ x.ptype = 6 ∧ y ∈ (sWin x win31 y).putsTo x.dpart x.src x.target.toNat ∧
       Tbl.lk? ((sWin x win31 y).part 0).peers 2 = some (.unicast x.src x.target.toNat 3)) ∧
    (let x := lp 7 31 3
     let s : State := { sLp x with parts := [(0, { windows := [(31, win31)] })] }
     s.lodePkt 23 0 = some x ∧ x.ptype = 7 ∧ win31.isOpen = true ∧ inBox win31.box x.src = true ∧ win31.epoch = BitVec.ofNat 16 x.arg.toNat ∧
       s.window x.dpart 31 = win31 ∧ (s.part x.dpart).peers = [] ∧ win31.puts = []) := by
  unfold State.Traffic
  refine ⟨?_, ?_, ?_, ?_, ?_⟩ <;> decide +kernel
/-- WINDOW of window 63 and a box of two devices. -/
def winCmd (flags place first slots : Nat) : HCmd := hc 7 0 [(8, 63), (9, flags), (12, place), (16, first), (24, slots), (29, 1), (31, 1)]
theorem meets_PagesAndWindows :
    (let pl : Placement := { tensor := 9, rows := 32, cols := 32, fmt := 1, word := 0, space := some (.hbm 7), addr := 4608, size := 4608 }
     let s : State := { sRun with ports := prt, dict := dims, parts := [(0, { places := [pl] })] }
     ∀ c ∈ [winCmd 1 255 16382 2, winCmd 3 7 4608 18], s.TakesOwn c 0x07 ∧ c.window.win < 64 ∧ bit (c.f 9 1) 0 = true ∧ boxOk c.window.box = true ∧
       c.window.slots ≠ 0 ∧ (if c.window.hbm then c.f 16 8 % 4608 = 0 ∧ c.window.slots % 18 = 0 ∧ c.f 12 2 < 8 else c.window.place < 256) ∧
       s.windowOk c.part c.window = true) ∧
    (let s : State := { sRun with ports := prt, dict := dims, parts := [(0, { windows := [(63, win31)] })] }
     s.TakesOwn (winCmd 0 0 0 0) 0x07 ∧ bit ((winCmd 0 0 0 0).f 9 1) 0 = false ∧ (s.window 0 63).isOpen = true) ∧
    (let x : Xfer := { wPut with kind := .load, src := .host 1, dst := .spad 0, chan := 1, trans := true }
     let s : State := { xfers := [x] }
     s.xfer? x.id = some x ∧ x.trans = true ∧ x.chan ≠ 0 ∧ x.out = false ∧ x.src = .host 1) ∧
    (let x : Xfer := { wPut with dst := .host 1, chan := 1, trans := true, out := true }
     let s : State := { xfers := [x] }
     s.xfer? x.id = some x ∧ x.trans = true ∧ x.chan ≠ 0 ∧ x.out = true ∧ x.dst = .host 1) ∧
    (let x : Xfer := { wPut with dst := .host 1, chan := 1, halted := true }
     let r : PageReq := { xfer := 4, group := 511, sent := 0, limit := 1, outstanding := true }
     let s : State := { xfers := [x], ports := [(1, { reqs := [r] })] }
     (s.port 1).reqs.find? (fun e => e.group == 511 && e.outstanding) = some r ∧ s.xfer? r.xfer = some x ∧ x.chan ≠ 0) ∧
    (let s : State := { ports := [(1, { invals := [(31, 4096, 8192)] })] }
     (s.port 1).invals.find? (fun e => e.1 == 31) = some (31, 4096, 8192) ∧ s.xfers.any (fun y => y.uses 1 4096 8192) = false) := by
  refine ⟨?_, ?_, ?_, ?_, ?_, ?_⟩ <;> (try unfold State.TakesOwn State.Takes) <;> decide +kernel
/-! ### Lodes, SYNC, power, fens -/

/-- R266, R272: LSEQ of the next flit wraps at 16 bits; R267: a control block returns credits up to the buffer. -/
def sUp (l : Lode) : State := { lodes := [(0, l)], dict := dct [(0x3000, 1, 0x020201), (0x3100, 1, 2), (0x3100, 2, 1024)] }
theorem test_frame_sequence : ((nx (exec (.lodeFrameReceive 0 [{ lseq := 0xFFFF }] true [] 0) (sUp { rxSeq := 0xFFFF }))).lode 0).rxSeq = 0 := by decide +kernel
theorem test_frame_tag : ((nx (exec (.lodeFrameReceive 0 [{ lseq := 0 }] false [] 0) (sUp {}))).lode 0).nak = true := by decide +kernel
theorem test_credits : Tbl.lk 0 ((nx (exec (.lodeControlBlock 0 { frameSeq := 0, ackLseq := 0, nak := false, throttle := false, locked := false, credits := [(0, 9)], tbMark := 0, tbSync := 0, srcDev := 1024 }) (sUp { credits := [(0, 60)] }))).lode 0).credits 0 = 64 := by decide +kernel
theorem test_lane_lock : (nx (exec (.laneLockLoss 0 3) (sUp {}))).lodeState 0 = 3 := by decide +kernel
/-- R280: an edge 5 counts late makes a locked member slew back 5 counts. -/
theorem test_sync_edge : (nx (exec .syncInEdge { dict := memberD 2, timeBase := 1024 * 3 + 5 })).mire.slew = -5 := by decide +kernel
theorem test_sync_lost : (nx (exec .syncLost { dict := memberD 2, mire := { missed := 8 } })).get 0x3400 5 = 0 := by decide +kernel

theorem meets_LodePackets :
    (let x := lp 1 0 0 (.toks [tok1])
     let y : LPkt := { x with epoch := 1, flits := 64 }
     (sLp x).Traffic 23 0 1 x ∧ x.pay = .toks [tok1] ∧ x.epoch = ((sLp x).tus1 (targetTus x)).epoch ∧ targetPort x < 24 ∧
       (sLp y).Traffic 23 0 1 y ∧ y.epoch = ((sLp y).tus1 (targetTus y)).epoch + 1 ∧ sumOf (((sLp y).lode 23).held.map (fun z => z.flits)) + y.flits ≤ 64 ∧
       (sLp { y with flits := 65 }).Traffic 23 0 1 { y with flits := 65 } ∧ 64 < 65 ∧
       (sLp { y with epoch := 2 }).Traffic 23 0 1 { y with epoch := 2 } ∧ (2 : BitVec 3) ≠ ((sLp y).tus1 (targetTus y)).epoch + 1 ∧ (2 : BitVec 3) ≠ ((sLp y).tus1 (targetTus y)).epoch) ∧
    (let x := lp 2 (24 * 8) (2047 * 65536) (.slots (List.replicate 256 9))
     (sLp x).Traffic 23 0 2 x ∧ x.pay = .slots (List.replicate 256 9) ∧ x.epoch = ((sLp x).tus1 (targetTus x)).epoch) ∧
    (let m : RillMsg := { destT := 240, port := 26, type := 3, epoch := 0, words := [1], srcT := 0, dev := 0 }
     let x := lp 17 0 0 (.rill m)
     (sLp x).Traffic 23 0 17 x ∧ x.pay = .rill m) := by
  unfold State.Traffic; decide +kernel
theorem meets_LodeFrames :
    (let s := sUp { rxSeq := 0xFFFF }
     s.lodeState 0 = 2 ∧ (s.lode 0).failed = none ∧ (s.lode 0).again = [] ∧ (s.lode 0).rillOut = [] ∧ (s.lode 0).cur = none ∧ (s.lode 0).egress = [] ∧
       (s.lode 0).switchTx = none ∧
       let f : Flit := { lseq := 0xFFFF, part := some (lp 1 0 0, 0) }
       f.lseq = (s.lode 0).rxSeq ∧ f.good = true ∧ f.rill = none ∧ f.pkt = some (lp 1 0 0) ∧ s.lodeMisrouted (lp 1 0 0) = false ∧ (lp 1 0 0).dst = s.self) ∧
    (let s := sUp { rxSeq := 0xFFFF, failed := some (0xFFFF, true) }
     s.lodeState 0 = 2 ∧ (s.lode 0).failed = some ((s.lode 0).rxSeq, true)) ∧
    ((sUp { txFrame := 2 ^ 47 }).lode 0).switchTx ≠ some (2 ^ 47) := by decide +kernel
def hello1 : PeerHello := { bytes := [1], chainOk := true, generation := (({} : State).get 0x0000 4), lifecycle := 0, svn := 1 }
theorem meets_LodeHandshake :
    (let s := sUp { hs := .hello }
     let lo : State := { s with dict := dct [(0x3000, 1, 0x020201), (0x3000, 2, 1024), (0x3100, 2, 0)] }
     hello1.chainOk = true ∧ hello1.generation = s.get 0x0000 4 ∧ hello1.lifecycle = 0 ∧ s.get 0x1300 1 ≤ hello1.svn ∧ s.initiates 0 = true ∧ (s.lode 0).hs = .hello ∧
       lo.initiates 0 = false ∧ (lo.lode 0).hs = .hello ∧ hello1.generation = lo.get 0x0000 4 ∧ lo.get 0x1300 1 ≤ hello1.svn ∧
       ({ hello1 with lifecycle := 1 } : PeerHello).lifecycle ≠ 0 ∧ (s.lode 0).rekey = false ∧ (s.lode 0).hsFailed = false ∧
       ((sUp { hs := .hello, hsFailed := true }).lode 0).hsFailed = true ∧
       (({ lo with lodes := [(0, { hs := .kemKey })] } : State).lode 0).hs = .kemKey ∧ ({ lo with lodes := [(0, { hs := .kemKey })] } : State).initiates 0 = false) ∧
    ((sUp { hs := .cipher }).lode 0).hs = .cipher ∧
    (let l : Lode := { hs := .done, newRx := some 5 }
     l.hs = .done ∧ l.newRx.isSome = true ∧ l.rekey = false ∧ ({ l with rekey := true } : Lode).rekey = true) ∧
    (let s := sUp { hs := .failed }
     (s.lode 0).hs = .failed ∧ s.mayHandshake = true) ∧
    (let s := sUp { txFrame := 2 ^ 46 }
     s.lodeState 0 = 2 ∧ s.initiates 0 = true ∧ (s.lode 0).rekey = false ∧ 2 ^ 46 ≤ (s.lode 0).txFrame) ∧
    (let s := sUp { fec := [(3, 2 ^ 20 + 1)] }
     let q := sUp { fec := [(3, 2 ^ 20)] }
     s.lodeState 0 ≠ 3 ∧ (List.range 4).any (fun i => decide (Tbl.lk 0 (s.lode 0).fecMark i + 2 ^ 20 < Tbl.lk 0 (s.lode 0).fec i)) = true ∧
       (List.range 4).any (fun i => decide (Tbl.lk 0 (q.lode 0).fecMark i + 2 ^ 20 < Tbl.lk 0 (q.lode 0).fec i)) = false) ∧
    (let s : State := { dict := dims }
     let r : Trained := { locked := true, rate := s.get 0x3020 (23 / 4 + 1), peer := 0, delay := 9 }
     let q : Trained := { locked := true, rate := s.get 0x3020 (12 / 4 + 1), peer := 1024, delay := 9 }
     s.lodeState 23 ≠ 2 ∧ s.lodeState 23 ≠ 3 ∧ ({ r with locked := false } : Trained).locked = false ∧ r.rate + 1 ≠ s.get 0x3020 (23 / 4 + 1) ∧
       s.mayHandshake = true ∧ q.rate = s.get 0x3020 (12 / 4 + 1) ∧ s.neighbour (12 / 4) = some (1024, false) ∧ 1024 = q.peer.toNat ∧ 1024 ≠ r.peer.toNat ∧ s.lodeState 12 ≠ 2 ∧ s.lodeState 12 ≠ 3) := by
  refine ⟨?_, ?_, ?_, ?_, ?_, ?_, ?_⟩ <;> decide +kernel
theorem meets_SyncEdges :
    (let s : State := { dict := memberD 2, timeBase := 1024 * 3 + 257 }
     let q : State := { dict := memberD 2, timeBase := 1024 * 3 + 256 }
     s.inMire = true ∧ s.master ≠ s.self ∧ s.get 0x3400 5 = 2 ∧ 256 < s.syncError.2.natAbs ∧ q.syncError.2.natAbs ≤ 256) ∧
    (let s : State := { dict := memberD 1, timeBase := 1024 * 3 + 4, mire := { goodEdges := 3 } }
     let q : State := { dict := memberD 1, timeBase := 1024 * 3 - 5 }
     s.inMire = true ∧ s.master ≠ s.self ∧ s.get 0x3400 5 = 1 ∧ s.syncError.2.natAbs ≤ 4 ∧ q.get 0x3400 5 = 1 ∧ 4 < q.syncError.2.natAbs ∧ q.syncSource = none) ∧
    (let s : State := { dict := memberD 0 ++ dct [(0x3100, 1, 2), (0x3100, 2, 0)], timeBase := 6400, lodes := [(0, { locked := true, tbSync := 9 })] }
     s.inMire = true ∧ s.master ≠ s.self ∧ s.get 0x3400 5 = 0 ∧ s.syncSource = some 9) ∧
    (let s : State := { dict := memberD 2, timeBase := 1024 * 3, mire := { missed := 8 } }
     s.timeBase.toNat % 2 ^ s.get 0x3400 1 = 0 ∧ ({ s with timeBase := 1024 * 3 + 1 } : State).timeBase.toNat % 2 ^ s.get 0x3400 1 ≠ 0 ∧ s.inMire = true ∧ s.master ≠ s.self ∧
       s.get 0x3400 5 ≠ 0 ∧ 8 ≤ s.mire.missed) := by decide +kernel

/-- A device with a limit of 1000 A, and a maximum temperature of 105. -/
def sPow (p : Power) (t : W64 := 0) : State := { power := p, timeBase := t, dict := dct [(0x2000, 5, 1000), (0x2020, 2, 105)] }
theorem test_power_estimate : (nx (exec (.powerEstimate 5 1001) (sPow {}))).power.throttled = true := by decide +kernel
theorem test_droop : ((nx (exec (.droopDetected 255) {})).tus1 255).stretched = true := by decide +kernel
theorem test_dipwell : (nx (exec (.dipwellSample 0xFFF0) (sPow {}))).get 0x2020 1 = 0xFFF0 ∧ (nx (exec (.dipwellSample 0xFFF0) (sPow {}))).power.overTemp = false := by decide +kernel
theorem test_brake : (nx (exec .brakeNAssert (sPow {}))).power.hold = true := by decide +kernel
theorem test_trim : (nx (exec (.voltageTrim 7) { dict := dct [(0x2040, 1, 55)] })).get 0x2040 1 = 60 := by decide +kernel

theorem meets_PowerLoop :
    (let s := sPow {}
     1000 ≤ s.get 0x2000 5 ∧ s.power.hold = false ∧ 10 * 899 < 9 * s.get 0x2000 5 ∧ s.power.ocWarn = false ∧ s.power.ocClear = none ∧
       Tbl.lk false s.power.failed 15 = false ∧ Tbl.lk false (sPow { failed := [(15, true)] }).power.failed 15 = true ∧ (s.tus1 255).stretched = false ∧
       (({ tus := [(255, { stretched := true })] } : State).tus1 255).stretched = true ∧ (sPow { settling := some 7 }).power.settling = some 7 ∧
       ({ dict := dct [(0x2040, 1, 55)] } : State).get 0x2040 1 + 5 ≤ 60 ∧ 60 < ({ dict := dct [(0x2040, 1, 60)] } : State).get 0x2040 1 + 5) := by decide +kernel
theorem meets_EmergencyThrottle :
    (let s := sPow {}
     s.get 0x2000 5 < 1001 ∧ s.power.throttled = false ∧ s.timeBase.toNat + 1600 < 2 ^ 64 ∧ s.power.overCurrent = false ∧ s.power.brake = false ∧ s.power.otClear = none ∧
       (16 * (s.get 0x2020 2 : Int) ≤ (1680 : BitVec 16).toInt) ∧
       (1679 : BitVec 16).toInt < 16 * (s.get 0x2020 2 : Int) ∧ 16 * (s.get 0x2020 2 : Int) - 80 < (1679 : BitVec 16).toInt ∧ (1600 : BitVec 16).toInt ≤ 16 * (s.get 0x2020 2 : Int) - 80) ∧
    (let s := sPow { overTemp := true, otClear := some 0, stage2 := true, hold := true } 1600000
     s.power.overTemp = true ∧ s.past s.power.otClear (msCycles 1) = true ∧ s.power.overCurrent = false ∧ s.power.brake = false ∧ s.power.stage2 = true) ∧
    (let s := sPow { overCurrent := true, ocClear := some 0 } 1600000
     s.power.overCurrent = true ∧ s.power.ocWarn = false ∧ s.past s.power.ocClear (msCycles 1) = true) ∧
    (let s := sPow { throttled := true, overTemp := true, p7At := some 5 } 1600005
     s.power.throttled = true ∧ s.power.overTemp = true ∧ s.power.p7At = some 5 ∧ (5 : W64).toNat + msCycles 1 ≤ s.timeBase.toNat) ∧
    (let s := sPow { brake := true, brakeAt := some 5 } 1600000005
     s.power.brake = true ∧ s.power.brakeHeld = false ∧ s.power.brakeAt = some 5 ∧ (5 : W64).toNat + msCycles 1000 ≤ s.timeBase.toNat) := by
  refine ⟨?_, ?_, ?_, ?_, ?_⟩ <;> decide +kernel
/-- R417: an answered heartbeat begins the count anew. -/
theorem test_heartbeat_answer : ((nx (exec (.ccHeartbeatAnswer 1) { fens := [(1, { unanswered := 2 })] })).fen 1).unanswered = 0 := by decide +kernel
theorem test_reseed : (nx (exec .rngReseed { sedge := { draws := 1048576 } })).sedge.draws = 0 := by decide +kernel
theorem meets_FensAndFatalFaults :
    (({} : State).reeveRuns = true) ∧
    (let s : State := { sRun with fens := [(0, { unanswered := 2 })] }
     let u : Run := { sec := sec1, step := 0, phase := .running }
     (s.fen 0).recovering = none ∧ s.fenState 0 ≠ 2 ∧ 2 ≤ (s.fen 0).unanswered ∧ (s.part 0).run = some u ∧ u.sec.tussocks.any (fun w => fenOf w == 0) = true) ∧
    (let f := fun (r : FenRec) => (({ fens := [(1, { recovering := some r })] } : State).fen 1).recovering
     f { step := 0 } = some { step := 0 } ∧ ({ fens := [(1, { recovering := some { step := 0 } })] } : State).eastFree = true ∧
       ({ fens := [(1, { recovering := some { step := 0 } })], tus := [(255, { owner := some 0 })] } : State).eastFree = false ∧
       f { step := 3 } = some { step := 3 } ∧ f { step := 4 } = some { step := 4 } ∧ f { step := 4, failed := true } = some { step := 4, failed := true }) ∧
    (let s : State := { sedge := { draws := 2 ^ 20 } }
     2 ^ 20 ≤ s.sedge.draws ∧ ({ sedge := { draws := 2 ^ 20 - 1 } } : State).sedge.draws < 2 ^ 20) := by decide +kernel

/-! ### Start-up, hosts, rings, apertures, host commands -/

/-- A board record: 16 GiB channels, 3,000 A, one regulator, its CRC-32C last. -/
def rec0 : List Byte := [0x56, 0x47, 0x42, 0x43, 1, 0, 16, 2, 0xB8, 0x0B, 1, 0, 0xC0] ++ List.replicate 47 0 ++ leBytes 4 0xEDAA83BC
def fr0 : FlashRead := { record := rec0, aOk := true, bOk := true, badLog := [] }
theorem test_board_record : (parseBoard rec0).map (fun b => (b.channelGib, b.ocLimit, b.pmbusMap)) = some (16, 3000, [(true, 64)]) := by decide +kernel
theorem test_rail_turn : (nx (exec (.railApply 2) { rails := 1 })).rails = 1 ∧ (nx (exec (.railApply 1) { rails := 1, boot := .held })).rails = 2 := by decide +kernel
theorem test_release : (nx (exec (.resetNRelease 7 3) { boot := .held, tap := { ir := .extest, driving := true } })).tap.driving = false := by decide +kernel
theorem test_self_test_failed : (nx (exec (.selfTestComplete [reedUnit 6143]) { boot := .ccLoad })).isOut (reedUnit 6143) = true := by decide +kernel
theorem meets_ResetsAndBoot :
    (let s : State := { boot := .phaseA }
     let q : State := { boot := .phaseA, slots := [(0, { valid := false }), (1, { valid := false })] }
     s.boot = .phaseA ∧ (parseBoard rec0).isSome = true ∧ s.pickSlot 0 1 = some 0 ∧ parseBoard [] = none ∧ q.pickSlot 0 1 = none) ∧
    (let s : State := { boot := .ccLoad, oos := [reedUnit 5] }
     s.isOut (reedUnit 5) = true ∧ reedUnit 5 / 2 ^ 28 ≠ 5 ∧ reedUnit 5 / 2 ^ 28 ≠ 6 ∧ s.retest ≠ some (reedUnit 5)) ∧
    (let s : State := { rails := 3, boot := .held }
     s.rails = (3 : Fin 4).val ∧ s.rails ≠ (2 : Fin 4).val) ∧
    (let s : State := { boot := .held }
     s.boot = .held ∧ s.rails = 4) := by decide +kernel
/-- R403: a heartbeat limit of 10 ms. -/
theorem test_heartbeat : ((nx (exec (.heartbeatTimeout 1) { timeBase := 16000000, ports := [(1, { hbLimit := 10 })] })).port 1).loss = [.heartbeat] ∧
    ((nx (exec (.heartbeatTimeout 1) { timeBase := 15999999, ports := [(1, { hbLimit := 10 })] })).port 1).loss = [] := by decide +kernel
theorem meets_HostsComeAndGo :
    (let s : State := { timeBase := 16000000, ports := [(1, { hbLimit := 10 })] }
     s.boot ≠ .held ∧ (s.port 1).loss.contains .perst = false ∧ (6 : Fin 7).val ≠ 0 ∧ (s.port 1).loss = [] ∧ (s.port 1).hbLimit ≠ 0 ∧
       (s.port 1).hbTime.toNat + msCycles (s.port 1).hbLimit.toNat ≤ s.timeBase.toNat ∧ s.barOpen 1 = true ∧ (s.port 0).hbLimit = 0 ∧
       ({ s with timeBase := 15999999 } : State).timeBase.toNat < (s.port 1).hbTime.toNat + msCycles (s.port 1).hbLimit.toNat) ∧
    (10 ≤ (60000 : W32).toNat ∧ (60000 : W32).toNat ≤ 60000) := by decide +kernel
theorem test_doorbell : ((nx (exec (.cmdTail 0 15 15 .ok) { ports := prt })).ring 0 15).cmdTail = 15 ∧ ((nx (exec (.cmdTail 0 15 16 .ok) { ports := prt })).ring 0 15).error = 1 := by decide +kernel
theorem test_ring_vector : ((nx (exec (.ringEnable 1 0 0xA2000000 0 0) {})).ring 1 0).enabled = false ∧ ((nx (exec (.ringEnable 1 0 0xA2020000 0 0) {})).ring 1 0).enabled = true := by decide +kernel
theorem meets_RingsAndInterrupts :
    (let good := fun (c : Nat) => 4 ≤ bits c 30 27 ∧ bits c 30 27 ≤ 12 ∧ 4 ≤ bits c 26 23 ∧ bits c 26 23 ≤ 12 ∧ bits c 22 17 ≠ 0
     let s : State := { ports := prt }
     s.barOpen 0 = true ∧ (s.ring 0 0).enabled = false ∧ good 0xA2020000 ∧ ¬ good 0xEA020000 ∧ (s.ring 0 15).enabled = true ∧ (s.ring 0 15).active = true ∧
       (15 : W32).toNat < (s.ring 0 15).cmdSize ∧ (s.ring 0 15).cmdSize ≤ (16 : W32).toNat ∧ (15 : W32).toNat < (s.ring 0 15).cplSize ∧
       (s.ring 0 15).cplSize ≤ (16 : W32).toNat ∧ (s.port 0).notices = [] ∧ ∀ i, i < 16 → (s.ring 0 i).held = []) ∧
    (let s : State := { ports := [(1, { rings := [(3, { ctl := 0xA2020005, unsignalled := 2 })], pba := 2 ^ 63 })], timeBase := 8000 }
     s.barOpen 1 = true ∧ (s.ring 1 3).unsignalled ≠ 0 ∧ (s.ring 1 3).firstUnsig.toNat + usCycles (s.ring 1 3).coalesceUs ≤ s.timeBase.toNat ∧
       bit (Tbl.lk 0 (s.port 1).msix (s.ring 1 3).vector).toNat 96 = false ∧ bit (0 : BitVec 128).toNat 96 = false ∧ (s.port 1).pba.getLsbD 63 = true) := by
  refine ⟨?_, ?_⟩ <;> decide +kernel
/-- A placement of one tile in the last stack, and partition 0 with it and a key. -/
def pl0 : Placement := { tensor := 7, rows := 32, cols := 32, fmt := 1, word := 0, space := some (.hbm 7), addr := 4608, size := 4608 }
def key0 : TierKey := { key := 5 }
def sPl : State := { ports := prt, parts := [(0, { places := [pl0], sealKey := some key0 })], timeBase := 100 }
/-- A number written in enough bytes reads as itself, so a tag verifies as it was made, and a sealed tile opens (R225). -/
theorem leNat_leBytes (n x : Nat) : leNat (leBytes n x) = x % 256 ^ n := by
  induction n generalizing x with
  | zero => simp [leBytes, leNat, Nat.mod_one]
  | succ n ih => rw [leBytes, leNat, ih]; show x % 256 + 256 * _ = _; rw [Nat.pow_succ', Nat.mod_mul]
theorem leBytes_length (n x : Nat) : (leBytes n x).length = n := by
  induction n generalizing x with
  | zero => rfl
  | succ n ih => simp [leBytes, ih]
theorem gcmOk_tag (k : BitVec 256) (n a c : List Byte) : gcmOk k n a c (leBytes 16 (Config.gcmTag k n a c).toNat) = true := by
  simp only [gcmOk, leNat_leBytes, beq_iff_eq]
  exact Nat.mod_eq_of_lt (Config.gcmTag k n a c).isLt
theorem sealOk_seal (key : BitVec 256) (seq : W64) (t : List Byte) (h : 4416 ≤ t.length) : sealOk key (sealBytes key seq t) = true := by
  have hu : 4416 ≤ (withSeal t true seq).length := by simp [withSeal, leBytes_length, rep]; omega
  simp only [sealBytes]
  generalize withSeal t true seq = u at hu ⊢
  have hc : (gcmXor key (tileNonce u) (tileAreas u)).length = 4352 := by simp [gcmXor, tileAreas]; omega
  generalize hg : gcmXor key (tileNonce u) (tileAreas u) = c at hc ⊢
  have hp : (u.take 48).length = 48 := by simp; omega
  have ht := leBytes_length 16 (Config.gcmTag key (tileNonce u) (u.take 48) c).toNat
  have hn : ∀ r, tileNonce (u.take 48 ++ r) = tileNonce u := by
    intro r
    simp only [tileNonce]
    rw [List.drop_append_of_le_length (by omega), List.take_append_of_le_length (by simp; omega), List.drop_take, List.take_take]
    rfl
  simp only [sealOk, tileAreas, List.append_assoc, hn]
  rw [List.take_left' hp, List.drop_left' hp, List.take_left' ht, ← List.drop_drop (i := 16) (j := 48), List.drop_left' hp, List.drop_left' ht, List.take_left' hc]
  exact gcmOk_tag ..
/-- Tile (0, 0) of tensor 7, and a sealed copy of it. -/
def tile7 : List Byte := ({ tensor := 7 } : TileHdr).bytes ++ List.replicate 4544 0
def sld : Sealed := { bytes := sealBytes 5 0 tile7 }
theorem leNat_append (a b : List Byte) : leNat (a ++ b) = leNat a + 256 ^ a.length * leNat b := by
  induction a with
  | nil => simp [leNat]
  | cons x a ih => simp only [List.cons_append, leNat, ih, List.length_cons, Nat.pow_succ']; rw [Nat.mul_add, Nat.mul_assoc]; omega
/-- Its header names that tile: the tag stands above the fields that name it. -/
theorem sld_named : sld.named (some (7, 0, 0)) = true := by
  have hl : ((withSeal tile7 true 0).take 48).length = 48 := by decide +kernel
  have hw : ∃ r, sld.bytes.take 64 = (withSeal tile7 true 0).take 48 ++ r := by
    refine ⟨leBytes 16 (Config.gcmTag 5 (tileNonce (withSeal tile7 true 0)) ((withSeal tile7 true 0).take 48)
      (gcmXor 5 (tileNonce (withSeal tile7 true 0)) (tileAreas (withSeal tile7 true 0)))).toNat, ?_⟩
    simp only [sld, sealBytes, List.append_assoc]
    rw [List.take_append, List.take_of_length_le (by omega), List.take_append_of_le_length]
    · congr 1
    · exact Nat.le_of_eq (by rw [leBytes_length, hl])
  obtain ⟨r, hr⟩ := hw
  have h48 : leNat ((withSeal tile7 true 0).take 48) = 7 + 2 ^ 106 := by decide +kernel
  simp only [Sealed.named, TileHdr.ofTile, hr, leNat_append, h48, hl]
  simp only [BitVec.toNat_ofNat, Nat.shiftRight_eq_div_pow, Bool.and_eq_true, beq_iff_eq]
  omega
theorem sld_opens (s : State) (p : Nat) (w : Option (Nat × Nat × Nat)) (h : (s.part p).sealKey = some key0) (hw : sld.named w = true) :
    ∃ u b, s.openTile p w sld = some (u, b) := by
  have hk : (s.part p).keyFor sld = some 5 := by
    simp only [Part.keyFor, h, key0]
    simp
    exact .inl (sealOk_seal 5 0 tile7 (by decide +kernel))
  exact ⟨_, _, by simp only [State.openTile, hk, hw]; rfl⟩
/-- Window 3 with a tile in its buffer, window 2 with none. -/
def sAp : State := { sPl with ports := [(0, { apert := [(3, { reg := 0x700000001, rd := some (0, sld) }), (2, { reg := 0x700000001 })] })] }
theorem meets_AperturesAndRecovery :
    (sAp.mapped 0 0 = none ∧ sAp.mapped 0 3 = some (0, 0, 7) ∧ sAp.mapped 0 2 = some (0, 0, 7) ∧ (sAp.aperture 0 2).wrTile = none ∧
       sAp.tilePlace 0 7 0 = some (.hbm 7, 4608) ∧ sAp.barOpen 0 = true ∧ sAp.rcvOpen 0 = true ∧ sAp.bootedSlot (3 : Byte).toNat = false ∧
       sAp.bootedSlot (0 : Byte).toNat = true ∧ ([1, 2] : List Byte).length = (2 : W32).toNat) ∧
    (sAp.aperture 0 3).rd = some (0, sld) ∧ (sAp.aperture 0 2).rd = none ∧
    ∃ u k, sAp.sealTile 0 ((sAp.stack 7).mem.read 4608 4608) = some (u, k) := by
  exact ⟨by decide +kernel, rfl, rfl, _, _, rfl⟩
theorem test_manifest : ((nx (exec (.manifest (hc 3 0) { bytes := [], digests := [], startStep := 9 }) sPl)).part 0).manifest.map (fun m => m.startStep) = some 9 := by decide +kernel
theorem test_release_tensor : ((nx (exec (.release (hc 5 0 [(8, 7)])) sPl)).part 0).places = [] := by decide +kernel
/-- PLACE of a tensor of one tile with a placement word, and HOST_REGION of region 15. -/
def placeCmd (t word : Nat) : HCmd := hc 4 0 [(8, t), (12, 32), (16, 32), (20, 1), (24, word)]
def regionCmd (flags base size : Nat) : HCmd := hc 6 0 [(8, 15), (9, flags), (16, base), (24, size)]
theorem meets_PlacementCommands :
    (sPl.TakesOwn (hc 3 0) 0x03 ∧ (hc 3 0).f 16 4 = ({ bytes := [], digests := [], startStep := 0 } : Manifest).bytes.length ∧ sPl.quiet 0 = true) ∧
    (let c := placeCmd 8 0x1000000000000000
     sPl.TakesOwn c 0x04 ∧ c.f 12 4 ≠ 0 ∧ placementOk (BitVec.ofNat 64 (c.f 24 8)) false = true ∧ fmtPlaces (c.f 20 1) = true ∧
       (sPl.part 0).places.find? (fun x => x.tensor == c.f 8 4) = none ∧ (sPl.part 0).places.length < 4096 ∧
       (sPl.resolve 0 [] [] { id := 8, rows := 32, cols := 32, fmt := 1, placement := 0x1000000000000000 } 1 (fenOf (16 * (sPl.rect 0).x))).isSome = true) ∧
    (let c := placeCmd 7 0
     sPl.TakesOwn c 0x04 ∧ placementOk (BitVec.ofNat 64 (c.f 24 8)) false = true ∧ (sPl.part 0).places.find? (fun x => x.tensor == c.f 8 4) = some pl0 ∧
       pl0.rows = c.f 12 4 ∧ pl0.cols = c.f 16 4 ∧ pl0.fmt = c.f 20 1 ∧ pl0.word = BitVec.ofNat 64 (c.f 24 8)) ∧
    (sPl.TakesOwn (hc 5 0 [(8, 7)]) 0x05 ∧ sPl.usedTensor 0 7 = false) ∧
    (let c := regionCmd 1 9216 (2 ^ 64 - 9216)
     sPl.TakesOwn c 0x06 ∧ c.f 8 1 < 16 ∧ bit (c.f 9 1) 0 = true ∧ c.f 16 8 % 4608 = 0 ∧ c.f 16 8 + c.f 24 8 ≤ 2 ^ 64 ∧ Tbl.lk? (sPl.part 0).regions 15 = none) ∧
    (let c := regionCmd 0 0 0
     let r : Region := { port := 0, base := 0, size := 4608 }
     let s : State := { ports := prt, parts := [(0, { regions := [(15, r)] })] }
     s.TakesOwn c 0x06 ∧ bit (c.f 9 1) 0 = false ∧ Tbl.lk? (s.part 0).regions 15 = some r ∧ s.regionUsed 0 r = false) := by
  refine ⟨?_, ?_, ?_, ?_, ?_, ?_⟩ <;> (try unfold State.TakesOwn State.Takes) <;> decide +kernel

/-- KEY_INSTALL of sealer 65,535 into a slot. -/
def keyCmd (slot : Nat) : HCmd := hc 10 0 [(8, slot), (10, 65535)]
/-- A key that the device's KEM key wraps: 32 bytes of the keystream's complement with their tag. -/
theorem some_key (s : State) (p : Nat) (sealer : W16) (h : s.fuses.decommissioned = false) : ∃ blob k, blob.length = 1616 ∧ s.unwrapKey p sealer blob = some k := by
  let kek := (Config.kmac (Config.kemDecap s.fuses.kemSeed (rep 1568 0)) (ascii "VG wrap")).setWidth 256
  let tag := leBytes 16 (Config.gcmTag kek (rep 12 0) (leBytes 1 p ++ leBytes 2 sealer.toNat ++ leBytes 8 s.fuses.serial.toNat) (rep 32 0)).toNat
  have h1 : (rep 1568 (0 : Byte)).length = 1568 := List.length_replicate
  have h2 : (rep 32 (0 : Byte)).length = 32 := List.length_replicate
  have h3 : tag.length = 16 := leBytes_length ..
  refine ⟨rep 1568 0 ++ (rep 32 0 ++ tag), BitVec.ofNat 256 (leNat (gcmXor kek (rep 12 0) (rep 32 0))), by rw [List.length_append, List.length_append, h1, h2, h3], ?_⟩
  have hd : (rep 1568 (0 : Byte) ++ (rep 32 0 ++ tag)).drop 1600 = tag := by
    rw [show (1600 : Nat) = 1568 + 32 from rfl, ← List.drop_drop, List.drop_left' h1, List.drop_left' h2]
  simp only [State.unwrapKey, h, List.take_left' h1, List.drop_left' h1, List.take_left' h2, hd, Bool.false_eq_true, if_false]
  exact if_pos (gcmOk_tag ..)
theorem meets_KeysTilesAndReports :
    (let s : State := { ports := prt }
     let t : State := { sRun with ports := prt }
     ∀ k ∈ [0, 1], s.TakesOwn (keyCmd k) 0x0A ∧ (s.part 0).staged = none ∧ (s.part 0).run = none ∧ t.TakesOwn (keyCmd k) 0x0A ∧ (keyCmd k).f 8 1 = k ∧
       (t.part 0).staged = none ∧ (t.part 0).run.isSome = true ∧ (keyCmd k).f 10 2 = 65535 ∧ s.fuses.decommissioned = false ∧ t.fuses.decommissioned = false) ∧
    (let s : State := { ports := prt }
     ∀ k ∈ [7, 255], s.Takes (hc 11 0 [(8, k)]) 0x0B ∧ (hc 11 0 [(8, k)]).f 8 1 = k ∧ s.fuses.decommissioned = false) ∧
    (let c := hc 8 0 [(8, 63), (16, 512)]
     let e : Resup := { idx := 63, serial := 0, tensor := 7, row := 0, col := 0, space := .hbm 7, addr := 4608, opened := 0, limit := 1 }
     let s : State := { sPl with parts := [(0, { places := [pl0], sealKey := some key0, resup := [e] })] }
     s.TakesOwn c 0x08 ∧ (s.part 0).resup.find? (fun x => x.tag == c.f 8 4) = some e ∧ c.f 16 8 % 256 = 0 ∧
       s.timeBase.toNat ≤ e.opened.toNat + msCycles e.limit ∧ e.space = .hbm 7 ∧ e.joined = [] ∧ (s.part 0).sealKey = some key0 ∧ ((s.part 0).logical e.tensor, e.row, e.col) = (7, 0, 0)) ∧
    (∀ d ∈ [0, 1], let c := hc 9 0 [(8, 7), (16, 1), (20, d), (24, 2 ^ 64 - 4608)]
     sPl.TakesOwn c 0x09 ∧ sPl.tilePlace 0 (c.f 8 4) (c.f 12 4) = some (.hbm 7, 4608) ∧ c.f 16 4 = 1 ∧ c.f 24 8 + 4608 ≤ 2 ^ 64 ∧ bit (c.f 20 1) 0 = (d == 1) ∧
       (sPl.part 0).sealKey = some key0 ∧ sPl.expected 0 (.hbm 7) 4608 = some (7, 0, 0) ∧ sPl.usedTensor 0 7 = false) ∧
    ∃ u k, sPl.sealTile 0 ((sPl.stack 7).mem.read 4608 4608) = some (u, k) := by
  refine ⟨?_, ?_, ?_, ?_, _, _, rfl⟩ <;> (try unfold State.TakesOwn) <;> unfold State.Takes <;> decide +kernel

/-! ### The dictionary, Sedge, boundary scan, the step -/

/-- An open session of an administrator. -/
def ses : Session := { id := 9, principal := 15, role := 4, partMask := 0, key := 1, lastUse := 0 }
def sSes (x : Session := ses) (t : W64 := 0) : State := { sedge := { sessions := [x], dad := .usable }, timeBase := t }
def host0 : Caller := .host 0
/-- A datagram of that session with its TAG. -/
def signed (type : Byte) (payload : List Byte) : SHdr := { hdr0 type with tag := sedgeTag ses.rxKey ((hdr0 type).bytes payload) }
def vt : Session := { ses with role := 5 }

theorem test_dict_write : (nx (exec (.dictWrite host0 0x1000 4 0xFFFFFFFF 2 70) {})).get 0x1000 4 = 70 ∧
    (nx (exec (.dictWrite host0 0x1000 4 1 2 70) {})).changeCount 0x1000 = 0 := by decide +kernel
theorem test_dict_barred : (nx (exec (.dictWrite (.host 1) 0x1000 4 0xFFFFFFFF 2 70) {})).get 0x1020 6 = 1 := by decide +kernel
theorem test_probe_dropped : ((nx (exec (.probeReedRegister (hc 15 0 [(14, 0x28)])) { sPl with reeds := [(0, { dropped := 7 })] })).reed 0).dropped = 0 := by decide +kernel
theorem test_svn_commit : (nx (exec (.svnCommit host0 0xFFFFFFFF 1) { slots := [(0, { svn := 2 })] })).fuses.svnReeve = 3 := by decide +kernel
theorem test_partition_delete : ((nx (exec (.partitionDelete host0 0 0xFFFFFFFF) { tus := [(7, { pool := [(0, 1)] })], parts := [(0, { sealKey := some key0 })] })).tus1 7).pool = [] := by decide +kernel
theorem test_owner : ((nx (exec (.ownerHost host0 0 0xFFFFFFFF 1) {})).port 1).intStatus = 32 := by decide +kernel
theorem test_challenge_expires : (nx (exec .testChallengeExpire { sedge := { challenge := some (5, 0) }, timeBase := 16000000000 })).sedge.challenge = none := by decide +kernel
theorem test_store : ((nx (exec (.persistStore true) { sedge := { dirty := true, copyB := some (rep 8 0 ++ leBytes 8 5) } })).sedge.copyA.map copySeq) = some 6 := by decide +kernel
theorem test_close : (nx (exec (.close (.device 9)) sSes)).sedge.sessions = [] ∧ (nx (exec (.close (.device 8)) sSes)).sedge.sessions.length = 1 := by decide +kernel
/-- R436: EXTEST while the device runs is BYPASS. -/
theorem test_extest_runs : (nx (exec .extest {})).tap.ir = .bypass ∧ (nx (exec .extest { boot := .held })).tap.driving = true := by decide +kernel
/-- The front command runs, with the rest still waiting; an empty queue is a mesh cycle. -/
theorem test_step : (nx (step { pending := [.extest, .bypass 0xFF] })).pending = [.bypass 0xFF] ∧ (nx (step {})).timeBase = 1 := by decide +kernel

theorem meets_DictionaryCommands :
    (let s : State := { ports := prt }
     let w : DictWrite := { idx := 0x1000, sub := 4, expect := 0, len := 2, value := 70 }
     let x : DictWrite := { idx := 0x9999, sub := 1, expect := 0, len := 2, value := 70 }
     (s.Takes (hc 12 0 [(8, 1)]) 0x0C ∧ s.barred (s.hostActor 0) 0x1000 4 false = none) ∧
     (∀ n ∈ [1, 2], s.Takes (hc 12 0 [(8, n), (9, 1)]) 0x0C ∧ bit ((hc 12 0 [(8, n), (9, 1)]).f 9 1) 0 = true ∧ (hc 12 0 [(8, n), (9, 1)]).f 8 1 = n) ∧
     (entryAt w.idx w.sub).any (fun e => e.acc.held) = true ∧ s.writeStatus (s.hostActor 0) w = 0 ∧ plainEntry w.idx w.sub = true ∧
       s.barred (s.hostActor 0) x.idx x.sub true = some 1 ∧ x.idx < 0xF000) ∧
    (∀ n ∈ [1, 16], ({ ports := prt } : State).Takes (hc 13 0 [(12, n)]) 0x0D ∧ (hc 13 0 [(12, n)]).f 12 1 = n) ∧
    (let s : State := {}
     s.actor host0 = some { role := 4 } ∧ s.reeveRuns = true ∧ s.writeStatus { role := 4 } { idx := 0x1000, sub := 4, expect := 0xFFFFFFFF, len := 2, value := 70 } = 0 ∧
       (s.actor (.host 1)).map (fun a => s.barred a 0x1000 4 true) = some (some 2)) := by
  unfold State.Takes; refine ⟨⟨?_, ?_, ?_⟩, ?_, ?_⟩ <;> decide +kernel
theorem meets_ObservationCommands :
    (∀ c ∈ [hc 14 0 [(8, 0x20000000)], hc 14 0 [(8, 0x20000000), (11, 0x80)]], sPl.Takes c 0x0E ∧ sPl.snap = none ∧ c.f 8 4 % 2 ^ 26 = 0 ∧ bits (c.f 8 4) 30 29 < 2 ∧ c.port.val = 0) ∧
    (let s : State := { ports := [(1, { rings := [(15, { ctl := 0xA2020000, cmdTail := 1 })] })], dict := dct [(0x5101, 1, 0x84000000), (0x5101, 2, 1)] }
     let c : HCmd := { hc 14 1 [(8, 0x24000000)] with port := 1 }
     s.Takes c 0x0E ∧ bits (c.f 8 4) 30 29 = 1 ∧ s.owner (bits (c.f 8 4) 28 26) = 1) ∧
    (∀ c ∈ [hc 15 0 [(10, 6143), (14, 0x28)], hc 15 0 [(8, 1), (10, 6143), (12, 7)], hc 15 0 [(8, 2), (10, 6143), (12, 3)]],
      sPl.TakesOwn c 0x0F ∧ c.f 10 2 < 6144 ∧ (sPl.rect 0).has (tusOf (c.f 10 2)) = true ∧ c.f 8 1 < 3 ∧ c.f 12 1 < 8 ∧ (c.f 8 1 = 2 → c.f 12 1 < 4)) ∧
    (let c := hc 16 0 [(10, 6143), (12, 7)]
     sPl.TakesOwn c 0x10 ∧ c.f 10 2 < 6144 ∧ (sPl.rect 0).has (tusOf (c.f 10 2)) = true ∧ (sPl.reed (c.f 10 2)).cswNow = false) ∧
    (sPl.TakesOwn (hc 17 0 [(24, 65535)]) 0x11 ∧ sPl.TakesOwn (hc 18 0 [(24, 1), (28, 2)]) 0x12) ∧
    (let c := hc 19 0 [(24, 1), (28, 2)]
     sPl.TakesOwn c 0x13 ∧ 128 * (c.f 24 4 + c.f 28 4) ≤ (List.replicate 384 (0 : Byte)).length ∧ sPl.quiet 0 = true) := by
  refine ⟨?_, ?_, ?_, ?_, ?_, ?_⟩ <;> (try unfold State.TakesOwn) <;> unfold State.Takes <;> decide +kernel
theorem meets_EntryWrites :
    (let s : State := { slots := [(0, { svn := 2 })] }
     let ok := fun (i sub len v : Nat) => s.writeStatus { role := 4 } { idx := i, sub := sub, expect := 0xFFFFFFFF, len := len, value := v } = 0
     s.reeveRuns = true ∧ s.actor host0 = some { role := 4 } ∧ ok 0x2000 1 8 (500 * 2 ^ 32) ∧ s.snap = none ∧ bits (0x20000000 : W32).toNat 30 29 ≠ 2 ∧
       ok 0x7000 1 4 0x20000000 ∧ ok 0x7000 1 4 0xA0000000 ∧ ok 0x1100 6 1 1 ∧ ok 0x1100 6 1 2 ∧ ok 0x6010 3 1 0x5A ∧ ok 0x6020 3 1 2 ∧ s.fenState 1 ≠ 2 ∧
       ok 0x6050 3 4 (reedUnit 6143)) ∧
    (let s : State := { dict := dct [(0x5100, 1, 0)] }
     let ok := fun (i sub len v : Nat) => s.writeStatus { role := 4 } { idx := i, sub := sub, expect := 0xFFFFFFFF, len := len, value := v } = 0
     s.reeveRuns = true ∧ s.actor host0 = some { role := 4 } ∧ (Rect.ofWord (s.get 0x5107 1)).w = 0 ∧ (Rect.ofWord 0x00840000).w ≠ 0 ∧ ok 0x5107 1 4 0x00840000 ∧
       ok 0x5107 2 1 1 ∧ s.owner 7 ≠ 1 ∧ ok 0x1010 16 40 (4 * 2 ^ 256 + 5) ∧ s.get 0x1010 16 ≠ 4 * 2 ^ 256 + 5) ∧
    ({} : State).writeStatus { role := 4 } { idx := 0x5100, sub := 1, expect := 0xFFFFFFFF, len := 4, value := 0 } = 0 := by
  refine ⟨?_, ?_, ?_⟩ <;> decide +kernel
/-- Whether a signature verifies is Config's; one for which no challenge stands does not. -/
theorem meets_TestAndStore :
    (let s := sSes vt
     s.reeveRuns = true ∧ s.actor (.session 9) = some { role := 5 } ∧ ({} : State).actor host0 = some { role := 4 } ∧ ({} : State).lifecycle = 0 ∧
       s.writeStatus { role := 5 } { idx := 0xF000, sub := 2, expect := 0xFFFFFFFF, len := 1280, value := 7 } = 0 ∧ s.unlocks (s.callerKey (.session 9)) 7 = false) ∧
    (let s : State := { sedge := { challenge := some (5, 1) }, timeBase := 16000000001 }
     s.sedge.challenge = some (5, 1) ∧ (1 : W64).toNat + msCycles 10000 ≤ s.timeBase.toNat) ∧
    (let s : State := { sedge := { dirty := true, storeFailed := true, copyA := some (rep 8 0 ++ leBytes 8 5), copyB := some (rep 8 0 ++ leBytes 8 5) } }
     s.reeveRuns = true ∧ s.sedge.dirty = true ∧ s.oosFlash = s.oos ∧ s.sedge.syncWait = [] ∧ s.sedge.storedAt = none ∧ s.sedge.storeFailed = true) ∧
    (let s : State := { sedge := { dirty := true, storedAt := some 0 }, timeBase := 1600000000 }
     s.past s.sedge.storedAt (msCycles 1000) = true ∧ ({ s with timeBase := 1599999999 } : State).timeBase.toNat < (0 : W64).toNat + msCycles 1000) ∧
    (let s : State := { oos := [reedUnit 5] }
     s.reeveRuns = true ∧ s.sedge.dirty = false ∧ s.oosFlash ≠ s.oos ∧ s.sedge.syncWait = [] ∧ s.sedge.storedAt = none) := by
  refine ⟨?_, ?_, ?_, ?_, ?_⟩ <;> decide +kernel
/-- Every request of that session with its TAG is a new one, and the session's counts allow every response. -/
theorem ses_asks (type : Byte) (payload : List Byte) : sSes.Asks (signed type payload) type.toNat payload ses := by
  have ha : sSes.addressed (signed type payload) type.toNat = true := by simp only [State.addressed, signed, hdr0]; rfl
  exact ⟨⟨⟨rfl, ha, rfl⟩, by simp [signed, hdr0], rfl, rfl, rfl, by simp [signed, hdr0, ses], by simp [signed, hdr0], rfl, by simp [signed, hdr0]⟩, rfl, rfl,
    by simp [signed, hdr0, ses]⟩
theorem ses_canSend (b : List Byte) : ses.canSend b := by
  unfold Session.canSend
  have : Nat.min 16 (sedgeCount b) ≤ 16 := Nat.min_le_left ..
  exact Nat.le_trans (Nat.add_le_add_left this 1) (by decide)
theorem meets_SedgeRequests :
    (let s : State := { sedge := { dad := .usable } }
     let q : State := { sedge := { dad := .usable, anon := (0, 0) } }
     let h (type : Byte) : SHdr := { hdr0 type with session := 0 }
     s.Hits (h 1) 1 ∧ s.Hits (h 2) 2 ∧ (h 1).session = 0 ∧ (s.passAnon 3 false).isSome = true ∧ q.Hits (h 1) 1 ∧ q.passAnon 3 false = none ∧
       (0x0FFF : W16).toNat < 0x1000 ∧ s.barred { role := 1 } 0 1 false = none ∧ s.addressed { h 2 with dest := .other } 2 = false ∧
       s.addressed (h 0x20) 2 = true ∧ listedType 0x20 = false) ∧
    (let w : DictWrite := { idx := 0x1000, sub := 4, expect := 0, len := 2, value := 70 }
     sSes.barred ses.actor 0x1000 4 false = none ∧ (hdr0 3).frag = 0 ∧ (hdr0 3).more = false ∧ (hdr0 3).sync = false ∧
       (entryAt w.idx w.sub).any (fun e => e.acc.held) = true ∧ plainEntry w.idx w.sub = true ∧ sSes.writeStatus ses.actor w = 0 ∧
       parseWrite [0x10, 0x00, 4, 0, 0, 0, 0, 0, 0, 2, 0, 70] = some (w, []) ∧ parseSet 16 [0x10, 0x00, 4, 0, 0, 0, 0, 0, 0, 2, 0, 70] = some [w] ∧
       ses.attests 0xFF = true ∧ ses.attests (7 : Byte).toNat = true ∧ sSes.fuses.decommissioned = false ∧ (16 : Byte).toNat ≤ 16) := by
  unfold State.Hits
  refine ⟨?_, ?_⟩ <;> decide +kernel
/-- A device whose last principal is enrolled with a digest, as administrator. -/
def sEn (v : Nat) (f : List Frag := []) : State := { sedge := { dad := .usable, frags := f }, dict := dct [(0x1010, 16, v)] }
theorem sEn_get (v : Nat) (f : List Frag) : (sEn v f).get 0x1010 (15 + 1) = v := by simp [State.get, sEn, dct, Tbl.lk?, dk]
theorem principal_default (s : State) (n : Nat) (h : n < 16) : entryDefault s 0x1010 (n + 1) = 0 := by
  have e : ∀ n, n < 16 → (match entryAt 0x1010 (n + 1) with | some e => e.dflt | none => 0) = 0 := by decide +kernel
  unfold entryDefault
  simp only [show (0x1010 = 0x4100) = False by simp, show (0x1010 = 0x3610) = False by simp, show (0x1010 = 0x5100) = False by simp,
    show (0x1010 = 0x2000) = False by simp, show (0x1010 = 0x4000) = False by simp, false_and, if_false]
  exact e n h
theorem sEn_get_other (v n : Nat) (f : List Frag) (h : n < 15) : (sEn v f).get 0x1010 (n + 1) = 0 := by
  have hk : Tbl.lk? (sEn v f).dict (dk 0x1010 (n + 1)) = none := by
    simp only [sEn, dct, dk, List.map_cons, List.map_nil, Tbl.lk?]
    rw [if_neg (by omega)]
  unfold State.get
  rw [hk, Option.getD_none, principal_default _ _ (by omega)]
theorem enrol_word (d : BitVec 256) : (d.toNat + 4 * 2 ^ 256) % 2 ^ 256 = d.toNat ∧ bits (d.toNat + 4 * 2 ^ 256) 263 256 = 4 ∧
    bits (d.toNat + 4 * 2 ^ 256) 271 264 = 0 := by
  have hd := d.isLt
  generalize d.toNat = n at *
  unfold bits
  rw [Nat.shiftRight_eq_div_pow, Nat.shiftRight_eq_div_pow]
  omega
theorem sEn_enrolled (d : BitVec 256) (v : Nat) (f : List Frag) (e1 : v % 2 ^ 256 = d.toNat) (e2 : bits v 263 256 = 4) (e3 : bits v 271 264 = 0) :
    (sEn v f).enrolled d 4 = some (15, 0) := by
  have hf : (List.range 16).find? (fun n => let w := (sEn v f).get 0x1010 (n + 1); w % 2 ^ 256 == d.toNat && bits w 263 256 == 4) = some 15 := by
    rw [show List.range 16 = List.range 15 ++ [15] from rfl, List.find?_append, List.find?_eq_none.mpr]
    · rw [Option.none_or, List.find?_cons]; dsimp only; rw [sEn_get, e1, e2]; simp
    · intro n hn
      rw [sEn_get_other _ n _ (by simpa using hn)]
      simp [show bits 0 263 256 = 0 from rfl]
  unfold State.enrolled
  rw [if_neg (by decide), if_neg (by decide), hf]
  rw [Option.map_some, sEn_get, e3]
/-- The last fragment of a message, the fragments held, and the datagrams of the whole (R366). -/
def lastFrag (type : Byte) (i : W16) : SHdr := { hdr0 type with session := 0, frag := i }
def heldFrag (type : Nat) (parts : Tbl (List Byte)) : Frag := { source := 3, req := 5, type := type, parts := parts, last := none, at_ := 0 }
def helloParts : Tbl (List Byte) := [(0, rep 24 0 ++ 4 :: rep 1191 0), (1, rep 24 0 ++ rep 1192 0)]
def helloAll : Tbl (List Byte) := helloParts ++ [(2, (lastFrag 0x10 2).bytes (rep 1020 0))]
theorem hello_whole : whole helloAll = 4 :: List.replicate 3403 0 := by
  have h (b : List Byte) : (rep 24 0 ++ b).drop 24 = b := List.drop_left' List.length_replicate
  have hl : ((lastFrag 0x10 2).bytes (rep 1020 0)).drop 24 = rep 1020 0 := List.drop_left' (by decide +kernel)
  simp only [whole, helloAll, helloParts, List.cons_append, List.nil_append, List.flatMap_cons, List.flatMap_nil, h, hl, List.append_nil]
  simp only [rep, List.replicate_append_replicate]
/-- A pending handshake of address 3. -/
def hand : Handshake := { principal := 15, role := 4, key := 1, transcript := [], session := 77, secret := 2, at_ := 0, source := 3 }
def sHand : State := { sedge := { dad := .usable, pending := [hand], sessions := List.replicate 7 ses, frags := [heldFrag 0x12 [(0, rep 24 0 ++ rep 1192 0)]] } }
def confirmAll : Tbl (List Byte) := [(0, rep 24 0 ++ rep 1192 0), (1, (lastFrag 0x12 1).bytes (rep 88 0))]
/-- A HELLO of an enrolled key, complete with its third fragment. Whether the signature of a CONFIRM verifies is Config's. -/
theorem meets_SegmentAndSessions_hello :
    let v := (Config.shake (((whole helloAll).drop 36).take 1793)).toNat + 4 * 2 ^ 256
    let s := sEn v [heldFrag 0x10 helloParts]
    s.Hits (lastFrag 0x10 2) 0x10 ∧ (∃ g u, s.gather (lastFrag 0x10 2) (rep 1020 0) = (g, some helloAll) ∧ g.passAnon 3 true = some u) ∧
      s.enrolled (Config.shake (((whole helloAll).drop 36).take 1793)) (fld (whole helloAll) 0 1) = some (15, 0) ∧ (whole helloAll).length = 3404 ∧
      s.fuses.decommissioned = false := by
  have w := enrol_word (Config.shake (((whole helloAll).drop 36).take 1793))
  refine ⟨⟨rfl, rfl, rfl⟩, ⟨_, _, rfl, rfl⟩, ?_, ?_, rfl⟩
  · rw [show fld (whole helloAll) 0 1 = 4 by rw [hello_whole]; rfl]
    exact sEn_enrolled _ _ _ w.1 w.2.1 w.2.2
  · rw [hello_whole, List.length_cons, List.length_replicate]
theorem meets_SegmentAndSessions :
    (sHand.Hits (lastFrag 0x12 1) 0x12 ∧ (∃ g u, sHand.gather (lastFrag 0x12 1) (rep 88 0) = (g, some confirmAll) ∧ g.passAnon 3 false = some u) ∧
      sHand.sedge.pending.reverse.find? (fun y => y.source == 3 && !sHand.past (some y.at_) (msCycles 2000)) = some hand ∧
      (whole confirmAll).length = 1280 ∧ sHand.sedge.sessions.length < 8 ∧ ∀ y, y ∈ sHand.sedge.sessions → y.id ≠ hand.session) ∧
    (sSes.Hears (signed 0x14 []) 0x14 [] ses ∧ sSes.Hears (signed 9 []) 9 [] ses) ∧
    (let e : SEvent := { req := 4, entry := { seq := 1, cause := 0, cls := 0, time := 0 }, sends := 7 }
     let g : SEvent := { e with sends := 8 }
     let s := sSes { ses with events := [e] } 160000000
     s.segmentUp = true ∧ e.at_.toNat + msCycles 100 ≤ s.timeBase.toNat ∧ e.sends < 8 ∧ ({ ses with events := [e] } : Session).events.find? (fun g => g.req == 4) = some e ∧
       ({ ses with events := [g] } : Session).events.find? (fun g => g.req == 4) = some g ∧ 8 ≤ g.sends) ∧
    (let s := sSes ses (1600000 * 60000)
     s.session? 9 = some ses ∧ ses.lastUse.toNat + msCycles (1000 * s.get 0x1000 4) ≤ s.timeBase.toNat) := by
  refine ⟨⟨⟨rfl, rfl, rfl⟩, ⟨_, _, rfl, rfl⟩, rfl, by decide +kernel, by decide, by decide +kernel⟩, ⟨(ses_asks 0x14 []).1, (ses_asks 9 []).1⟩, ?_, ?_⟩ <;> decide +kernel
theorem meets_SegmentAndSessions_segment :
    (let s : State := { sedge := { plcaOk := false } }
     s.reeveRuns = true ∧ s.sedge.plcaOk ≠ true ∧ s.boardRec.nodeId ≠ 255 ∧ s.sedge.plcaLogged = none ∧ s.sedge.dad = .running) ∧
    (let s : State := { sedge := { plcaLogged := some 0 }, timeBase := 1600000 * 60000 - 1 }
     s.sedge.plcaLogged = some 0 ∧ s.timeBase.toNat < (0 : W64).toNat + msCycles 60000 ∧ ({ boardRec := { nodeId := 255 } } : State).boardRec.nodeId = 255) := by decide +kernel
theorem meets_BoundaryScan :
    2 ≤ ({} : State).rails ∧ ({ boot := .held } : State).boot = .held ∧ ({} : State).boot ≠ .held ∧ ({ boot := .held } : State).rails = 4 ∧
      ({ boot := .held, tap := { ir := .clamp, driving := true } } : State).tap.ir.drives = true ∧ privateOp 0x10 = true ∧ privateOp 0xFF = false ∧
      ({ dict := dct [(0x1100, 1, 1)] } : State).get 0x1100 1 = 1 := by decide +kernel
theorem meets_StepTakesTheFront : ({ pending := [.extest, .bypass 0xFF] } : State).pending = Instr.extest :: [.bypass 0xFF] := rfl
theorem meets_EmptyQueueTicks :
    (({ boot := .held } : State).pending = [] ∧ ({ boot := .held } : State).boot = .held) ∧ ({ power := { tripped := true } } : State).power.tripped = true ∧
    (({} : State).pending = [] ∧ ({} : State).boot ≠ .held ∧ ({} : State).power.tripped = false ∧ ({} : State).mire.slew = 0) := by decide
/-- Each invariant holds of a state from which a step leads on. -/
theorem meets_ScanNeverTakesALand :
    State.scanSafe { pending := [.extest], boot := .held, tap := { ir := .clamp, driving := true } } ∧ ∃ t, step { pending := [.extest], boot := .held, tap := { ir := .clamp, driving := true } } = .next t :=
  ⟨fun _ => rfl, _, rfl⟩
theorem meets_RunsOnlyWithRails : State.railsSafe { pending := [.resetNAssert] } ∧ ∃ t, step { pending := [.resetNAssert] } = .next t :=
  ⟨fun _ => rfl, _, rfl⟩
theorem meets_FusesOnlyGrow : ∃ t, step { pending := [.svnCommit host0 0xFFFFFFFF 1] } = .next t := ⟨_, rfl⟩
end Sys2Proof.Tests
end

/-! PROOFS. Permuting and unpacking (R190, R193): the lanes of a V register that has just been written, what an issued vector operation
leaves alone, and the two instructions. -/
namespace Sys2Proof.Machine

/-! ### Packed elements -/

/-- Element j of a packed list stands at bit w * j. -/
theorem packBits_shiftRight (w : Nat) (l : List Nat) (j : Nat) : packBits w l >>> (w * j) % 2 ^ w = l.getD j 0 % 2 ^ w := by
  induction l generalizing j with
  | nil => simp [packBits]
  | cons e l ih =>
    have hcons : packBits w (e :: l) = e % 2 ^ w + packBits w l * 2 ^ w := rfl
    cases j with
    | zero => simp [hcons]
    | succ j =>
      have htail : packBits w (e :: l) >>> w = packBits w l := by
        rw [hcons, Nat.shiftRight_eq_div_pow, Nat.add_mul_div_right _ _ (Nat.two_pow_pos w),
          Nat.div_eq_of_lt (Nat.mod_lt _ (Nat.two_pow_pos w)), Nat.zero_add]
      rw [Nat.mul_succ, Nat.add_comm, Nat.shiftRight_add, htail, ih, List.getD_cons_succ]

/-- A field of a number below bit m is a field of the number modulo 2^m. -/
theorem mod_two_pow_shiftRight_mod {m a w : Nat} (n : Nat) (h : a + w ≤ m) : (n % 2 ^ m) >>> a % 2 ^ w = n >>> a % 2 ^ w := by
  apply Nat.eq_of_testBit_eq
  intro i
  rw [Nat.testBit_mod_two_pow, Nat.testBit_mod_two_pow, Nat.testBit_shiftRight, Nat.testBit_shiftRight, Nat.testBit_mod_two_pow]
  by_cases hi : i < w
  · simp [hi, show a + i < m by omega]
  · simp [hi]

/-- Element j of a register of m bits that holds a packed list, within those bits. -/
theorem bits_packBits {w m : Nat} (hw : 0 < w) (l : List Nat) {j : Nat} (hj : w * j + w ≤ m) :
    bits (BitVec.ofNat m (packBits w l)).toNat (w * j + w - 1) (w * j) = l.getD j 0 % 2 ^ w := by
  rw [bits, show w * j + w - 1 + 1 - w * j = w by omega, BitVec.toNat_ofNat, mod_two_pow_shiftRight_mod _ hj, packBits_shiftRight]

/-! ### Lanes -/

theorem width_pos (f : Fmt) : 0 < f.width := by cases f <;> decide

/-- Every lane of a format stands within the register's 1,024 bits (R179). -/
theorem lane_within {f : Fmt} (hf : f ≠ .fp64) {n : Nat} (hn : n < fmtLanes f) : f.width * n + f.width ≤ 1024 := by
  rw [fmtLanes, if_neg hf] at hn
  calc f.width * n + f.width = f.width * (n + 1) := (Nat.mul_succ _ _).symm
    _ ≤ f.width * (1024 / f.width) := Nat.mul_le_mul_left _ hn
    _ ≤ 1024 := Nat.mul_div_le _ _

/-- An operand of a format other than FP64 occupies one register (R180). -/
theorem vSpecs_single {f : Fmt} (hf : f ≠ .fp64) (x : Reed) (k i : Nat) : vSpecs x k i f = [spV x k i] := if_neg hf

/-- The lanes of a register that holds a packed list are the list's elements, each cut to the width, and zero past its end. -/
theorem Reed.lanes_packed {x : Reed} {k i : Nat} {f : Fmt} (hf : f ≠ .fp64) {l : List Nat}
    (hv : x.getV k i = BitVec.ofNat 1024 (packBits f.width l)) :
    x.lanes k i f = (List.range (fmtLanes f)).map (fun n => l.getD n 0 % 2 ^ f.width) := by
  have hcut : x.lanes k i f = (List.range (fmtLanes f)).map (fun n => bits (x.getV k i).toNat (f.width * n + f.width - 1) (f.width * n)) := by
    rw [Reed.lanes, fmtLanes, if_neg hf, if_neg hf]
  rw [hcut, hv]
  exact List.map_congr_left fun n hn => bits_packBits (width_pos f) l (lane_within hf (List.mem_range.mp hn))

theorem Reed.length_lanes (x : Reed) (k i : Nat) (f : Fmt) : (x.lanes k i f).length = fmtLanes f := by
  unfold Reed.lanes fmtLanes
  split <;> simp

/-- The number of a V register depends on the number of contexts alone (R100). -/
theorem Reed.vNum_congr {x y : Reed} (ht : y.threads = x.threads) (k i : Nat) : y.vNum k i = x.vNum k i := by
  simp only [Reed.vNum, ht]

theorem Reed.getV_congr {x y : Reed} (hv : y.v = x.v) (ht : y.threads = x.threads) (k i : Nat) : y.getV k i = x.getV k i := by
  simp only [Reed.getV, Reed.vNum_congr ht, hv]

theorem Reed.lanes_congr {x y : Reed} (hv : y.v = x.v) (ht : y.threads = x.threads) (k i : Nat) (f : Fmt) : y.lanes k i f = x.lanes k i f := by
  simp only [Reed.lanes, Reed.getV_congr hv ht]

/-- Four registers from a multiple of four are distinct, in a threaded reed too (R100). -/
theorem Reed.vNum_inj_of_aligned (x : Reed) (k : Nat) {d i j : Nat} (_ : d % 4 = 0) (hi : i < 4) (hj : j < 4)
    (h : x.vNum k (d + i) = x.vNum k (d + j)) : i = j := by
  unfold Reed.vNum at h
  split at h <;> omega

/-! ### Changes of the V registers alone -/

/-- From s to t nothing has changed but V registers of the reed. -/
structure State.ChangesV (s t : State) (r : RR) : Prop where
  only : s.OnlyReed t r.reed.val
  reed : t.reed r.reed.val = { s.reed r.reed.val with v := (t.reed r.reed.val).v }

theorem State.ChangesV.refl (s : State) (r : RR) : s.ChangesV s r := ⟨⟨rfl, fun _ _ => rfl, fun _ => rfl⟩, rfl⟩

theorem State.ChangesV.trans {s t u : State} {r : RR} (h : s.ChangesV t r) (k : t.ChangesV u r) : s.ChangesV u r :=
  ⟨h.only.trans k.only, by rw [k.reed, h.reed]⟩

theorem State.ChangesV.threads {s t : State} {r : RR} (h : s.ChangesV t r) : (t.reed r.reed.val).threads = (s.reed r.reed.val).threads := by
  rw [h.reed]

/-- A format other than FP64 writes its lanes to one register. -/
theorem State.putLanes_narrow {f : Fmt} (hf : f ≠ .fp64) (s : State) (r : RR) (i : Nat) (l : List Nat) :
    s.putLanes r i f l = s.putV r i (BitVec.ofNat 1024 (packBits f.width l)) := if_neg hf

theorem State.changesV_putV (s : State) (r : RR) (i : Nat) (w : VReg) : s.ChangesV (s.putV r i w) r :=
  ⟨State.modReed_only _ _ _, by simp [State.putV, Reed.setV]⟩

/-- A V register just written, and every other as it was. -/
theorem State.putV_v (s : State) (r : RR) (i : Nat) (w : VReg) (p : Nat) :
    Tbl.lk 0 ((s.putV r i w).reed r.reed.val).v p =
      if p = (s.reed r.reed.val).vNum r.ctx.val i then w else Tbl.lk 0 (s.reed r.reed.val).v p := by
  simp only [State.putV, State.reed_modReed_same, Reed.setV, Tbl.lk_up]

/-- The lanes of a register just written. -/
theorem State.lanes_putLanes {f : Fmt} (hf : f ≠ .fp64) (s : State) (r : RR) (i : Nat) (l : List Nat) :
    ((s.putLanes r i f l).reed r.reed.val).lanes r.ctx.val i f = (List.range (fmtLanes f)).map (fun n => l.getD n 0 % 2 ^ f.width) := by
  apply Reed.lanes_packed hf
  rw [State.putLanes_narrow hf, Reed.getV, Reed.vNum_congr (s.changesV_putV r i _).threads, State.putV_v, if_pos rfl]

/-- Writes FP32 lanes to the first m registers from one on, the elements of each given by a function of its place. -/
def State.putRegs (s : State) (r : RR) (dst : Nat) (g : Nat → List Nat) (m : Nat) : State :=
  (List.range m).foldl (fun t j => t.putLanes r (dst + j) .fp32 (g j)) s

theorem State.putRegs_succ (s : State) (r : RR) (dst : Nat) (g : Nat → List Nat) (m : Nat) :
    s.putRegs r dst g (m + 1) = (s.putRegs r dst g m).putV r (dst + m) (BitVec.ofNat 1024 (packBits Fmt.fp32.width (g m))) := by
  simp only [State.putRegs, List.range_succ, List.foldl_append, List.foldl_cons, List.foldl_nil]
  exact State.putLanes_narrow (by decide) _ _ _ _

theorem State.changesV_putRegs (s : State) (r : RR) (dst : Nat) (g : Nat → List Nat) (m : Nat) : s.ChangesV (s.putRegs r dst g m) r := by
  induction m with
  | zero => exact .refl s r
  | succ m ih => rw [State.putRegs_succ]; exact ih.trans (State.changesV_putV _ _ _ _)

/-- A physical register that none of the names stands for keeps its value. -/
theorem State.putRegs_v_other (s : State) (r : RR) (dst : Nat) (g : Nat → List Nat) (m p : Nat)
    (hp : ∀ j, j < m → p ≠ (s.reed r.reed.val).vNum r.ctx.val (dst + j)) :
    Tbl.lk 0 ((s.putRegs r dst g m).reed r.reed.val).v p = Tbl.lk 0 (s.reed r.reed.val).v p := by
  induction m with
  | zero => rfl
  | succ m ih =>
    rw [State.putRegs_succ, State.putV_v, Reed.vNum_congr (s.changesV_putRegs r dst g m).threads, if_neg (hp m (Nat.lt_succ_self m))]
    exact ih fun j hj => hp j (Nat.lt_succ_of_lt hj)

/-- Each of up to four registers from a multiple of four holds its own elements: no later write falls on it. -/
theorem State.putRegs_getV (s : State) (r : RR) {dst : Nat} (g : Nat → List Nat) (hd : dst % 4 = 0) {m j : Nat} (hm : m ≤ 4) (hj : j < m) :
    ((s.putRegs r dst g m).reed r.reed.val).getV r.ctx.val (dst + j) = BitVec.ofNat 1024 (packBits Fmt.fp32.width (g j)) := by
  rw [Reed.getV, Reed.vNum_congr (s.changesV_putRegs r dst g m).threads]
  induction m with
  | zero => exact absurd hj (Nat.not_lt_zero j)
  | succ m ih =>
    rw [State.putRegs_succ, State.putV_v, Reed.vNum_congr (s.changesV_putRegs r dst g m).threads]
    by_cases hjm : j = m
    · rw [if_pos (by rw [hjm]), hjm]
    · rw [if_neg (fun h => hjm (Reed.vNum_inj_of_aligned _ _ hd (by omega) (by omega) h))]
      exact ih (by omega) (by omega)

/-! ### The issue of a vector operation -/

/-- A reed's step that keeps its memories, tags, handles and accumulators changes no memory. -/
theorem State.OnlyReed.sameMemory {s t : State} {q : Nat} (h : s.OnlyReed t q) (hspad : (t.reed q).spad = (s.reed q).spad)
    (htags : (t.reed q).tags = (s.reed q).tags) (hhandles : (t.reed q).handles = (s.reed q).handles)
    (hacc : (t.reed q).acc = (s.reed q).acc) : s.SameMemory t := by
  obtain ⟨hrest, hother, -⟩ := h
  have htus : t.tus = s.tus := by rw [← hrest]
  have hstacks : t.hbmStacks = s.hbmStacks := by rw [← hrest]
  have hboard : t.board = s.board := by rw [← hrest]
  refine ⟨fun p => ?_, fun u => by simp only [State.tus1, htus, and_self], fun i => by simp only [State.stack, hstacks], hboard⟩
  by_cases hp : p = q
  · subst hp; exact ⟨hspad, htags, hhandles, hacc⟩
  · rw [hother p hp]; exact ⟨rfl, rfl, rfl, rfl⟩

/-- A reed's store kept twice in a row. -/
theorem Reed.SameStore.trans {x y z : Reed} (h : Reed.SameStore x y) (k : Reed.SameStore y z) : Reed.SameStore x z := by
  obtain ⟨h1, h2, h3, h4, h5, h6, h7, h8, h9, h10, h11, h12, h13, h14⟩ := h
  obtain ⟨k1, k2, k3, k4, k5, k6, k7, k8, k9, k10, k11, k12, k13, k14⟩ := k
  exact ⟨k1.trans h1, k2.trans h2, k3.trans h3, k4.trans h4, k5.trans h5, k6.trans h6, k7.trans h7, k8.trans h8, k9.trans h9, k10.trans h10, k11.trans h11, k12.trans h12, k13.trans h13, k14.trans h14⟩

/-- What an advance keeps of its reed and of the context that issues. -/
theorem State.advance_keeps (t : State) (r : RR) (h : (t.reed r.reed.val).threads = 0 → r.ctx.val = 0) :
    Reed.SameStore (t.reed r.reed.val) ((t.advance r).reed r.reed.val) ∧ t.SameScalars (t.advance r) r ∧
      ((t.advance r).reed r.reed.val).v = (t.reed r.reed.val).v ∧ ((t.advance r).reed r.reed.val).threads = (t.reed r.reed.val).threads := by
  obtain ⟨w, l, ha⟩ := t.advance_reed r
  generalize hy : (t.reed r.reed.val).modCtx r.ctx.val (fun c => { c with first := w }) = y at ha
  have hstore : Reed.SameStore (t.reed r.reed.val) y := by subst hy; simp [Reed.SameStore, Reed.modCtx, Reed.setCtx]
  have hthreads : y.threads = (t.reed r.reed.val).threads := by subst hy; rfl
  have hv : y.v = (t.reed r.reed.val).v := by subst hy; rfl
  have hctx : y.context r.ctx.val = { t.ctxOf r with first := w } := by subst hy; simp [State.ctxOf]
  have hgo := Reed.goTo_store y r.ctx.val (((t.reed r.reed.val).context r.ctx.val).pc.toNat + 1)
  obtain ⟨hs, hA, hvl, -⟩ := Reed.goTo_context y r.ctx.val (((t.reed r.reed.val).context r.ctx.val).pc.toNat + 1) r.ctx.val (by rwa [hthreads])
  rw [hctx] at hs hA hvl
  refine ⟨?_, ⟨?_, ?_, ?_⟩, ?_, ?_⟩
  · rw [ha]; exact hstore.trans hgo
  · rw [State.ctxOf, ha]; exact hs
  · rw [State.ctxOf, ha]; exact hA
  · rw [State.ctxOf, ha]; exact hvl
  · rw [ha]; exact (Reed.goTo_v _ _ _).trans hv
  · rw [ha]; exact (Reed.goTo_threads _ _ _).trans hthreads

/-- A vector operation has issued in s and left t: its result is in the V registers of u, and it is outstanding to the registers named. -/
structure State.VectorIssued (s u t : State) (r : RR) (dst : List Nat) : Prop where
  only : s.OnlyReed t r.reed.val
  scalars : s.SameScalars t r
  memory : s.SameMemory t
  op : s.AddsOp t r .vector 0 dst
  v : (t.reed r.reed.val).v = (u.reed r.reed.val).v
  threads : (t.reed r.reed.val).threads = (u.reed r.reed.val).threads

/-- An instruction that issues, whose effect is on V registers, and which registers a vector operation. -/
theorem State.issue_vector {s u : State} {r : RR} {i : Instr} {srcs dst : List Nat} {body : State → Issue} (h : s.Issues r srcs)
    (hi : s.At r .exec i) (hu : (s.unfenced r).ChangesV u r) (hb : body (s.unfenced r) = .go (u.addOp r.reed.val .vector 0 dst)) :
    s.VectorIssued u (s.issue r i srcs body) r dst := by
  rw [State.issue_go s r i srcs body _ h hi hb]
  have hreed : (u.addOp r.reed.val .vector 0 dst).reed r.reed.val =
      { ((s.reed r.reed.val).modCtx r.ctx.val (fun c => { c with fence := false })).addOp .vector 0 dst with v := (u.reed r.reed.val).v } := by
    rw [State.addOp, State.reed_modReed_same, hu.reed, State.unfenced, State.reed_modReed_same]; rfl
  have honly : s.OnlyReed (u.addOp r.reed.val .vector 0 dst) r.reed.val :=
    ((State.modReed_only _ _ _).trans hu.only).trans (State.modReed_only _ _ _)
  have hscalars : s.SameScalars (u.addOp r.reed.val .vector 0 dst) r := by
    simp [State.SameScalars, State.ctxOf, hreed, Reed.addOp, Reed.context, Reed.modCtx, Reed.setCtx]
  obtain ⟨hstore, ⟨hS, hA, hvl⟩, hv, hthreads⟩ := State.advance_keeps (u.addOp r.reed.val .vector 0 dst) r
    (by rw [hreed]; exact h.one)
  obtain ⟨hspad, htags, hhandles, -, -, -, hacc, -, -, -, -, -, hops, -⟩ := hstore
  have hall := honly.trans (State.advance_only _ r)
  rw [hreed] at hspad htags hhandles hacc hops
  refine ⟨hall, ⟨hS.trans hscalars.1, hA.trans hscalars.2.1, hvl.trans hscalars.2.2⟩, hall.sameMemory hspad htags hhandles hacc, hops, ?_, ?_⟩
  · rw [hv, hreed]
  · rw [hthreads, State.addOp, State.reed_modReed_same]; rfl

/-- The end of a fence leaves the V registers and the number of contexts. -/
theorem State.unfenced_v (s : State) (r : RR) : ((s.unfenced r).reed r.reed.val).v = (s.reed r.reed.val).v := by
  rw [State.unfenced, State.reed_modReed_same]; rfl
theorem State.unfenced_threads (s : State) (r : RR) : ((s.unfenced r).reed r.reed.val).threads = (s.reed r.reed.val).threads := by
  rw [State.unfenced, State.reed_modReed_same]; rfl
/-- It leaves every register that the context names, and VL. -/
@[simp] theorem State.unfenced_lanes (s : State) (r : RR) (k i : Nat) (f : Fmt) :
    ((s.unfenced r).reed r.reed.val).lanes k i f = (s.reed r.reed.val).lanes k i f :=
  Reed.lanes_congr (s.unfenced_v r) (s.unfenced_threads r) k i f
@[simp] theorem State.v_unfenced (s : State) (r : RR) (i : Nat) : (s.unfenced r).v r i = s.v r i :=
  Reed.getV_congr (s.unfenced_v r) (s.unfenced_threads r) _ _
@[simp] theorem State.unfenced_getS (s : State) (r : RR) (i : Nat) : ((s.unfenced r).ctxOf r).getS i = (s.ctxOf r).getS i := by
  simp [State.unfenced, State.ctxOf, Ctx.getS]
@[simp] theorem State.unfenced_vl (s : State) (r : RR) : ((s.unfenced r).ctxOf r).vl = (s.ctxOf r).vl := by
  simp [State.unfenced, State.ctxOf]

/-- A vector operation that VL governs, with VL in its range. -/
theorem State.vop_issued {s u : State} {r : RR} {i : Instr} {srcs dst : List Nat} {limit : Nat} {body : State → Nat → Issue}
    (hI : s.Issues r srcs) (hi : s.At r .exec i) (hpos : 0 < (s.ctxOf r).vl.toNat) (hle : (s.ctxOf r).vl.toNat ≤ limit)
    (hu : (s.unfenced r).ChangesV u r) (hbody : body (s.unfenced r) (s.ctxOf r).vl.toNat = .go u) :
    s.VectorIssued u (s.vop r i srcs dst limit body) r dst := by
  have hin : ¬((s.ctxOf r).vl.toNat = 0 ∨ (s.ctxOf r).vl.toNat > limit) := by omega
  exact State.issue_vector hI hi hu (by simp only [State.unfenced_vl, if_neg hin, hbody])

/-- A vector operation that VL governs writes, with VL in its range, the lanes its effect puts into DST. -/
theorem State.vop_writesLanes {s : State} {r : RR} {i : Instr} {srcs : List Nat} {dst : Fin 32} {f : Fmt} {body : State → Nat → Issue}
    {l : List Nat} {out : Nat → Nat} (hf : f ≠ .fp64) (hI : s.Issues r srcs)
    (hpos : 0 < (s.ctxOf r).vl.toNat) (hle : (s.ctxOf r).vl.toNat ≤ fmtLanes f)
    (hexec : exec i s = .next (s.vop r i srcs (vSpecs (s.reed r.reed.val) r.ctx.val dst.val f) (fmtLanes f) body))
    (hbody : body (s.unfenced r) (s.ctxOf r).vl.toNat = .go ((s.unfenced r).putLanes r dst.val f l))
    (hl : ∀ n, n < fmtLanes f → l.getD n 0 = if n < (s.ctxOf r).vl.toNat then out n else 0) :
    s.WritesLanes r i dst f (s.ctxOf r).vl.toNat out := by
  intro hi
  have hput := State.putLanes_narrow hf (s.unfenced r) r dst.val l
  have hu : (s.unfenced r).ChangesV ((s.unfenced r).putLanes r dst.val f l) r := by rw [hput]; exact State.changesV_putV _ _ _ _
  have d := State.vop_issued (dst := vSpecs (s.reed r.reed.val) r.ctx.val dst.val f) hI hi hpos hle hu hbody
  refine ⟨_, hexec, d.only, ?_, ?_, d.scalars, d.memory, d.op⟩
  · rw [Reed.lanes_congr d.v d.threads, State.lanes_putLanes hf]
    refine List.map_congr_left fun n hn => ?_
    rw [hl n (List.mem_range.mp hn)]
    split
    · rfl
    · exact Nat.zero_mod _
  · intro p hp
    rw [vSpecs_single hf, List.mem_singleton, spV] at hp
    rw [d.v, hput, State.putV_v, Reed.vNum_congr (s.unfenced_threads r), if_neg (by omega), State.unfenced_v]

/-! ### The two instructions -/

theorem exec_vperm_eq (r : RR) (o : VOpt) (dst a b : Fin 32) (s : State) : exec (.vperm r o dst a b) s = execVperm r o dst a b s := rfl
theorem exec_vunpk_eq (r : RR) (o : VOpt) (dst a : Fin 32) (sc : Fin 16) (s : State) : exec (.vunpk r o dst a sc) s = execVunpk r o dst a sc s := rfl

/-- VPERM is of no FP64 lanes (R179). -/
theorem vperm_wf_fmt {r : RR} {o : VOpt} {dst a b : Fin 32} (h : Instr.wf (.vperm r o dst a b) = true) : o.fmt ≠ .fp64 := by
  have hw : (moveFmts.contains o.fmt && o.fmt != .fp64 && o.plain) = true := h
  simp only [Bool.and_eq_true, bne_iff_ne] at hw
  obtain ⟨⟨-, hf⟩, -⟩ := hw
  exact hf

/-- The first register of VUNPK's four is a multiple of four (R183). -/
theorem vunpk_wf_dst {r : RR} {o : VOpt} {dst a : Fin 32} {sc : Fin 16} (h : Instr.wf (.vunpk r o dst a sc) = true) : dst.val % 4 = 0 := by
  have hw : (narrowFmts.contains o.fmt && dst.val % 4 == 0 && o.plain) = true := h
  simp only [Bool.and_eq_true, beq_iff_eq] at hw
  obtain ⟨⟨-, hd⟩, -⟩ := hw
  exact hd

/-- R190: lane n of what VPERM puts, from a list of data and one of indices. -/
theorem getD_permuted (data index : List Nat) {n vl : Nat} (hn : n < index.length) :
    ((index.take vl).map (fun j => data.getD j 0)).getD n 0 =
      if n < vl then (if index.getD n 0 < data.length then data.getD (index.getD n 0) 0 else 0) else 0 := by
  have hpast (j : Nat) : (if j < data.length then data.getD j 0 else 0) = data.getD j 0 := by
    split
    · rfl
    · rw [List.getD_eq_getElem?_getD, List.getElem?_eq_none (by omega), Option.getD_none]
  rw [hpast]
  by_cases hvl : n < vl
  · simp only [if_pos hvl, List.getD_eq_getElem?_getD, List.getElem?_map, List.getElem?_take_of_lt hvl, List.getElem?_eq_getElem hn,
      Option.map_some, Option.getD_some]
  · rw [if_neg hvl, List.getD_eq_getElem?_getD, List.getElem?_map, List.getElem?_take, if_neg hvl, Option.map_none, Option.getD_none]

/-- VPERM writes the lanes its indices name. -/
theorem vperm_writesLanes (s : State) (r : RR) (o : VOpt) (dst a b : Fin 32) (hf : o.fmt ≠ .fp64)
    (hI : s.Issues r [spV (s.reed r.reed.val) r.ctx.val a.val, spV (s.reed r.reed.val) r.ctx.val b.val])
    (hpos : 0 < (s.ctxOf r).vl.toNat) (hle : (s.ctxOf r).vl.toNat ≤ fmtLanes o.fmt) :
    s.WritesLanes r (.vperm r o dst a b) dst o.fmt (s.ctxOf r).vl.toNat
      (fun n => if s.elem r b o.fmt n < fmtLanes o.fmt then s.elem r a o.fmt (s.elem r b o.fmt n) else 0) := by
  refine State.vop_writesLanes hf hI hpos hle (by rw [exec_vperm_eq, execVperm, vSpecs_single hf]) rfl fun n hn => ?_
  simp only [State.unfenced_lanes]
  rw [getD_permuted _ _ (by rwa [Reed.length_lanes]), Reed.length_lanes]
  rfl

/-- R193: element n of SRC1 times the scale of its block of 32, as VUNPK writes it. -/
def State.unpacked (s : State) (r : RR) (f : Fmt) (a : Fin 32) (sc : Fin 16) (n : Nat) : Nat :=
  (toF32 (if bits ((s.ctxOf r).getS sc.val).toNat (8 * (n / 32) + 7) (8 * (n / 32)) = 255 then .nan
    else (f.decode (bits (s.v r a.val).toNat (f.width * n + f.width - 1) (f.width * n))).scale
      ((bits ((s.ctxOf r).getS sc.val).toNat (8 * (n / 32) + 7) (8 * (n / 32)) : Int) - 127))).toNat

theorem State.unfenced_unpacked (s : State) (r : RR) (f : Fmt) (a : Fin 32) (sc : Fin 16) :
    (s.unfenced r).unpacked r f a sc = s.unpacked r f a sc := by
  funext n
  simp only [State.unpacked, State.unfenced_getS, State.v_unfenced]

/-- VUNPK, issued, puts four registers of 32 elements. -/
theorem vunpk_issued {s : State} {r : RR} {o : VOpt} {dst a : Fin 32} {sc : Fin 16}
    (hI : s.Issues r [spS r.ctx.val sc.val, spV (s.reed r.reed.val) r.ctx.val a.val]) (hi : s.At r .exec (.vunpk r o dst a sc)) :
    ∃ t, exec (.vunpk r o dst a sc) s = .next t ∧
      s.VectorIssued ((s.unfenced r).putRegs r dst.val (fun j => (upto (32 * j) 32).map (s.unpacked r o.fmt a sc)) 4) t r
        ((upto dst.val 4).map (spV (s.reed r.reed.val) r.ctx.val)) := by
  refine ⟨_, exec_vunpk_eq r o dst a sc s, State.issue_vector hI hi (State.changesV_putRegs _ _ _ _ _) ?_⟩
  rw [← State.unfenced_unpacked]
  rfl

/-- The element at place n of four registers of 32. -/
theorem getD_upto_block (g : Nat → Nat) (n : Nat) : ((upto (32 * (n / 32)) 32).map g).getD (n % 32) 0 = g n := by
  have hlt : n % 32 < 32 := Nat.mod_lt _ (by decide)
  simp [upto, List.getD_eq_getElem?_getD, hlt, Nat.div_add_mod]

/-- The lanes of the four registers that VUNPK has put. -/
theorem State.putRegs_lanes (s : State) (r : RR) {dst : Nat} (hd : dst % 4 = 0) (g : Nat → Nat) {n : Nat} (hn : n < 128) :
    (((s.putRegs r dst (fun j => (upto (32 * j) 32).map g) 4).reed r.reed.val).lanes r.ctx.val (dst + n / 32) .fp32).getD (n % 32) 0 =
      g n % 2 ^ 32 := by
  rw [Reed.lanes_packed (by decide) (State.putRegs_getV s r _ hd (Nat.le_refl 4) (show n / 32 < 4 by omega))]
  have hlt : n % 32 < fmtLanes .fp32 := Nat.mod_lt _ (by decide)
  rw [List.getD_eq_getElem?_getD, List.getElem?_map, List.getElem?_range hlt, Option.map_some, Option.getD_some, getD_upto_block]
  rfl

/-- Settles O13: VPERM by the rule of vector operations under VL, VUNPK by that of four registers from a multiple of four. -/
theorem permuteAndUnpack : Obligations.PermuteAndUnpack := by
  unfold Obligations.PermuteAndUnpack
  intro s r o dst a b sc
  refine ⟨fun hwf hI hpos hle => ?_, fun hwf hI hi => ?_⟩
  · exact vperm_writesLanes s r o dst a b (vperm_wf_fmt hwf) hI hpos hle
  · have hd := vunpk_wf_dst hwf
    obtain ⟨t, hexec, d⟩ := vunpk_issued hI hi
    refine ⟨t, hexec, d.only, d.scalars, d.memory, fun p hp => ?_, d.op, fun n hn => ?_⟩
    · rw [d.v, State.putRegs_v_other, State.unfenced_v]
      intro j hj h
      rw [Reed.vNum_congr (s.unfenced_threads r)] at h
      exact hp (List.mem_map.mpr ⟨dst.val + j, List.mem_map.mpr ⟨j, List.mem_range.mpr hj, rfl⟩, by rw [spV, h]⟩)
    · rw [Reed.lanes_congr d.v d.threads, State.putRegs_lanes _ r hd _ hn]
      exact Nat.mod_eq_of_lt (BitVec.isLt _)

end Sys2Proof.Machine

/-! PROOFS. Boundary scan (R358, R435, R436): what loading an instruction does to the test access port, in RESET_N and outside it, and
RESET_N's release. -/
namespace Sys2Proof.Machine

/-- The test port works once the rails of steps 1 and 2 are in regulation (R436). -/
theorem State.tapPower_of_rails {s : State} (h : 2 ≤ s.rails) : s.tapPower = true := decide_eq_true h

/-- R436: under RESET_N an instruction that drives or floats lands takes effect. -/
theorem State.tapDrive_held {s : State} (h : s.boot = .held) (i : TapInstr) (d z : Bool) :
    s.tapDrive i d z = { s with tap := { s.tap with ir := i, driving := d, hiz := z } } := if_pos h

/-- R436: outside RESET_N an instruction that drives or floats lands acts as BYPASS. -/
theorem State.tapDrive_not_held {s : State} (h : s.boot ≠ .held) (i : TapInstr) (d z : Bool) :
    s.tapDrive i d z = s.tapLoad .bypass := if_neg h

/-! ### The commands of the test port -/

theorem exec_tapReset (s : State) : exec .tapReset s = .next (s.tapLoad .idcode) := rfl

theorem exec_idcode_of_rails {s : State} (h : 2 ≤ s.rails) : exec .idcode s = .next (s.tapLoad .idcode) :=
  if_pos (State.tapPower_of_rails h)

theorem exec_samplePreload_of_rails {s : State} (h : 2 ≤ s.rails) (lands shifted : BitVec 2030) :
    exec (.samplePreload lands shifted) s =
      .next { s with tap := { (s.tapLoad .samplePreload).tap with captured := lands, cells := shifted } } :=
  if_pos (State.tapPower_of_rails h)

/-- With the test port powered, a bypass opcode asks only whether it is private and the device in VENDOR_TEST (R358). -/
theorem exec_bypass_of_rails {s : State} (h : 2 ≤ s.rails) (op : Byte) :
    exec (.bypass op) s =
      if privateOp op ∧ s.get 0x1100 1 = 1 then .refused .privateOpcode else .next (s.tapLoad .bypass) := by
  have hpower : ¬ (!s.tapPower) = true := by simp [State.tapPower_of_rails h]
  exact if_neg hpower

/-- R358: a public opcode, and any opcode outside VENDOR_TEST, loads BYPASS. -/
theorem exec_bypass_loads {s : State} (h : 2 ≤ s.rails) {op : Byte} (hop : privateOp op = false ∨ s.get 0x1100 1 ≠ 1) :
    exec (.bypass op) s = .next (s.tapLoad .bypass) := by
  rw [exec_bypass_of_rails h, if_neg]
  rintro ⟨hprivate, htest⟩
  rcases hop with hpublic | hno
  · exact absurd (hprivate.symm.trans hpublic) (by decide)
  · exact hno htest

theorem exec_bypass_refused {s : State} (h : 2 ≤ s.rails) {op : Byte} (hop : privateOp op = true) (htest : s.get 0x1100 1 = 1) :
    exec (.bypass op) s = .refused .privateOpcode := by
  rw [exec_bypass_of_rails h, if_pos ⟨hop, htest⟩]

/-- A command whose meaning is to load a driving instruction where the test port has power takes effect under RESET_N and is BYPASS
otherwise: the one argument for the five such instructions of R436. -/
theorem drives_only_when_held {s : State} (h : 2 ≤ s.rails) {c : Instr} {i : TapInstr} {d z : Bool}
    (hexec : exec c s = if s.tapPower then .next (s.tapDrive i d z) else .next s) :
    (s.boot = .held → exec c s = .next { s with tap := { s.tap with ir := i, driving := d, hiz := z } }) ∧
      (s.boot ≠ .held → exec c s = .next (s.tapLoad .bypass)) := by
  rw [if_pos (State.tapPower_of_rails h)] at hexec
  constructor
  · intro hheld
    rw [hexec, State.tapDrive_held hheld]
  · intro hnot
    rw [hexec, State.tapDrive_not_held hnot]

/-- RESET_N's release with every rail in regulation (R413, R436): phase A begins, and a driving instruction gives way to IDCODE. -/
theorem exec_resetNRelease_of_drives {s : State} (hheld : s.boot = .held) (hrails : s.rails = 4) (hdrives : s.tap.ir.drives = true)
    (node : Byte) (straps : Fin 8) :
    exec (.resetNRelease node straps) s =
      .next { s with boot := .phaseA, tap := { s.tap with ir := .idcode, driving := false, hiz := false },
                     boardRec := { s.boardRec with nodeId := node, straps := straps.val } } := by
  have hexec : exec (.resetNRelease node straps) s = execResetNRelease node straps s := rfl
  rw [hexec, execResetNRelease, if_neg (by simp [hheld, hrails]), if_pos hdrives]

/-- Settles O54: the five driving instructions by the one rule of commands that drive, the others by their equations with power. -/
theorem boundaryScan : Obligations.BoundaryScan := by
  unfold Obligations.BoundaryScan
  intro s lands shifted node op straps
  refine ⟨exec_tapReset s, fun h => ?powered, fun hheld hrails hdrives => ?release⟩
  case powered =>
    exact ⟨exec_idcode_of_rails h, exec_bypass_loads h, exec_bypass_refused h,
      drives_only_when_held h rfl, drives_only_when_held h rfl, drives_only_when_held h rfl,
      drives_only_when_held h rfl, drives_only_when_held h rfl,
      _, exec_samplePreload_of_rails h lands shifted, rfl, rfl, rfl, rfl, rfl⟩
  case release => exact ⟨_, exec_resetNRelease_of_drives hheld hrails hdrives node straps, rfl, rfl⟩

end Sys2Proof.Machine
